-- ==== Sys2Proof/Word.lean ====
section
/-! DEFINITION. The word types of the T9 (00 R2, 02 R31): bytes, 16-bit halfwords, 32-bit lane words, 64-bit scalar words. -/
namespace Sys2Proof

/-- One byte. -/
abbrev Byte := BitVec 8
/-- One 32-bit word of a vector register (02 R31). -/
abbrev W32 := BitVec 32
/-- One 64-bit scalar or system register (02 R31). -/
abbrev W64 := BitVec 64
/-- One bit for each lane of a group (02 R18). -/
abbrev Mask := BitVec 32

end Sys2Proof
end

