-- ==== Sys2Proof/Syntax.lean ====
section
/-! DEFINITION. The instructions of the T9: one constructor for each row of spec/opcode_table.json, in the table's order.
An encoded form carries the fields of its encoding (15 R266 to R278) as bit vectors of the field's width; a step that has
no encoding (spec/95) carries numbers that name what it acts on, which its docstring gives. -/
namespace Sys2Proof

/-- The 327 rows of the opcode table. Fields: `d`, `a`, `b` registers, `i` immediate, `o` offset, `g` guard (R267),
`c` condition or conversion code, `p` predicate, `w`, `l`, `n`, `s`, `r`, `t` as the row's rule names them. -/
inductive Instr where
  /-- R266: 16-bit form: copies vB into vD in every live lane of the path. -/
  | mov16 (d : BitVec 6) (b : BitVec 5)
  /-- R266: 16-bit form: vD := vD + vB, wrapping. -/
  | add16 (d : BitVec 6) (b : BitVec 5)
  /-- R266: 16-bit form: vD := vD − vB, wrapping. -/
  | sub16 (d : BitVec 6) (b : BitVec 5)
  /-- R266: 16-bit form: vD := low 32 bits of vD × vB. -/
  | mul16 (d : BitVec 6) (b : BitVec 5)
  /-- R266: 16-bit form: vD := vD AND vB. -/
  | and16 (d : BitVec 6) (b : BitVec 5)
  /-- R266: 16-bit form: vD := vD OR vB. -/
  | or16 (d : BitVec 6) (b : BitVec 5)
  /-- R266: 16-bit form: vD := vD XOR vB. -/
  | xor16 (d : BitVec 6) (b : BitVec 5)
  /-- R266: 16-bit form: vD := vD shifted left by vB[4:0]. -/
  | shl16 (d : BitVec 6) (b : BitVec 5)
  /-- R266: 16-bit form: vD := vD shifted right logically by vB[4:0]. -/
  | shr16 (d : BitVec 6) (b : BitVec 5)
  /-- R266: 16-bit form: vD := signed minimum of vD and vB. -/
  | min16 (d : BitVec 6) (b : BitVec 5)
  /-- R266: 16-bit form: vD := signed maximum of vD and vB. -/
  | max16 (d : BitVec 6) (b : BitVec 5)
  /-- R266: 16-bit form: FP32 vD := vD + vB rounded in FPMODE.RM. -/
  | fadd16 (d : BitVec 6) (b : BitVec 5)
  /-- R266: 16-bit form: FP32 vD := vD − vB rounded in FPMODE.RM. -/
  | fsub16 (d : BitVec 6) (b : BitVec 5)
  /-- R266: 16-bit form: FP32 vD := vD × vB rounded in FPMODE.RM. -/
  | fmul16 (d : BitVec 6) (b : BitVec 5)
  /-- R266: 16-bit form: vD := FMIN of vD and vB under R48. -/
  | fmin16 (d : BitVec 6) (b : BitVec 5)
  /-- R266: 16-bit form: vD := FMAX of vD and vB under R48. -/
  | fmax16 (d : BitVec 6) (b : BitVec 5)
  /-- R358: Halfword 0x0000: no effect, no register check, takes an issue slot. -/
  | nop
  /-- R307: vD := vA + vB in each participating lane, wrapping. -/
  | add (d : BitVec 7) (a : BitVec 7) (b : BitVec 7) (g : BitVec 4)
  /-- R375: vD := vA − vB, wrapping. -/
  | sub (d : BitVec 7) (a : BitVec 7) (b : BitVec 7) (g : BitVec 4)
  /-- R352: vD := low 32 bits of vA × vB. -/
  | mul (d : BitVec 7) (a : BitVec 7) (b : BitVec 7) (g : BitVec 4)
  /-- R352: vD := bits [63:32] of the signed product vA × vB. -/
  | mulh (d : BitVec 7) (a : BitVec 7) (b : BitVec 7) (g : BitVec 4)
  /-- R352: vD := vA × vB + old vD, wrapping. -/
  | mad (d : BitVec 7) (a : BitVec 7) (b : BitVec 7) (g : BitVec 4)
  /-- R352: vD := signed minimum of vA and vB. -/
  | min (d : BitVec 7) (a : BitVec 7) (b : BitVec 7) (g : BitVec 4)
  /-- R352: vD := signed maximum of vA and vB. -/
  | max (d : BitVec 7) (a : BitVec 7) (b : BitVec 7) (g : BitVec 4)
  /-- R307: vD := vA AND vB. -/
  | and (d : BitVec 7) (a : BitVec 7) (b : BitVec 7) (g : BitVec 4)
  /-- R352: vD := vA OR vB. -/
  | or (d : BitVec 7) (a : BitVec 7) (b : BitVec 7) (g : BitVec 4)
  /-- R375: vD := vA XOR vB. -/
  | xor (d : BitVec 7) (a : BitVec 7) (b : BitVec 7) (g : BitVec 4)
  /-- R375: vD := vA shifted left by vB[4:0]. -/
  | shl (d : BitVec 7) (a : BitVec 7) (b : BitVec 7) (g : BitVec 4)
  /-- R375: vD := vA shifted right logically by vB[4:0]. -/
  | shr (d : BitVec 7) (a : BitVec 7) (b : BitVec 7) (g : BitVec 4)
  /-- R375: vD := vA shifted right arithmetically by vB[4:0]. -/
  | sar (d : BitVec 7) (a : BitVec 7) (b : BitVec 7) (g : BitVec 4)
  /-- R376: Every live lane writes vA or vB to vD as its guard predicate selects. -/
  | sel (d : BitVec 7) (a : BitVec 7) (b : BitVec 7) (g : BitVec 4)
  /-- R377: Each participating lane reads vA of the lane named by vB[4:0], 0 for an exited lane. -/
  | shfl (d : BitVec 7) (a : BitVec 7) (b : BitVec 7) (g : BitVec 4)
  /-- R307: vD := vA + sign-extended IMM7. -/
  | addi (d : BitVec 7) (a : BitVec 7) (i : BitVec 7) (g : BitVec 4)
  /-- R307: vD := vA AND sign-extended IMM7. -/
  | andi (d : BitVec 7) (a : BitVec 7) (i : BitVec 7) (g : BitVec 4)
  /-- R352: vD := vA OR sign-extended IMM7. -/
  | ori (d : BitVec 7) (a : BitVec 7) (i : BitVec 7) (g : BitVec 4)
  /-- R375: vD := vA XOR sign-extended IMM7. -/
  | xori (d : BitVec 7) (a : BitVec 7) (i : BitVec 7) (g : BitVec 4)
  /-- R375: vD := vA shifted left by IMM7[4:0]. -/
  | shli (d : BitVec 7) (a : BitVec 7) (i : BitVec 5) (g : BitVec 4)
  /-- R375: vD := vA shifted right logically by IMM7[4:0]. -/
  | shri (d : BitVec 7) (a : BitVec 7) (i : BitVec 5) (g : BitVec 4)
  /-- R375: vD := vA shifted right arithmetically by IMM7[4:0]. -/
  | sari (d : BitVec 7) (a : BitVec 7) (i : BitVec 5) (g : BitVec 4)
  /-- R339: FP32 vD := vA + vB, one rounding in FPMODE.RM. -/
  | fadd (d : BitVec 7) (a : BitVec 7) (b : BitVec 7) (g : BitVec 4)
  /-- R339: FP32 vD := vA − vB, one rounding in FPMODE.RM. -/
  | fsub (d : BitVec 7) (a : BitVec 7) (b : BitVec 7) (g : BitVec 4)
  /-- R339: FP32 vD := vA × vB, one rounding in FPMODE.RM. -/
  | fmul (d : BitVec 7) (a : BitVec 7) (b : BitVec 7) (g : BitVec 4)
  /-- R339: FP32 vD := vA × vB + old vD, fused with one rounding. -/
  | ffma (d : BitVec 7) (a : BitVec 7) (b : BitVec 7) (g : BitVec 4)
  /-- R339: vD := the operand R48 selects as the minimum. -/
  | fmin (d : BitVec 7) (a : BitVec 7) (b : BitVec 7) (g : BitVec 4)
  /-- R339: vD := the operand R48 selects as the maximum. -/
  | fmax (d : BitVec 7) (a : BitVec 7) (b : BitVec 7) (g : BitVec 4)
  /-- R339: FP32 vD := vA / vB correctly rounded in FPMODE.RM. -/
  | fdiv (d : BitVec 7) (a : BitVec 7) (b : BitVec 7) (g : BitVec 4)
  /-- R57: Divides FP32 vA by vB and rounds once to the FPMODE.NARROW format. -/
  | cvts (d : BitVec 7) (a : BitVec 7) (b : BitVec 7) (g : BitVec 4)
  /-- R343: Adds two packed FP16 pairs element by element. -/
  | hadd2 (d : BitVec 7) (a : BitVec 7) (b : BitVec 7) (g : BitVec 4)
  /-- R343: Multiplies two packed FP16 pairs element by element. -/
  | hmul2 (d : BitVec 7) (a : BitVec 7) (b : BitVec 7) (g : BitVec 4)
  /-- R343: Fused multiply-add of packed FP16 pairs with old vD as addend. -/
  | hfma2 (d : BitVec 7) (a : BitVec 7) (b : BitVec 7) (g : BitVec 4)
  /-- R330: Writes pD with an integer comparison of vA and vB by condition code. -/
  | cmp (p : BitVec 3) (a : BitVec 7) (b : BitVec 7) (c : BitVec 4) (g : BitVec 4)
  /-- R341: Writes pD with an FP32 comparison of vA and vB by condition code. -/
  | fcmp (p : BitVec 3) (a : BitVec 7) (b : BitVec 7) (c : BitVec 4) (g : BitVec 4)
  /-- R355: Writes sign-extended IMM18 to vD in every live lane of the path. -/
  | movi (d : BitVec 7) (i : BitVec 18)
  /-- R355: Replaces bits [31:18] of vD with IMM18[13:0]. -/
  | movhi (d : BitVec 7) (i : BitVec 14)
  /-- R351: wD := wA + sign-extended vB, with no window check. -/
  | lea (d : BitVec 7) (a : BitVec 7) (b : BitVec 7) (g : BitVec 4)
  /-- R347: Loads a byte zero-extended into vD, split-phase. -/
  | ldU8 (d : BitVec 7) (a : BitVec 7) (o : BitVec 7) (g : BitVec 4)
  /-- R347: Loads a byte sign-extended into vD, split-phase. -/
  | ldS8 (d : BitVec 7) (a : BitVec 7) (o : BitVec 7) (g : BitVec 4)
  /-- R347: Loads a halfword zero-extended into vD, split-phase. -/
  | ldU16 (d : BitVec 7) (a : BitVec 7) (o : BitVec 7) (g : BitVec 4)
  /-- R347: Loads a halfword sign-extended into vD, split-phase. -/
  | ldS16 (d : BitVec 7) (a : BitVec 7) (o : BitVec 7) (g : BitVec 4)
  /-- R347: Loads a word into vD, split-phase. -/
  | ld32 (d : BitVec 7) (a : BitVec 7) (o : BitVec 7) (g : BitVec 4)
  /-- R347: Loads 8 bytes into pair wD, split-phase. -/
  | ld64 (d : BitVec 7) (a : BitVec 7) (o : BitVec 7) (g : BitVec 4)
  /-- R347: Loads 16 bytes into quad qD, split-phase. -/
  | ld128 (d : BitVec 7) (a : BitVec 7) (o : BitVec 7) (g : BitVec 4)
  /-- R349: Loads a word through the read-only cache for global addresses. -/
  | ldro32 (d : BitVec 7) (a : BitVec 7) (o : BitVec 7) (g : BitVec 4)
  /-- R349: Loads 16 bytes through the read-only cache for global addresses. -/
  | ldro128 (d : BitVec 7) (a : BitVec 7) (o : BitVec 7) (g : BitVec 4)
  /-- R380: Stores vD[7:0]; the highest lane wins on a shared location. -/
  | st8 (d : BitVec 7) (a : BitVec 7) (o : BitVec 7) (g : BitVec 4)
  /-- R380: Stores vD[15:0]. -/
  | st16 (d : BitVec 7) (a : BitVec 7) (o : BitVec 7) (g : BitVec 4)
  /-- R380: Stores the word vD. -/
  | st32 (d : BitVec 7) (a : BitVec 7) (o : BitVec 7) (g : BitVec 4)
  /-- R380: Stores the pair wD. -/
  | st64 (d : BitVec 7) (a : BitVec 7) (o : BitVec 7) (g : BitVec 4)
  /-- R380: Stores the quad qD. -/
  | st128 (d : BitVec 7) (a : BitVec 7) (o : BitVec 7) (g : BitVec 4)
  /-- R322: Branches participating lanes to PC + 2 × OFF21. -/
  | bra (o : BitVec 21) (g : BitVec 4)
  /-- R325: Writes the return offset to v8 and branches to PC + 2 × OFF21. -/
  | call (o : BitVec 21) (g : BitVec 4)
  /-- R273: Scalar sD := sA + sB. -/
  | sadd (d : BitVec 6) (a : BitVec 6) (b : BitVec 6)
  /-- R273: Scalar sD := sA − sB. -/
  | ssub (d : BitVec 6) (a : BitVec 6) (b : BitVec 6)
  /-- R273: Scalar sD := low 64 bits of sA × sB. -/
  | smul (d : BitVec 6) (a : BitVec 6) (b : BitVec 6)
  /-- R273: Scalar sD := sA AND sB. -/
  | sand (d : BitVec 6) (a : BitVec 6) (b : BitVec 6)
  /-- R273: Scalar sD := sA OR sB. -/
  | sor (d : BitVec 6) (a : BitVec 6) (b : BitVec 6)
  /-- R273: Scalar sD := sA XOR sB. -/
  | sxor (d : BitVec 6) (a : BitVec 6) (b : BitVec 6)
  /-- R273: Scalar sD := sA << sB[5:0]. -/
  | sshl (d : BitVec 6) (a : BitVec 6) (b : BitVec 6)
  /-- R273: Scalar sD := sA logically shifted right by sB[5:0]. -/
  | sshr (d : BitVec 6) (a : BitVec 6) (b : BitVec 6)
  /-- R273: Scalar sD := sA arithmetically shifted right by sB[5:0]. -/
  | ssar (d : BitVec 6) (a : BitVec 6) (b : BitVec 6)
  /-- R273: Scalar sD := signed minimum of sA and sB. -/
  | smin (d : BitVec 6) (a : BitVec 6) (b : BitVec 6)
  /-- R273: Scalar sD := signed maximum of sA and sB. -/
  | smax (d : BitVec 6) (a : BitVec 6) (b : BitVec 6)
  /-- R273: Scalar sD := sA. -/
  | smov (d : BitVec 6) (a : BitVec 6)
  /-- R273: Sets predicate p(B) to (sA ≠ 0) in all 32 lanes of the group. -/
  | spset (p : BitVec 3) (a : BitVec 6)
  /-- R273: Scalar sD := 1 if sA < sB signed, else 0. -/
  | slt (d : BitVec 6) (a : BitVec 6) (b : BitVec 6)
  /-- R273: Scalar sD := sA + sext(IMM9). -/
  | saddImm (d : BitVec 6) (a : BitVec 6) (i : BitVec 9)
  /-- R273: Scalar sD := sA − sext(IMM9). -/
  | ssubImm (d : BitVec 6) (a : BitVec 6) (i : BitVec 9)
  /-- R273: Scalar sD := low 64 bits of sA × sext(IMM9). -/
  | smulImm (d : BitVec 6) (a : BitVec 6) (i : BitVec 9)
  /-- R273: Scalar sD := sA AND sext(IMM9). -/
  | sandImm (d : BitVec 6) (a : BitVec 6) (i : BitVec 9)
  /-- R273: Scalar sD := sA OR sext(IMM9). -/
  | sorImm (d : BitVec 6) (a : BitVec 6) (i : BitVec 9)
  /-- R273: Scalar sD := sA XOR sext(IMM9). -/
  | sxorImm (d : BitVec 6) (a : BitVec 6) (i : BitVec 9)
  /-- R273: Scalar sD := sA << IMM9[5:0]. -/
  | sshlImm (d : BitVec 6) (a : BitVec 6) (i : BitVec 6)
  /-- R273: Scalar sD := sA logically shifted right by IMM9[5:0]. -/
  | sshrImm (d : BitVec 6) (a : BitVec 6) (i : BitVec 6)
  /-- R273: Scalar sD := sA arithmetically shifted right by IMM9[5:0]. -/
  | ssarImm (d : BitVec 6) (a : BitVec 6) (i : BitVec 6)
  /-- R273: Scalar sD := signed minimum of sA and sext(IMM9). -/
  | sminImm (d : BitVec 6) (a : BitVec 6) (i : BitVec 9)
  /-- R273: Scalar sD := signed maximum of sA and sext(IMM9). -/
  | smaxImm (d : BitVec 6) (a : BitVec 6) (i : BitVec 9)
  /-- R273: Scalar sD := sext(IMM9). -/
  | smovImm (d : BitVec 6) (i : BitVec 9)
  /-- R273: Scalar sD := 1 if sA < sext(IMM9) signed, else 0. -/
  | sltImm (d : BitVec 6) (a : BitVec 6) (i : BitVec 9)
  /-- R273: Loads Mem64[sA + 8 × sext(IMM9)] into sD, split-phase for the group. -/
  | sld (d : BitVec 6) (a : BitVec 6) (i : BitVec 9)
  /-- R273: Stores sD to Mem64[sA + 8 × sext(IMM9)]. -/
  | sst (d : BitVec 6) (a : BitVec 6) (i : BitVec 9)
  /-- R378: Scalar sD := sext(IMM19). -/
  | smovi (d : BitVec 6) (i : BitVec 19)
  /-- R378: Scalar sD := (sD << 19) OR IMM19. -/
  | smovhi (d : BitVec 6) (i : BitVec 19)
  /-- R352: Copies vA to vD bit for bit. -/
  | mov (d : BitVec 7) (a : BitVec 7) (g : BitVec 4)
  /-- R352: vD := NOT vA. -/
  | not (d : BitVec 7) (a : BitVec 7) (g : BitVec 4)
  /-- R307: vD := absolute value of vA as I32, wrapping. -/
  | abs (d : BitVec 7) (a : BitVec 7) (g : BitVec 4)
  /-- R352: vD := number of set bits of vA. -/
  | popc (d : BitVec 7) (a : BitVec 7) (g : BitVec 4)
  /-- R329: vD := count of leading zero bits of vA. -/
  | clz (d : BitVec 7) (a : BitVec 7) (g : BitVec 4)
  /-- R307: vD := vA with its 32 bits reversed. -/
  | brev (d : BitVec 7) (a : BitVec 7) (g : BitVec 4)
  /-- R356: vD := sA[31:0] in each participating lane. -/
  | movs (d : BitVec 7) (a : BitVec 6) (g : BitVec 4)
  /-- R356: vD := sA[63:32] in each participating lane. -/
  | movsHi (d : BitVec 7) (a : BitVec 6) (g : BitVec 4)
  /-- R363: Broadcasts vA of the lowest participating lane to vD, split-phase. -/
  | rdlane (d : BitVec 7) (a : BitVec 7) (g : BitVec 4)
  /-- R336: Clears bit 31 of vA into vD. -/
  | fabs (d : BitVec 7) (a : BitVec 7) (g : BitVec 4)
  /-- R336: Inverts bit 31 of vA into vD. -/
  | fneg (d : BitVec 7) (a : BitVec 7) (g : BitVec 4)
  /-- R336: vD := 1 / vA correctly rounded in FPMODE.RM. -/
  | frcp (d : BitVec 7) (a : BitVec 7) (g : BitVec 4)
  /-- R336: vD := 1 / sqrt(vA) rounded RNE. -/
  | frsq (d : BitVec 7) (a : BitVec 7) (g : BitVec 4)
  /-- R336: vD := sqrt(vA) correctly rounded in FPMODE.RM. -/
  | fsqrt (d : BitVec 7) (a : BitVec 7) (g : BitVec 4)
  /-- R336: vD := 2^vA rounded RNE. -/
  | fexp2 (d : BitVec 7) (a : BitVec 7) (g : BitVec 4)
  /-- R336: vD := log2 vA rounded RNE. -/
  | flog2 (d : BitVec 7) (a : BitVec 7) (g : BitVec 4)
  /-- R336: vD := sin vA (radians) rounded RNE. -/
  | fsin (d : BitVec 7) (a : BitVec 7) (g : BitVec 4)
  /-- R336: vD := cos vA (radians) rounded RNE. -/
  | fcos (d : BitVec 7) (a : BitVec 7) (g : BitVec 4)
  /-- R336: Rounds vA to an integral FP32 value, ties to even. -/
  | frndRne (d : BitVec 7) (a : BitVec 7) (g : BitVec 4)
  /-- R336: Rounds vA to an integral FP32 value towards zero. -/
  | frndRtz (d : BitVec 7) (a : BitVec 7) (g : BitVec 4)
  /-- R336: Rounds vA to an integral FP32 value towards +∞. -/
  | frndRup (d : BitVec 7) (a : BitVec 7) (g : BitVec 4)
  /-- R336: Rounds vA to an integral FP32 value towards −∞. -/
  | frndRdn (d : BitVec 7) (a : BitVec 7) (g : BitVec 4)
  /-- R56: Converts vA to vD in the form that SUB selects, ignoring FPMODE. -/
  | cvt (d : BitVec 7) (a : BitVec 7) (c : BitVec 4) (g : BitVec 4)
  /-- R62: Converts the RZ pair wA to FP32 in vD, rounded RNE. -/
  | rzcvt (d : BitVec 7) (a : BitVec 7) (g : BitVec 4)
  /-- R61: Adds RZ pairs wD and wA channel by channel. -/
  | rzadd (d : BitVec 7) (a : BitVec 7) (g : BitVec 4)
  /-- R385: pD := 1 in participating lanes if pA is set in some participating lane. -/
  | vsome (d : BitVec 3) (a : BitVec 3) (g : BitVec 4)
  /-- R385: pD := 1 in participating lanes if pA is set in every participating lane. -/
  | vevery (d : BitVec 3) (a : BitVec 3) (g : BitVec 4)
  /-- R313: Collects predicate pA of the participating lanes into a mask in sD. -/
  | badge (d : BitVec 6) (a : BitVec 3) (g : BitVec 4)
  /-- R353: Writes to each lane the mask of participating lanes holding an equal vA. -/
  | mates (d : BitVec 7) (a : BitVec 7) (g : BitVec 4)
  /-- R367: sD := exact sum of vA over participating lanes, as I32. -/
  | refoldAdd (d : BitVec 6) (a : BitVec 7) (g : BitVec 4)
  /-- R367: sD := signed minimum of vA over participating lanes. -/
  | refoldMin (d : BitVec 6) (a : BitVec 7) (g : BitVec 4)
  /-- R367: sD := signed maximum of vA over participating lanes. -/
  | refoldMax (d : BitVec 6) (a : BitVec 7) (g : BitVec 4)
  /-- R367: sD := FP32 sum of vA in ascending lane order. -/
  | refoldFadd (d : BitVec 6) (a : BitVec 7) (g : BitVec 4)
  /-- R367: sD := unsigned minimum of vA over participating lanes. -/
  | refoldMinu (d : BitVec 6) (a : BitVec 7) (g : BitVec 4)
  /-- R367: sD := unsigned maximum of vA over participating lanes. -/
  | refoldMaxu (d : BitVec 6) (a : BitVec 7) (g : BitVec 4)
  /-- R360: Packs p0 to p7 of each lane into vD. -/
  | ppack (d : BitVec 7) (g : BitVec 4)
  /-- R360: Sets p1 to p7 of each lane from bits of vA. -/
  | punpack (a : BitVec 7) (g : BitVec 4)
  /-- R359: pD := pD AND pA. -/
  | pand (d : BitVec 3) (a : BitVec 3) (g : BitVec 4)
  /-- R359: pD := pD OR pA. -/
  | por (d : BitVec 3) (a : BitVec 3) (g : BitVec 4)
  /-- R359: pD := pD XOR pA. -/
  | pxor (d : BitVec 3) (a : BitVec 3) (g : BitVec 4)
  /-- R359: pD := NOT pA. -/
  | pnot (d : BitVec 3) (a : BitVec 3) (g : BitVec 4)
  /-- R90: Sets pD when address wA lies in the window that the form names. -/
  | sptest (d : BitVec 3) (a : BitVec 7) (w : BitVec 2) (g : BitVec 4)
  /-- R90: Casts a private generic address to its offset, or all ones. -/
  | spcastToprv (d : BitVec 7) (a : BitVec 7) (g : BitVec 4)
  /-- R90: Casts a scratchpad address of this core to its offset, or all ones. -/
  | spcastToscr (d : BitVec 7) (a : BitVec 7) (g : BitVec 4)
  /-- R90: Casts a cluster address to its offset with core index, or all ones. -/
  | spcastToclu (d : BitVec 7) (a : BitVec 7) (g : BitVec 4)
  /-- R90: Builds a private generic address from offset vA. -/
  | spcastPrvgen (d : BitVec 7) (a : BitVec 7) (g : BitVec 4)
  /-- R90: Builds a scratchpad generic address with this core's tag. -/
  | spcastScrgen (d : BitVec 7) (a : BitVec 7) (g : BitVec 4)
  /-- R90: Builds a cluster generic address from vA. -/
  | spcastClugen (d : BitVec 7) (a : BitVec 7) (g : BitVec 4)
  /-- R350: Copies 16 bytes per lane asynchronously into the group's open batch. -/
  | lda (d : BitVec 7) (a : BitVec 7) (g : BitVec 4)
  /-- R361: May bring the line of each lane's address towards the core; no visible effect. -/
  | pref (a : BitVec 7) (g : BitVec 4)
  /-- R135: Drops every line of the core's read-only cache. -/
  | invro (g : BitVec 4)
  /-- R136: Writes back dirty bytes of each lane's line and drops it. -/
  | cflush (a : BitVec 7) (g : BitVec 4)
  /-- R136: Drops each lane's line when it holds no dirty bytes. -/
  | cinv (a : BitVec 7) (g : BitVec 4)
  /-- R310: Atomic add at the home; old value lands in D. -/
  | atomAdd (d : BitVec 7) (a : BitVec 7) (w : BitVec 1) (g : BitVec 4)
  /-- R310: Atomic signed minimum; old value lands in D. -/
  | atomMinS (d : BitVec 7) (a : BitVec 7) (w : BitVec 1) (g : BitVec 4)
  /-- R310: Atomic signed maximum; old value lands in D. -/
  | atomMaxS (d : BitVec 7) (a : BitVec 7) (w : BitVec 1) (g : BitVec 4)
  /-- R310: Atomic unsigned minimum; old value lands in D. -/
  | atomMinU (d : BitVec 7) (a : BitVec 7) (w : BitVec 1) (g : BitVec 4)
  /-- R310: Atomic unsigned maximum; old value lands in D. -/
  | atomMaxU (d : BitVec 7) (a : BitVec 7) (w : BitVec 1) (g : BitVec 4)
  /-- R310: Atomic AND; old value lands in D. -/
  | atomAnd (d : BitVec 7) (a : BitVec 7) (w : BitVec 1) (g : BitVec 4)
  /-- R310: Atomic OR; old value lands in D. -/
  | atomOr (d : BitVec 7) (a : BitVec 7) (w : BitVec 1) (g : BitVec 4)
  /-- R310: Atomic XOR; old value lands in D. -/
  | atomXor (d : BitVec 7) (a : BitVec 7) (w : BitVec 1) (g : BitVec 4)
  /-- R310: Atomic exchange; old value lands in D. -/
  | atomExch (d : BitVec 7) (a : BitVec 7) (w : BitVec 1) (g : BitVec 4)
  /-- R311: Atomic compare and swap of 32 or 64 bits; old value lands in the low part of D. -/
  | atomcas (d : BitVec 7) (a : BitVec 7) (w : BitVec 1) (g : BitVec 4)
  /-- R366: Reduction adding a 32-bit operand, no return. -/
  | redAdd32 (d : BitVec 7) (a : BitVec 7) (g : BitVec 4)
  /-- R366: Reduction adding a 64-bit operand. -/
  | redAdd64 (d : BitVec 7) (a : BitVec 7) (g : BitVec 4)
  /-- R366: Reduction taking the unsigned 64-bit maximum. -/
  | redMaxU64 (d : BitVec 7) (a : BitVec 7) (g : BitVec 4)
  /-- R366: Reduction taking the signed 32-bit minimum. -/
  | redMinS32 (d : BitVec 7) (a : BitVec 7) (g : BitVec 4)
  /-- R366: Reduction taking the signed 32-bit maximum. -/
  | redMaxS32 (d : BitVec 7) (a : BitVec 7) (g : BitVec 4)
  /-- R366: Reduction ORing a 32-bit operand. -/
  | redOr32 (d : BitVec 7) (a : BitVec 7) (g : BitVec 4)
  /-- R366: Reduction adding FP32, each addition RNE, combining order undefined. -/
  | redFaddF32 (d : BitVec 7) (a : BitVec 7) (g : BitVec 4)
  /-- R366: Reduction adding an RZ value channel by channel. -/
  | redRzadd (d : BitVec 7) (a : BitVec 7) (g : BitVec 4)
  /-- R131: Waits until the lanes' earlier accesses are performed within the named scope. -/
  | fence (s : BitVec 3) (g : BitVec 4)
  /-- R161: Arrives at a hardware barrier of the named level and waits for its phase. -/
  | bar (l : BitVec 2) (n : BitVec 3)
  /-- R161: Arrives at a barrier phase without waiting for it. -/
  | bararr (l : BitVec 2) (n : BitVec 3)
  /-- R161: Waits for the phase of the group's last arrival at a barrier. -/
  | barwt (l : BitVec 2) (n : BitVec 3)
  /-- R161: Waits until the team's remote count reaches set size − 1 and subtracts it. -/
  | barwtRemote (n : BitVec 2)
  /-- R362: Releases at CLUSTER scope and increments a remote count on another core of the set. -/
  | rarrive (c : BitVec 2) (n : BitVec 2)
  /-- R141: Arms the group's monitor on a word and records its value. -/
  | monitor (a : BitVec 6) (g : BitVec 4)
  /-- R141: Waits until the monitored word changes or meets a mask, or pre-emption is pending. -/
  | mwait (d : BitVec 6) (g : BitVec 4)
  /-- R139: Seals the group's open copy batch and returns its number. -/
  | batseal (d : BitVec 6) (g : BitVec 4)
  /-- R139: Waits until every batch up to the named one is complete. -/
  | batwait (a : BitVec 6) (g : BitVec 4)
  /-- R141: Waits until the masked chunk bits of a scratchpad bitmap are set. -/
  | chwait (d : BitVec 6) (a : BitVec 6) (g : BitVec 4)
  /-- R333: Ends the participating lanes; retires the group when none is live. -/
  | exit (g : BitVec 4)
  /-- R369: Branches each participating lane to its v8. -/
  | ret (g : BitVec 4)
  /-- R324: Branches each participating lane to the code offset in vA. -/
  | brx (a : BitVec 7) (g : BitVec 4)
  /-- R326: Writes the return offset to v8 and branches to the offset in vA. -/
  | callx (a : BitVec 7) (g : BitVec 4)
  /-- R331: Holds lanes until the group's live lanes gather, then leaves as one path. -/
  | conv (g : BitVec 4)
  /-- R386: Gives up issue until the quarter's other ready groups issue or 16 cycles pass. -/
  | yield (g : BitVec 4)
  /-- R37: Safe point: waits here when a pre-emption request is pending. -/
  | safept (n : BitVec 7)
  /-- R222: Raises fault TRAP with detail n. -/
  | trap (n : BitVec 7) (g : BitVec 4)
  /-- R222: Halts the group and posts BREAK when DBG_CTL.BRK_EN is set. -/
  | brk (n : BitVec 7) (g : BitVec 4)
  /-- R37: Takes a posted role change if one is posted for the group. -/
  | roleOffer
  /-- R37: Changes the group to the named role, clearing registers and entering its entry. -/
  | role (r : BitVec 2)
  /-- R318: Starts a block copy described by a copy descriptor. -/
  | bcopy (a : BitVec 6) (g : BitVec 4)
  /-- R317: Multicasts a source to the same scratchpad offset of every team of the set. -/
  | bcast (a : BitVec 6) (g : BitVec 4)
  /-- R181: Issues the next copy of the team's static copy schedule. -/
  | stage (g : BitVec 4)
  /-- R74: Hands a tile multiply of K/ks k-steps to the matrix engine. -/
  | mxissue (d : BitVec 7) (a : BitVec 6) (n : BitVec 2) (g : BitVec 4)
  /-- R76: Opens a chain for the team. -/
  | mxchain (g : BitVec 4)
  /-- R76: Closes the team's open chain. -/
  | mxend (g : BitVec 4)
  /-- R82: Queues an epilogue program over a tile that writes the result to memory. -/
  | mxdrain (a : BitVec 6) (g : BitVec 4)
  /-- R77: Zeroes one accumulator tile in queue order. -/
  | mxzero (t : BitVec 4) (g : BitVec 4)
  /-- R78: Reads eight tile columns into eight vector registers, split-phase. -/
  | mxrd (d : BitVec 7) (c : BitVec 2) (t : BitVec 4) (g : BitVec 4)
  /-- R78: Writes eight vector registers into eight tile columns. -/
  | mxwr (d : BitVec 7) (c : BitVec 2) (t : BitVec 4) (g : BitVec 4)
  /-- R79: Waits until the team's earlier engine instructions complete. -/
  | mxwait (g : BitVec 4)
  /-- R37: Takes the team's baton, waiting in order if it is held. -/
  | btake
  /-- R37: Waits for acceptance of the group's engine work, then frees the baton. -/
  | bgive
  /-- R178: Puts one 128-byte entry into a team ring, or returns p = 0. -/
  | ringput (d : BitVec 7) (p : BitVec 3) (n : BitVec 3) (g : BitVec 4)
  /-- R178: Takes one entry from a team ring, or returns p = 0. -/
  | ringget (d : BitVec 7) (p : BitVec 3) (n : BitVec 3) (g : BitVec 4)
  /-- R148: Queues a launch record on the core's pending-launch queue. -/
  | launch (d : BitVec 6) (a : BitVec 6) (g : BitVec 4)
  /-- R148: Queues a pod-wide launch record. -/
  | launchp (d : BitVec 6) (a : BitVec 6) (g : BitVec 4)
  /-- R170: Registers a task record and readies it when its pending count is 0. -/
  | tspawn (d : BitVec 6) (a : BitVec 6) (g : BitVec 4)
  /-- R175: Waits on a future word, adopting its ready owner. -/
  | twait (p : BitVec 3) (a : BitVec 6) (g : BitVec 4)
  /-- R175: Waits until a lock word is free, adopting its holder task. -/
  | twaitLock (p : BitVec 3) (a : BitVec 6) (g : BitVec 4)
  /-- R148: Cancels a running grid of the address space, letting running teams finish. -/
  | cancel (a : BitVec 6) (g : BitVec 4)
  /-- R158: Cancels a grid and ends its running groups at their next wait point. -/
  | cancelKill (a : BitVec 6) (g : BitVec 4)
  /-- R187: Casts one ray per lane to the Spire units; status lands later in vD. -/
  | trace (d : BitVec 7) (a : BitVec 7) (g : BitVec 4)
  /-- R198: Returns a call-out verdict and ends the call-out lane. -/
  | callret (d : BitVec 7) (a : BitVec 7) (g : BitVec 4)
  /-- R200: Regroups the team's live lanes sorted by key into as few groups as they fill. -/
  | repack (d : BitVec 7) (a : BitVec 6)
  /-- R199: Atomically locks a treelet-table entry and returns its old STATE. -/
  | treelock (d : BitVec 6) (a : BitVec 6) (g : BitVec 4)
  /-- R199: Publishes a new treelet base and version and releases held rays. -/
  | treepub (d : BitVec 6) (a : BitVec 6) (g : BitVec 4)
  /-- R206: Bilinear texture fetch at one level through the Lantern unit. -/
  | lfetchBil (d : BitVec 7) (a : BitVec 7) (g : BitVec 4)
  /-- R206: Trilinear texture fetch through the Lantern unit. -/
  | lfetchTri (d : BitVec 7) (a : BitVec 7) (g : BitVec 4)
  /-- R208: Interpolates multi-level hash-grid features through the Lantern unit. -/
  | hgrid (d : BitVec 7) (a : BitVec 7) (g : BitVec 4)
  /-- R278: Reads a system register into a scalar; a TICKET read draws a ticket. -/
  | sysr (d : BitVec 6) (i : BitVec 7) (g : BitVec 4)
  /-- R278: Reads bits [31:0] of a system register into vD of each lane. -/
  | sysrV (d : BitVec 6) (i : BitVec 7) (g : BitVec 4)
  /-- R278: Writes sD to an RW system register, pending for the group. -/
  | sysw (d : BitVec 6) (i : BitVec 7) (g : BitVec 4)
  /-- R364: Reads pod time after the path's split-phase results have landed. -/
  | rdtime (d : BitVec 6) (g : BitVec 4)
  /-- R243: Queue command NOP, accepted and completed at once. -/
  | queueNop (q : Nat)
  /-- R243: Queue command that accepts a launch record as a grid. -/
  | dispatch (q : Nat)
  /-- R244: Queue command that launches one grid per named partition with commit or rollback. -/
  | dispatchGang (q : Nat)
  /-- R243: Queue command that stores or adds to a signal word after earlier commands. -/
  | signal (q : Nat)
  /-- R243: Queue command accepted when a signal word reaches a value. -/
  | wait (q : Nat)
  /-- R210: Queue command that classifies triangles, rasterises large ones and launches the software grid. -/
  | drawLarge (q : Nat)
  /-- R213: Queue command that bins visibility pixels by material and launches shading groups. -/
  | classify (q : Nat)
  /-- R243: Queue command FENCE: releases at POD scope after earlier commands complete. -/
  | queueFence (q : Nat)
  /-- R243: Queue command that writes pod time after earlier commands complete. -/
  | timestamp (q : Nat)
  /-- R242: A write to a queue's tail word makes the Turret test it and read pending entries. -/
  | tailWordUpdate (q : Nat) (value : Nat)
  /-- R245: A WAIT's timeout expires and the queue stops with WAIT_TIMEOUT. -/
  | waitTimeout (q : Nat)
  /-- R245: Turret unmaps the longest-waiting gang when every slot holds a waiting queue. -/
  | gangUnmap (part : Nat)
  /-- R236: Store of the system request ring's put count, which Campanile serves in order. -/
  | systemRequestPut (put : Nat)
  /-- R237: System request choosing whole or partitioned mode. -/
  | setMode
  /-- R237: System request making a queue eligible for a slot. -/
  | mapQueue
  /-- R237: System request taking a queue's slot away. -/
  | unmapQueue
  /-- R237: System request returning a FAULTED queue to RUNNING. -/
  | resetQueue
  /-- R224: System request to pre-empt a grid at its safe points. -/
  | preempt
  /-- R226: System request withdrawing a pending pre-emption. -/
  | withdraw
  /-- R227: System request readmitting a pre-empted grid. -/
  | resume
  /-- R98: System request dropping cached translations of a range across the partition. -/
  | shootdown
  /-- R237: System request writing an RW control register that has no behaviour of its own. -/
  | writeReg
  /-- R237: System request granting or refusing a presence event. -/
  | presence
  /-- R228: System request exchanging a partition's two contexts. -/
  | swap
  /-- R222: System request resuming a group halted by BRK. -/
  | releaseBreak
  /-- R246: System request installing a signed firmware image into a slot. -/
  | fwInstall
  /-- R248: System request writing a signed attestation report. -/
  | attest
  /-- R238: System request giving a partition context its park area and pools. -/
  | setPools
  /-- R247: System request writing ACCEPT once with a subset of FEATURES. -/
  | accept
  /-- R255: Setting VALID in FAB_GRP_CTL sends a join for a reduction or multicast group. -/
  | fabGrpJoin
  /-- R255: Clearing VALID in FAB_GRP_CTL ends the group for every member. -/
  | fabGrpLeave
  /-- R255: A join arrives at the switches; the group goes live when all members have joined. -/
  | joinReachesSwitch (part : Nat) (ctl : Nat)
  /-- R262: Setting FAB_DOMAIN.VALID fixes the part's domain number until reset. -/
  | fabDomainSet
  /-- R113: START written in MEM_REMAP_CTL begins a sweep, or is refused. -/
  | remapStart
  /-- R118: Write of MEM_CUPOLA_PIN reserving Cupola capacity, dropping released bytes. -/
  | cupolaPinWrite
  /-- R111: Write of a block family table byte, reinterpreting the block and clearing its compression metadata. -/
  | blockFamilyWrite
  /-- R246: Write of 1 to FW_STATUS.COMMIT commits the trial image. -/
  | fwCommit
  /-- R239: Write of an event ring's take count frees room for events held back. -/
  | eventTakeCount (ring : Nat) (take : Nat)
  /-- R256: Store to the GO word contributes the window's 256 bytes to the member's next round. -/
  | goStore (entry : Nat)
  /-- R258: A round completes and every destination and completion word is written. -/
  | roundDelivery (entry : Nat) (before : List Nat) (after : List Nat)
  /-- R259: TIMEOUT passes before every member contributes and the round is aborted. -/
  | reduceRoundTimeout (entry : Nat)
  /-- R250: A damaged flit is detected and resent in its place. -/
  | linkResend (port : Nat)
  /-- R253: No route carries a flit for 100 µs and the home part becomes unreachable. -/
  | homeUnreachable (part : Nat)
  /-- R153: A core able to admit a team takes the next ticket from its die counter. -/
  | teamDispatch (core : Nat) (grid : Nat)
  /-- R21: A core admits a team once it holds all the team's resources. -/
  | teamAdmit (core : Nat) (grid : Nat) (ticket : Nat)
  /-- R39: The scheduler parks a blocked group when another team waits for its slot. -/
  | groupPark (gid : Nat)
  /-- R149: A group waiting 2 µs for a pending-launch entry is parked. -/
  | parkAfterLaunchWait (gid : Nat)
  /-- R40: A parked group whose condition holds is restored into a free slot. -/
  | groupRestore (gid : Nat)
  /-- R40: A team whose last group retired frees its resources once engine work and batches finish. -/
  | teamRetire (team : Nat)
  /-- R145: A die dispatcher accepts a pending-launch entry, checks the record and creates the grid. -/
  | launchAccept (die : Nat)
  /-- R151: A named part receives a pod launch record, reserves and takes holds. -/
  | launchMulticast (launcher : Nat) (id : Nat) (asid : Nat) (root : Nat) (record : List Nat)
  /-- R151: A named part's READY reply reaches the launching part. -/
  | ready (id : Nat) (part : Nat)
  /-- R151: A named part's REFUSE reply reaches the launching part. -/
  | refuse (id : Nat) (part : Nat) (hold : Nat)
  /-- R151: A COMMIT message starts dispatch on a named part. -/
  | commit (id : Nat)
  /-- R151: A ROLLBACK message releases what a named part reserved. -/
  | rollback (id : Nat)
  /-- R151: 50 µs pass without every READY and the launch rolls back with status 4. -/
  | launchpTimeout (id : Nat)
  /-- R164: A victim dispatcher serves a STEAL by giving the upper half of its fullest counter. -/
  | steal (id : Nat) (thief : Nat)
  /-- R305: The thief receives a range or EMPTY and waiting TICKET reads proceed. -/
  | stealReply (id : Nat) (lo : Nat) (hi : Nat)
  /-- R158: A cancel arrives at a part, which stops dispatch and drops undispatched tickets. -/
  | cancelReachesPart (id : Nat) (kill : Nat)
  /-- R261: A barrier token arrives at a switch or part and its counts are combined. -/
  | barrierToken (id : Nat) (level : Nat) (n : Nat) (phase : Nat) (count : Nat) (times : List (Nat × Nat))
  /-- R160: A barrier phase completes when every member group has arrived or retired. -/
  | barrierPhaseComplete (level : Nat) (grid : Nat) (owner : Nat) (n : Nat)
  /-- R147: The grid's final STATUS is written once every team, task and ray has ended. -/
  | finalStatus (id : Nat)
  /-- R172: A core with a free slot takes the oldest highest-priority task from the ready pool. -/
  | taskDispatch (core : Nat)
  /-- R179: After a window of ring occupancy past a threshold the scheduler posts a role change. -/
  | rolePost (team : Nat) (gid : Nat)
  /-- R37: The baton becomes free and the longest-waiting BTAKE of the team takes it. -/
  | batonHandover (team : Nat)
  /-- R68: The matrix engine accepts a waiting instruction once its grant and queue room allow. -/
  | mxAccept (gid : Nat)
  /-- R249: The die power controller gives a grant to a waiting engine. -/
  | powerGrant (die : Nat)
  /-- R83: An engine idle for 2 µs gives its grant back. -/
  | powerGrantReturn (core : Nat)
  /-- R76: The engine commits one k-step sum to the accumulator in chain order. -/
  | mxKstepCommit (team : Nat)
  /-- R82: An accepted drain reads its tile in queue order, runs the epilogue and stores. -/
  | mxDrainExecute (team : Nat)
  /-- R140: A copy finishes a chunk and sets its chunk bit. -/
  | copyChunkWritten (copy : Nat) (chunk : Nat)
  /-- R29: A split-phase result arrives and lands, or raises a deferred fault. -/
  | loadDataLands (gid : Nat) (item : Nat) (data : Nat)
  /-- R141: A write to the monitored line meets the MWAIT condition and the wait returns. -/
  | mwaitReturn (gid : Nat)
  /-- R106: A pseudo-channel scheduler starts the request chosen by age, class and deadline. -/
  | memRequestStart (pc : Nat)
  /-- R106: A refresh or refresh-management command falls due and comes before every choice. -/
  | refreshDue (pc : Nat) (bank : Nat)
  /-- R120: An alert back-off for a bank arrives and refreshes are issued before requests. -/
  | alertBackoff (pc : Nat) (bank : Nat) (n : Nat)
  /-- R112: The remap engine moves one block to the target version and advances the pointer. -/
  | remapBlockMove (span : Nat)
  /-- R114: A family's row conflicts pass the threshold within a window. -/
  | remapThresholdPassed (span : Nat) (family : Nat)
  /-- R114: The window expires and family row-conflict counts restart at 0. -/
  | memRemapWindow (span : Nat)
  /-- R122: The epoch expires and every hotness counter of the I/O die is halved. -/
  | memHotEpoch (iodie : Nat)
  /-- R190: A ray message arrives at a Spire unit and joins its treelet queue, spilling if full. -/
  | rayMessageArrival (ray : Nat)
  /-- R191: A Spire unit chooses a treelet and takes up to 256 queued rays. -/
  | spireBatchStart (unit : Nat)
  /-- R192: A ray visits one node, testing children and leaf records. -/
  | nodeVisit (ray : Nat)
  /-- R195: A ray ends, writes its hit record, lands its status and frees its slot. -/
  | rayEnd (ray : Nat)
  /-- R197: 32 gathered call-outs are sent as a call-out group. -/
  | calloutGroupSend (stack : Nat)
  /-- R197: The oldest gathered call-out waits 2 µs and its group is sent. -/
  | calloutGatherTimeout (stack : Nat)
  /-- R197: A core takes a call-out group from the die's ready pool and starts it. -/
  | calloutGroupDispatch (core : Nat)
  /-- R201: Under pre-emption a ray parks at its end, call-out or STEP_BUDGET visits. -/
  | rayPark (ray : Nat)
  /-- R201: A kill reaches a ray, which ends with status ABORT. -/
  | rayAbort (ray : Nat)
  /-- R44: A group whose live lanes all stand at one site is taken and enters its save routine. -/
  | groupTakenAtSite (gid : Nat)
  /-- R231: A soft error is corrected, or an uncorrectable one poisons its unit. -/
  | eccError (place : Nat) (unit : Nat) (fatal : Nat)
  /-- R234: A firmware core's watchdog fires and the core restarts from the running slot. -/
  | watchdogFire (core : Nat)
  /-- R246: A trial image fails to commit within 30 s and the part resets from the other slot. -/
  | fwTrialTimeout
  /-- R4: Module power-on reset sets every register to its reset value and initialises ECC. -/
  | moduleReset
  /-- R252: A load, store, atomic or reduction from another part or the host arrives on a Dexlink port and is served at this home part. -/
  | fabricIngressRequest (port : Nat) (op : Nat) (addr : Nat) (size : Nat) (data : Nat) (cls : Nat) (stamp : Nat)
  /-- R131: An earlier store, reduction or write-back is performed and acknowledged at its home, releasing lanes waiting at FENCE. -/
  | acknowledgedAtHome (gid : Nat) (n : Nat)
  /-- R251: A Dexlink link goes down or is taken out of service, and traffic reroutes while keeping its order. -/
  | linkTakenOutOfService (port : Nat)
  /-- R263: A Dexlink port's link comes up, so that the port shows in the identity block and a home part or host adapter can be reached again. -/
  | linkUp (port : Nat)
deriving DecidableEq, Repr

end Sys2Proof
end

