-- ==== Sys2Proof/WellFormed.lean ====
section
/-! DEFINITION. Well-formed instructions: the field values that 15 R267, R271, R272, R276 to R278, R281 and 08 R161 allow.
An encoded instruction that is not well formed raises ILLEGAL_INSTRUCTION (15 R281 step 2). -/
namespace Sys2Proof

/-- A guard field is legal unless it is 0b1000, the guard that is never true (15 R267). -/
def guardOk (g : BitVec 4) : Bool := g != 8

/-- The field values an instruction may hold. A step without an encoding has no fields to check. -/
def Instr.wf : Instr → Bool
  | .mov16 d b => !(d == 0 && b == 0)
  | .add16 _ _ => true
  | .sub16 _ _ => true
  | .mul16 _ _ => true
  | .and16 _ _ => true
  | .or16 _ _ => true
  | .xor16 _ _ => true
  | .shl16 _ _ => true
  | .shr16 _ _ => true
  | .min16 _ _ => true
  | .max16 _ _ => true
  | .fadd16 _ _ => true
  | .fsub16 _ _ => true
  | .fmul16 _ _ => true
  | .fmin16 _ _ => true
  | .fmax16 _ _ => true
  | .nop => true
  | .add _ _ _ g => guardOk g
  | .sub _ _ _ g => guardOk g
  | .mul _ _ _ g => guardOk g
  | .mulh _ _ _ g => guardOk g
  | .mad _ _ _ g => guardOk g
  | .min _ _ _ g => guardOk g
  | .max _ _ _ g => guardOk g
  | .and _ _ _ g => guardOk g
  | .or _ _ _ g => guardOk g
  | .xor _ _ _ g => guardOk g
  | .shl _ _ _ g => guardOk g
  | .shr _ _ _ g => guardOk g
  | .sar _ _ _ g => guardOk g
  | .sel _ _ _ g => guardOk g
  | .shfl _ _ _ g => guardOk g
  | .addi _ _ _ g => guardOk g
  | .andi _ _ _ g => guardOk g
  | .ori _ _ _ g => guardOk g
  | .xori _ _ _ g => guardOk g
  | .shli _ _ _ g => guardOk g
  | .shri _ _ _ g => guardOk g
  | .sari _ _ _ g => guardOk g
  | .fadd _ _ _ g => guardOk g
  | .fsub _ _ _ g => guardOk g
  | .fmul _ _ _ g => guardOk g
  | .ffma _ _ _ g => guardOk g
  | .fmin _ _ _ g => guardOk g
  | .fmax _ _ _ g => guardOk g
  | .fdiv _ _ _ g => guardOk g
  | .cvts _ _ _ g => guardOk g
  | .hadd2 _ _ _ g => guardOk g
  | .hmul2 _ _ _ g => guardOk g
  | .hfma2 _ _ _ g => guardOk g
  | .cmp _ _ _ c g => guardOk g && decide (c.toNat ≤ 9)
  | .fcmp _ _ _ c g => guardOk g && c != 7 && c != 15
  | .movi _ _ => true
  | .movhi _ _ => true
  | .lea _ _ _ g => guardOk g
  | .ldU8 _ _ _ g => guardOk g
  | .ldS8 _ _ _ g => guardOk g
  | .ldU16 _ _ _ g => guardOk g
  | .ldS16 _ _ _ g => guardOk g
  | .ld32 _ _ _ g => guardOk g
  | .ld64 _ _ _ g => guardOk g
  | .ld128 _ _ _ g => guardOk g
  | .ldro32 _ _ _ g => guardOk g
  | .ldro128 _ _ _ g => guardOk g
  | .st8 _ _ _ g => guardOk g
  | .st16 _ _ _ g => guardOk g
  | .st32 _ _ _ g => guardOk g
  | .st64 _ _ _ g => guardOk g
  | .st128 _ _ _ g => guardOk g
  | .bra _ g => guardOk g
  | .call _ g => guardOk g
  | .sadd _ _ _ => true
  | .ssub _ _ _ => true
  | .smul _ _ _ => true
  | .sand _ _ _ => true
  | .sor _ _ _ => true
  | .sxor _ _ _ => true
  | .sshl _ _ _ => true
  | .sshr _ _ _ => true
  | .ssar _ _ _ => true
  | .smin _ _ _ => true
  | .smax _ _ _ => true
  | .smov _ _ => true
  | .spset _ _ => true
  | .slt _ _ _ => true
  | .saddImm _ _ _ => true
  | .ssubImm _ _ _ => true
  | .smulImm _ _ _ => true
  | .sandImm _ _ _ => true
  | .sorImm _ _ _ => true
  | .sxorImm _ _ _ => true
  | .sshlImm _ _ _ => true
  | .sshrImm _ _ _ => true
  | .ssarImm _ _ _ => true
  | .sminImm _ _ _ => true
  | .smaxImm _ _ _ => true
  | .smovImm _ _ => true
  | .sltImm _ _ _ => true
  | .sld _ _ _ => true
  | .sst _ _ _ => true
  | .smovi _ _ => true
  | .smovhi _ _ => true
  | .mov _ _ g => guardOk g
  | .not _ _ g => guardOk g
  | .abs _ _ g => guardOk g
  | .popc _ _ g => guardOk g
  | .clz _ _ g => guardOk g
  | .brev _ _ g => guardOk g
  | .movs _ _ g => guardOk g
  | .movsHi _ _ g => guardOk g
  | .rdlane _ _ g => guardOk g
  | .fabs _ _ g => guardOk g
  | .fneg _ _ g => guardOk g
  | .frcp _ _ g => guardOk g
  | .frsq _ _ g => guardOk g
  | .fsqrt _ _ g => guardOk g
  | .fexp2 _ _ g => guardOk g
  | .flog2 _ _ g => guardOk g
  | .fsin _ _ g => guardOk g
  | .fcos _ _ g => guardOk g
  | .frndRne _ _ g => guardOk g
  | .frndRtz _ _ g => guardOk g
  | .frndRup _ _ g => guardOk g
  | .frndRdn _ _ g => guardOk g
  | .cvt _ _ _ g => guardOk g
  | .rzcvt _ _ g => guardOk g
  | .rzadd _ _ g => guardOk g
  | .vsome _ _ g => guardOk g
  | .vevery _ _ g => guardOk g
  | .badge _ _ g => guardOk g
  | .mates _ _ g => guardOk g
  | .refoldAdd _ _ g => guardOk g
  | .refoldMin _ _ g => guardOk g
  | .refoldMax _ _ g => guardOk g
  | .refoldFadd _ _ g => guardOk g
  | .refoldMinu _ _ g => guardOk g
  | .refoldMaxu _ _ g => guardOk g
  | .ppack _ g => guardOk g
  | .punpack _ g => guardOk g
  | .pand _ _ g => guardOk g
  | .por _ _ g => guardOk g
  | .pxor _ _ g => guardOk g
  | .pnot _ _ g => guardOk g
  | .sptest _ _ _ g => guardOk g
  | .spcastToprv _ _ g => guardOk g
  | .spcastToscr _ _ g => guardOk g
  | .spcastToclu _ _ g => guardOk g
  | .spcastPrvgen _ _ g => guardOk g
  | .spcastScrgen _ _ g => guardOk g
  | .spcastClugen _ _ g => guardOk g
  | .lda _ _ g => guardOk g
  | .pref _ g => guardOk g
  | .invro g => guardOk g
  | .cflush _ g => guardOk g
  | .cinv _ g => guardOk g
  | .atomAdd _ _ _ g => guardOk g
  | .atomMinS _ _ _ g => guardOk g
  | .atomMaxS _ _ _ g => guardOk g
  | .atomMinU _ _ _ g => guardOk g
  | .atomMaxU _ _ _ g => guardOk g
  | .atomAnd _ _ _ g => guardOk g
  | .atomOr _ _ _ g => guardOk g
  | .atomXor _ _ _ g => guardOk g
  | .atomExch _ _ _ g => guardOk g
  | .atomcas _ _ _ g => guardOk g
  | .redAdd32 _ _ g => guardOk g
  | .redAdd64 _ _ g => guardOk g
  | .redMaxU64 _ _ g => guardOk g
  | .redMinS32 _ _ g => guardOk g
  | .redMaxS32 _ _ g => guardOk g
  | .redOr32 _ _ g => guardOk g
  | .redFaddF32 _ _ g => guardOk g
  | .redRzadd _ _ g => guardOk g
  | .fence s g => guardOk g && s != 7
  | .bar l n => (l == 0 || decide (n.toNat ≤ 3))
  | .bararr l n => (l == 0 || decide (n.toNat ≤ 3))
  | .barwt l n => (l == 0 || decide (n.toNat ≤ 3))
  | .barwtRemote _ => true
  | .rarrive _ _ => true
  | .monitor _ g => guardOk g
  | .mwait _ g => guardOk g
  | .batseal _ g => guardOk g
  | .batwait _ g => guardOk g
  | .chwait _ _ g => guardOk g
  | .exit g => guardOk g
  | .ret g => guardOk g
  | .brx _ g => guardOk g
  | .callx _ g => guardOk g
  | .conv g => guardOk g
  | .yield g => guardOk g
  | .safept _ => true
  | .trap _ g => guardOk g
  | .brk _ g => guardOk g
  | .roleOffer => true
  | .role r => r != 0
  | .bcopy _ g => guardOk g
  | .bcast _ g => guardOk g
  | .stage g => guardOk g
  | .mxissue _ _ _ g => guardOk g
  | .mxchain g => guardOk g
  | .mxend g => guardOk g
  | .mxdrain _ g => guardOk g
  | .mxzero _ g => guardOk g
  | .mxrd _ _ _ g => guardOk g
  | .mxwr _ _ _ g => guardOk g
  | .mxwait g => guardOk g
  | .btake => true
  | .bgive => true
  | .ringput _ _ _ g => guardOk g
  | .ringget _ _ _ g => guardOk g
  | .launch _ _ g => guardOk g
  | .launchp _ _ g => guardOk g
  | .tspawn _ _ g => guardOk g
  | .twait _ _ g => guardOk g
  | .twaitLock _ _ g => guardOk g
  | .cancel _ g => guardOk g
  | .cancelKill _ g => guardOk g
  | .trace _ _ g => guardOk g
  | .callret _ _ g => guardOk g
  | .repack _ _ => true
  | .treelock _ _ g => guardOk g
  | .treepub _ _ g => guardOk g
  | .lfetchBil _ _ g => guardOk g
  | .lfetchTri _ _ g => guardOk g
  | .hgrid _ _ g => guardOk g
  | .sysr _ i g => guardOk g && decide (i.toNat ≤ 0x13) && i != 0
  | .sysrV _ i g => guardOk g && decide (i.toNat ≤ 0x12)
  | .sysw _ i g => guardOk g && (i == 0x0F || i == 0x12)
  | .rdtime _ g => guardOk g
  | .queueNop _ => true
  | .dispatch _ => true
  | .dispatchGang _ => true
  | .signal _ => true
  | .wait _ => true
  | .drawLarge _ => true
  | .classify _ => true
  | .queueFence _ => true
  | .timestamp _ => true
  | .tailWordUpdate _ _ => true
  | .waitTimeout _ => true
  | .gangUnmap _ => true
  | .systemRequestPut _ => true
  | .setMode => true
  | .mapQueue => true
  | .unmapQueue => true
  | .resetQueue => true
  | .preempt => true
  | .withdraw => true
  | .resume => true
  | .shootdown => true
  | .writeReg => true
  | .presence => true
  | .swap => true
  | .releaseBreak => true
  | .fwInstall => true
  | .attest => true
  | .setPools => true
  | .accept => true
  | .fabGrpJoin => true
  | .fabGrpLeave => true
  | .joinReachesSwitch _ _ => true
  | .fabDomainSet => true
  | .remapStart => true
  | .cupolaPinWrite => true
  | .blockFamilyWrite => true
  | .fwCommit => true
  | .eventTakeCount _ _ => true
  | .goStore _ => true
  | .roundDelivery _ _ _ => true
  | .reduceRoundTimeout _ => true
  | .linkResend _ => true
  | .homeUnreachable _ => true
  | .teamDispatch _ _ => true
  | .teamAdmit _ _ _ => true
  | .groupPark _ => true
  | .parkAfterLaunchWait _ => true
  | .groupRestore _ => true
  | .teamRetire _ => true
  | .launchAccept _ => true
  | .launchMulticast _ _ _ _ _ => true
  | .ready _ _ => true
  | .refuse _ _ _ => true
  | .commit _ => true
  | .rollback _ => true
  | .launchpTimeout _ => true
  | .steal _ _ => true
  | .stealReply _ _ _ => true
  | .cancelReachesPart _ _ => true
  | .barrierToken _ _ _ _ _ _ => true
  | .barrierPhaseComplete _ _ _ _ => true
  | .finalStatus _ => true
  | .taskDispatch _ => true
  | .rolePost _ _ => true
  | .batonHandover _ => true
  | .mxAccept _ => true
  | .powerGrant _ => true
  | .powerGrantReturn _ => true
  | .mxKstepCommit _ => true
  | .mxDrainExecute _ => true
  | .copyChunkWritten _ _ => true
  | .loadDataLands _ _ _ => true
  | .mwaitReturn _ => true
  | .memRequestStart _ => true
  | .refreshDue _ _ => true
  | .alertBackoff _ _ _ => true
  | .remapBlockMove _ => true
  | .remapThresholdPassed _ _ => true
  | .memRemapWindow _ => true
  | .memHotEpoch _ => true
  | .rayMessageArrival _ => true
  | .spireBatchStart _ => true
  | .nodeVisit _ => true
  | .rayEnd _ => true
  | .calloutGroupSend _ => true
  | .calloutGatherTimeout _ => true
  | .calloutGroupDispatch _ => true
  | .rayPark _ => true
  | .rayAbort _ => true
  | .groupTakenAtSite _ => true
  | .eccError _ _ _ => true
  | .watchdogFire _ => true
  | .fwTrialTimeout => true
  | .moduleReset => true
  | .fabricIngressRequest _ _ _ _ _ _ _ => true
  | .acknowledgedAtHome _ _ => true
  | .linkTakenOutOfService _ => true
  | .linkUp _ => true

end Sys2Proof
end

