-- ==== Sys2Proof/Decode.lean ====
section
/-! DEFINITION. Decoding and encoding, from the tables of 15 R266 to R278 and the rules they cite. `decode` is total on any
bytes: it gives an instruction and the bytes after it, or says by name why there is none. -/
namespace Sys2Proof

/-- Why bytes are no instruction: too few of them, or a pattern that 15 R281 makes ILLEGAL_INSTRUCTION (with the word). -/
inductive Reject where
  | truncated
  | illegal (word : Nat)
deriving DecidableEq, Repr

/-- Bits [hi:lo] of a word. -/
def fld (w hi lo : Nat) : Nat := w / 2 ^ lo % 2 ^ (hi + 1 - lo)

/-- Bits [hi:lo] of a word, as a field of an instruction. -/
def bv (w hi lo : Nat) {n : Nat} : BitVec n := BitVec.ofNat n (fld w hi lo)

/-- An instruction whose fixed bits are `ok` and whose fields are well formed; otherwise none. -/
def leaf (ok : Bool) (i : Instr) : Option Instr := if ok && i.wf then some i else none

/-- The 16-bit form (15 R266). Every halfword with bit 0 clear is an instruction; 0x0000 is NOP. -/
def decode16 (w : Nat) : Option Instr :=
  if w == 0 then some .nop else
  match fld w 4 1 with
  | 0 => some (.mov16 (bv w 10 5) (bv w 15 11))
  | 1 => some (.add16 (bv w 10 5) (bv w 15 11))
  | 2 => some (.sub16 (bv w 10 5) (bv w 15 11))
  | 3 => some (.mul16 (bv w 10 5) (bv w 15 11))
  | 4 => some (.and16 (bv w 10 5) (bv w 15 11))
  | 5 => some (.or16 (bv w 10 5) (bv w 15 11))
  | 6 => some (.xor16 (bv w 10 5) (bv w 15 11))
  | 7 => some (.shl16 (bv w 10 5) (bv w 15 11))
  | 8 => some (.shr16 (bv w 10 5) (bv w 15 11))
  | 9 => some (.min16 (bv w 10 5) (bv w 15 11))
  | 10 => some (.max16 (bv w 10 5) (bv w 15 11))
  | 11 => some (.fadd16 (bv w 10 5) (bv w 15 11))
  | 12 => some (.fsub16 (bv w 10 5) (bv w 15 11))
  | 13 => some (.fmul16 (bv w 10 5) (bv w 15 11))
  | 14 => some (.fmin16 (bv w 10 5) (bv w 15 11))
  | 15 => some (.fmax16 (bv w 10 5) (bv w 15 11))
  | _ => none

/-- Scalar operations (15 R273), by SOP. -/
def decodeFs (w : Nat) : Option Instr :=
  match fld w 10 7 with
  | 0x00 => leaf (fld w 31 29 == 0) (.sadd (bv w 16 11) (bv w 22 17) (bv w 28 23))
  | 0x01 => leaf (fld w 31 29 == 0) (.ssub (bv w 16 11) (bv w 22 17) (bv w 28 23))
  | 0x02 => leaf (fld w 31 29 == 0) (.smul (bv w 16 11) (bv w 22 17) (bv w 28 23))
  | 0x03 => leaf (fld w 31 29 == 0) (.sand (bv w 16 11) (bv w 22 17) (bv w 28 23))
  | 0x04 => leaf (fld w 31 29 == 0) (.sor (bv w 16 11) (bv w 22 17) (bv w 28 23))
  | 0x05 => leaf (fld w 31 29 == 0) (.sxor (bv w 16 11) (bv w 22 17) (bv w 28 23))
  | 0x06 => leaf (fld w 31 29 == 0) (.sshl (bv w 16 11) (bv w 22 17) (bv w 28 23))
  | 0x07 => leaf (fld w 31 29 == 0) (.sshr (bv w 16 11) (bv w 22 17) (bv w 28 23))
  | 0x08 => leaf (fld w 31 29 == 0) (.ssar (bv w 16 11) (bv w 22 17) (bv w 28 23))
  | 0x09 => leaf (fld w 31 29 == 0) (.smin (bv w 16 11) (bv w 22 17) (bv w 28 23))
  | 0x0A => leaf (fld w 31 29 == 0) (.smax (bv w 16 11) (bv w 22 17) (bv w 28 23))
  | 0x0B => leaf (fld w 31 23 == 0) (.smov (bv w 16 11) (bv w 22 17))
  | 0x0C => leaf (fld w 31 26 == 0 && fld w 16 11 == 0) (.spset (bv w 25 23) (bv w 22 17))
  | 0x0D => leaf (fld w 31 29 == 0) (.slt (bv w 16 11) (bv w 22 17) (bv w 28 23))
  | _ => none

/-- Scalar operations with immediate (15 R273), by SOP. -/
def decodeFsi (w : Nat) : Option Instr :=
  match fld w 10 7 with
  | 0x00 => leaf (true) (.saddImm (bv w 16 11) (bv w 22 17) (bv w 31 23))
  | 0x01 => leaf (true) (.ssubImm (bv w 16 11) (bv w 22 17) (bv w 31 23))
  | 0x02 => leaf (true) (.smulImm (bv w 16 11) (bv w 22 17) (bv w 31 23))
  | 0x03 => leaf (true) (.sandImm (bv w 16 11) (bv w 22 17) (bv w 31 23))
  | 0x04 => leaf (true) (.sorImm (bv w 16 11) (bv w 22 17) (bv w 31 23))
  | 0x05 => leaf (true) (.sxorImm (bv w 16 11) (bv w 22 17) (bv w 31 23))
  | 0x06 => leaf (fld w 31 29 == 0) (.sshlImm (bv w 16 11) (bv w 22 17) (bv w 28 23))
  | 0x07 => leaf (fld w 31 29 == 0) (.sshrImm (bv w 16 11) (bv w 22 17) (bv w 28 23))
  | 0x08 => leaf (fld w 31 29 == 0) (.ssarImm (bv w 16 11) (bv w 22 17) (bv w 28 23))
  | 0x09 => leaf (true) (.sminImm (bv w 16 11) (bv w 22 17) (bv w 31 23))
  | 0x0A => leaf (true) (.smaxImm (bv w 16 11) (bv w 22 17) (bv w 31 23))
  | 0x0B => leaf (fld w 22 17 == 0) (.smovImm (bv w 16 11) (bv w 31 23))
  | 0x0D => leaf (true) (.sltImm (bv w 16 11) (bv w 22 17) (bv w 31 23))
  | 0x0E => leaf (true) (.sld (bv w 16 11) (bv w 22 17) (bv w 31 23))
  | 0x0F => leaf (true) (.sst (bv w 16 11) (bv w 22 17) (bv w 31 23))
  | _ => none

/-- FX class 0x3C (15 R274), by SUB. -/
def decodeFx3C (w : Nat) : Option Instr :=
  match fld w 31 25 with
  | 0x00 => leaf (true) (.mov (bv w 17 11) (bv w 24 18) (bv w 10 7))
  | 0x01 => leaf (true) (.not (bv w 17 11) (bv w 24 18) (bv w 10 7))
  | 0x02 => leaf (true) (.abs (bv w 17 11) (bv w 24 18) (bv w 10 7))
  | 0x03 => leaf (true) (.popc (bv w 17 11) (bv w 24 18) (bv w 10 7))
  | 0x04 => leaf (true) (.clz (bv w 17 11) (bv w 24 18) (bv w 10 7))
  | 0x05 => leaf (true) (.brev (bv w 17 11) (bv w 24 18) (bv w 10 7))
  | 0x06 => leaf (fld w 24 24 == 0) (.movs (bv w 17 11) (bv w 23 18) (bv w 10 7))
  | 0x07 => leaf (fld w 24 24 == 0) (.movsHi (bv w 17 11) (bv w 23 18) (bv w 10 7))
  | 0x08 => leaf (true) (.rdlane (bv w 17 11) (bv w 24 18) (bv w 10 7))
  | 0x09 => leaf (true) (.fabs (bv w 17 11) (bv w 24 18) (bv w 10 7))
  | 0x0A => leaf (true) (.fneg (bv w 17 11) (bv w 24 18) (bv w 10 7))
  | 0x0B => leaf (true) (.frcp (bv w 17 11) (bv w 24 18) (bv w 10 7))
  | 0x0C => leaf (true) (.frsq (bv w 17 11) (bv w 24 18) (bv w 10 7))
  | 0x0D => leaf (true) (.fsqrt (bv w 17 11) (bv w 24 18) (bv w 10 7))
  | 0x0E => leaf (true) (.fexp2 (bv w 17 11) (bv w 24 18) (bv w 10 7))
  | 0x0F => leaf (true) (.flog2 (bv w 17 11) (bv w 24 18) (bv w 10 7))
  | 0x10 => leaf (true) (.fsin (bv w 17 11) (bv w 24 18) (bv w 10 7))
  | 0x11 => leaf (true) (.fcos (bv w 17 11) (bv w 24 18) (bv w 10 7))
  | 0x12 => leaf (true) (.frndRne (bv w 17 11) (bv w 24 18) (bv w 10 7))
  | 0x13 => leaf (true) (.frndRtz (bv w 17 11) (bv w 24 18) (bv w 10 7))
  | 0x14 => leaf (true) (.frndRup (bv w 17 11) (bv w 24 18) (bv w 10 7))
  | 0x15 => leaf (true) (.frndRdn (bv w 17 11) (bv w 24 18) (bv w 10 7))
  | 0x20 => leaf (true) (.cvt (bv w 17 11) (bv w 24 18) (bv w 28 25) (bv w 10 7))
  | 0x21 => leaf (true) (.cvt (bv w 17 11) (bv w 24 18) (bv w 28 25) (bv w 10 7))
  | 0x22 => leaf (true) (.cvt (bv w 17 11) (bv w 24 18) (bv w 28 25) (bv w 10 7))
  | 0x23 => leaf (true) (.cvt (bv w 17 11) (bv w 24 18) (bv w 28 25) (bv w 10 7))
  | 0x24 => leaf (true) (.cvt (bv w 17 11) (bv w 24 18) (bv w 28 25) (bv w 10 7))
  | 0x25 => leaf (true) (.cvt (bv w 17 11) (bv w 24 18) (bv w 28 25) (bv w 10 7))
  | 0x26 => leaf (true) (.cvt (bv w 17 11) (bv w 24 18) (bv w 28 25) (bv w 10 7))
  | 0x27 => leaf (true) (.cvt (bv w 17 11) (bv w 24 18) (bv w 28 25) (bv w 10 7))
  | 0x28 => leaf (true) (.cvt (bv w 17 11) (bv w 24 18) (bv w 28 25) (bv w 10 7))
  | 0x29 => leaf (true) (.cvt (bv w 17 11) (bv w 24 18) (bv w 28 25) (bv w 10 7))
  | 0x2A => leaf (true) (.cvt (bv w 17 11) (bv w 24 18) (bv w 28 25) (bv w 10 7))
  | 0x2B => leaf (true) (.cvt (bv w 17 11) (bv w 24 18) (bv w 28 25) (bv w 10 7))
  | 0x2C => leaf (true) (.cvt (bv w 17 11) (bv w 24 18) (bv w 28 25) (bv w 10 7))
  | 0x2D => leaf (true) (.cvt (bv w 17 11) (bv w 24 18) (bv w 28 25) (bv w 10 7))
  | 0x2E => leaf (true) (.cvt (bv w 17 11) (bv w 24 18) (bv w 28 25) (bv w 10 7))
  | 0x2F => leaf (true) (.cvt (bv w 17 11) (bv w 24 18) (bv w 28 25) (bv w 10 7))
  | 0x30 => leaf (true) (.rzcvt (bv w 17 11) (bv w 24 18) (bv w 10 7))
  | 0x31 => leaf (true) (.rzadd (bv w 17 11) (bv w 24 18) (bv w 10 7))
  | _ => none

/-- FX class 0x3D (15 R275), by SUB. -/
def decodeFx3D (w : Nat) : Option Instr :=
  match fld w 31 25 with
  | 0x00 => leaf (fld w 24 21 == 0 && fld w 17 14 == 0) (.vsome (bv w 13 11) (bv w 20 18) (bv w 10 7))
  | 0x01 => leaf (fld w 24 21 == 0 && fld w 17 14 == 0) (.vevery (bv w 13 11) (bv w 20 18) (bv w 10 7))
  | 0x02 => leaf (fld w 24 21 == 0 && fld w 17 17 == 0) (.badge (bv w 16 11) (bv w 20 18) (bv w 10 7))
  | 0x03 => leaf (true) (.mates (bv w 17 11) (bv w 24 18) (bv w 10 7))
  | 0x04 => leaf (fld w 17 17 == 0) (.refoldAdd (bv w 16 11) (bv w 24 18) (bv w 10 7))
  | 0x05 => leaf (fld w 17 17 == 0) (.refoldMin (bv w 16 11) (bv w 24 18) (bv w 10 7))
  | 0x06 => leaf (fld w 17 17 == 0) (.refoldMax (bv w 16 11) (bv w 24 18) (bv w 10 7))
  | 0x07 => leaf (fld w 17 17 == 0) (.refoldFadd (bv w 16 11) (bv w 24 18) (bv w 10 7))
  | 0x08 => leaf (fld w 24 18 == 0) (.ppack (bv w 17 11) (bv w 10 7))
  | 0x09 => leaf (fld w 17 11 == 0) (.punpack (bv w 24 18) (bv w 10 7))
  | 0x0A => leaf (fld w 24 21 == 0 && fld w 17 14 == 0) (.pand (bv w 13 11) (bv w 20 18) (bv w 10 7))
  | 0x0B => leaf (fld w 24 21 == 0 && fld w 17 14 == 0) (.por (bv w 13 11) (bv w 20 18) (bv w 10 7))
  | 0x0C => leaf (fld w 24 21 == 0 && fld w 17 14 == 0) (.pxor (bv w 13 11) (bv w 20 18) (bv w 10 7))
  | 0x0D => leaf (fld w 24 21 == 0 && fld w 17 14 == 0) (.pnot (bv w 13 11) (bv w 20 18) (bv w 10 7))
  | 0x0E => leaf (fld w 17 17 == 0) (.refoldMinu (bv w 16 11) (bv w 24 18) (bv w 10 7))
  | 0x0F => leaf (fld w 17 17 == 0) (.refoldMaxu (bv w 16 11) (bv w 24 18) (bv w 10 7))
  | 0x10 => leaf (fld w 17 14 == 0) (.sptest (bv w 13 11) (bv w 24 18) (bv w 26 25) (bv w 10 7))
  | 0x11 => leaf (fld w 17 14 == 0) (.sptest (bv w 13 11) (bv w 24 18) (bv w 26 25) (bv w 10 7))
  | 0x12 => leaf (fld w 17 14 == 0) (.sptest (bv w 13 11) (bv w 24 18) (bv w 26 25) (bv w 10 7))
  | 0x13 => leaf (fld w 17 14 == 0) (.sptest (bv w 13 11) (bv w 24 18) (bv w 26 25) (bv w 10 7))
  | 0x14 => leaf (true) (.spcastToprv (bv w 17 11) (bv w 24 18) (bv w 10 7))
  | 0x15 => leaf (true) (.spcastToscr (bv w 17 11) (bv w 24 18) (bv w 10 7))
  | 0x16 => leaf (true) (.spcastToclu (bv w 17 11) (bv w 24 18) (bv w 10 7))
  | 0x17 => leaf (true) (.spcastPrvgen (bv w 17 11) (bv w 24 18) (bv w 10 7))
  | 0x18 => leaf (true) (.spcastScrgen (bv w 17 11) (bv w 24 18) (bv w 10 7))
  | 0x19 => leaf (true) (.spcastClugen (bv w 17 11) (bv w 24 18) (bv w 10 7))
  | 0x1A => leaf (true) (.lda (bv w 17 11) (bv w 24 18) (bv w 10 7))
  | 0x1B => leaf (fld w 17 11 == 0) (.pref (bv w 24 18) (bv w 10 7))
  | 0x1C => leaf (fld w 24 11 == 0) (.invro (bv w 10 7))
  | 0x1D => leaf (fld w 17 11 == 0) (.cflush (bv w 24 18) (bv w 10 7))
  | 0x1E => leaf (fld w 17 11 == 0) (.cinv (bv w 24 18) (bv w 10 7))
  | 0x20 => leaf (true) (.atomAdd (bv w 17 11) (bv w 24 18) (bv w 25 25) (bv w 10 7))
  | 0x21 => leaf (true) (.atomAdd (bv w 17 11) (bv w 24 18) (bv w 25 25) (bv w 10 7))
  | 0x22 => leaf (true) (.atomMinS (bv w 17 11) (bv w 24 18) (bv w 25 25) (bv w 10 7))
  | 0x23 => leaf (true) (.atomMinS (bv w 17 11) (bv w 24 18) (bv w 25 25) (bv w 10 7))
  | 0x24 => leaf (true) (.atomMaxS (bv w 17 11) (bv w 24 18) (bv w 25 25) (bv w 10 7))
  | 0x25 => leaf (true) (.atomMaxS (bv w 17 11) (bv w 24 18) (bv w 25 25) (bv w 10 7))
  | 0x26 => leaf (true) (.atomMinU (bv w 17 11) (bv w 24 18) (bv w 25 25) (bv w 10 7))
  | 0x27 => leaf (true) (.atomMinU (bv w 17 11) (bv w 24 18) (bv w 25 25) (bv w 10 7))
  | 0x28 => leaf (true) (.atomMaxU (bv w 17 11) (bv w 24 18) (bv w 25 25) (bv w 10 7))
  | 0x29 => leaf (true) (.atomMaxU (bv w 17 11) (bv w 24 18) (bv w 25 25) (bv w 10 7))
  | 0x2A => leaf (true) (.atomAnd (bv w 17 11) (bv w 24 18) (bv w 25 25) (bv w 10 7))
  | 0x2B => leaf (true) (.atomAnd (bv w 17 11) (bv w 24 18) (bv w 25 25) (bv w 10 7))
  | 0x2C => leaf (true) (.atomOr (bv w 17 11) (bv w 24 18) (bv w 25 25) (bv w 10 7))
  | 0x2D => leaf (true) (.atomOr (bv w 17 11) (bv w 24 18) (bv w 25 25) (bv w 10 7))
  | 0x2E => leaf (true) (.atomXor (bv w 17 11) (bv w 24 18) (bv w 25 25) (bv w 10 7))
  | 0x2F => leaf (true) (.atomXor (bv w 17 11) (bv w 24 18) (bv w 25 25) (bv w 10 7))
  | 0x30 => leaf (true) (.atomExch (bv w 17 11) (bv w 24 18) (bv w 25 25) (bv w 10 7))
  | 0x31 => leaf (true) (.atomExch (bv w 17 11) (bv w 24 18) (bv w 25 25) (bv w 10 7))
  | 0x32 => leaf (true) (.atomcas (bv w 17 11) (bv w 24 18) (bv w 25 25) (bv w 10 7))
  | 0x33 => leaf (true) (.atomcas (bv w 17 11) (bv w 24 18) (bv w 25 25) (bv w 10 7))
  | 0x38 => leaf (true) (.redAdd32 (bv w 17 11) (bv w 24 18) (bv w 10 7))
  | 0x39 => leaf (true) (.redAdd64 (bv w 17 11) (bv w 24 18) (bv w 10 7))
  | 0x3A => leaf (true) (.redMaxU64 (bv w 17 11) (bv w 24 18) (bv w 10 7))
  | 0x3B => leaf (true) (.redMinS32 (bv w 17 11) (bv w 24 18) (bv w 10 7))
  | 0x3C => leaf (true) (.redMaxS32 (bv w 17 11) (bv w 24 18) (bv w 10 7))
  | 0x3D => leaf (true) (.redOr32 (bv w 17 11) (bv w 24 18) (bv w 10 7))
  | 0x3E => leaf (true) (.redFaddF32 (bv w 17 11) (bv w 24 18) (bv w 10 7))
  | 0x3F => leaf (true) (.redRzadd (bv w 17 11) (bv w 24 18) (bv w 10 7))
  | _ => none

/-- FX class 0x3E (15 R276), by SUB. -/
def decodeFx3E (w : Nat) : Option Instr :=
  match fld w 31 25 with
  | 0x00 => leaf (fld w 24 11 == 0) (.fence (bv w 27 25) (bv w 10 7))
  | 0x01 => leaf (fld w 24 11 == 0) (.fence (bv w 27 25) (bv w 10 7))
  | 0x02 => leaf (fld w 24 11 == 0) (.fence (bv w 27 25) (bv w 10 7))
  | 0x03 => leaf (fld w 24 11 == 0) (.fence (bv w 27 25) (bv w 10 7))
  | 0x04 => leaf (fld w 24 11 == 0) (.fence (bv w 27 25) (bv w 10 7))
  | 0x05 => leaf (fld w 24 11 == 0) (.fence (bv w 27 25) (bv w 10 7))
  | 0x06 => leaf (fld w 24 11 == 0) (.fence (bv w 27 25) (bv w 10 7))
  | 0x07 => leaf (fld w 24 11 == 0) (.fence (bv w 27 25) (bv w 10 7))
  | 0x08 => leaf (fld w 24 14 == 0 && fld w 10 7 == 0) (.bar (bv w 26 25) (bv w 13 11))
  | 0x09 => leaf (fld w 24 14 == 0 && fld w 10 7 == 0) (.bar (bv w 26 25) (bv w 13 11))
  | 0x0A => leaf (fld w 24 14 == 0 && fld w 10 7 == 0) (.bar (bv w 26 25) (bv w 13 11))
  | 0x0B => leaf (fld w 24 14 == 0 && fld w 10 7 == 0) (.bar (bv w 26 25) (bv w 13 11))
  | 0x0C => leaf (fld w 24 16 == 0 && fld w 10 7 == 0) (.bararr (bv w 15 14) (bv w 13 11))
  | 0x0D => leaf (fld w 24 16 == 0 && fld w 10 7 == 0) (.barwt (bv w 15 14) (bv w 13 11)) <|> leaf (fld w 24 13 == 10 && fld w 10 7 == 0) (.barwtRemote (bv w 12 11))
  | 0x0E => leaf (fld w 24 20 == 0 && fld w 17 13 == 0 && fld w 10 7 == 0) (.rarrive (bv w 19 18) (bv w 12 11))
  | 0x10 => leaf (fld w 24 24 == 0 && fld w 17 11 == 0) (.monitor (bv w 23 18) (bv w 10 7))
  | 0x11 => leaf (fld w 24 17 == 0) (.mwait (bv w 16 11) (bv w 10 7))
  | 0x12 => leaf (fld w 24 17 == 0) (.batseal (bv w 16 11) (bv w 10 7))
  | 0x13 => leaf (fld w 24 24 == 0 && fld w 17 11 == 0) (.batwait (bv w 23 18) (bv w 10 7))
  | 0x14 => leaf (fld w 24 24 == 0 && fld w 17 17 == 0) (.chwait (bv w 16 11) (bv w 23 18) (bv w 10 7))
  | 0x18 => leaf (fld w 24 11 == 0) (.exit (bv w 10 7))
  | 0x19 => leaf (fld w 24 11 == 0) (.ret (bv w 10 7))
  | 0x1A => leaf (fld w 17 11 == 0) (.brx (bv w 24 18) (bv w 10 7))
  | 0x1B => leaf (fld w 17 11 == 0) (.callx (bv w 24 18) (bv w 10 7))
  | 0x1C => leaf (fld w 24 11 == 0) (.conv (bv w 10 7))
  | 0x1D => leaf (fld w 24 11 == 0) (.yield (bv w 10 7))
  | 0x1E => leaf (fld w 24 18 == 0 && fld w 10 7 == 0) (.safept (bv w 17 11))
  | 0x1F => leaf (fld w 24 18 == 0) (.trap (bv w 17 11) (bv w 10 7))
  | 0x20 => leaf (fld w 24 18 == 0) (.brk (bv w 17 11) (bv w 10 7))
  | 0x21 => leaf (fld w 24 7 == 0) (.roleOffer) <|> leaf (fld w 24 13 == 0 && fld w 10 7 == 0) (.role (bv w 12 11))
  | 0x28 => leaf (fld w 24 24 == 0 && fld w 17 11 == 0) (.bcopy (bv w 23 18) (bv w 10 7))
  | 0x29 => leaf (fld w 24 24 == 0 && fld w 17 11 == 0) (.bcast (bv w 23 18) (bv w 10 7))
  | 0x2A => leaf (fld w 24 11 == 0) (.stage (bv w 10 7))
  | 0x30 => leaf (fld w 24 24 == 0) (.mxissue (bv w 17 11) (bv w 23 18) (bv w 26 25) (bv w 10 7))
  | 0x31 => leaf (fld w 24 24 == 0) (.mxissue (bv w 17 11) (bv w 23 18) (bv w 26 25) (bv w 10 7))
  | 0x32 => leaf (fld w 24 24 == 0) (.mxissue (bv w 17 11) (bv w 23 18) (bv w 26 25) (bv w 10 7))
  | 0x33 => leaf (fld w 24 24 == 0) (.mxissue (bv w 17 11) (bv w 23 18) (bv w 26 25) (bv w 10 7))
  | 0x34 => leaf (fld w 24 11 == 0) (.mxchain (bv w 10 7))
  | 0x35 => leaf (fld w 24 11 == 0) (.mxend (bv w 10 7))
  | 0x36 => leaf (fld w 24 24 == 0 && fld w 17 11 == 0) (.mxdrain (bv w 23 18) (bv w 10 7))
  | 0x37 => leaf (fld w 24 22 == 0 && fld w 17 11 == 0) (.mxzero (bv w 21 18) (bv w 10 7))
  | 0x38 => leaf (fld w 24 24 == 0) (.mxrd (bv w 17 11) (bv w 23 22) (bv w 21 18) (bv w 10 7))
  | 0x39 => leaf (fld w 24 24 == 0) (.mxwr (bv w 17 11) (bv w 23 22) (bv w 21 18) (bv w 10 7))
  | 0x3A => leaf (fld w 24 11 == 0) (.mxwait (bv w 10 7))
  | 0x3B => leaf (fld w 24 7 == 0) (.btake)
  | 0x3C => leaf (fld w 24 7 == 0) (.bgive)
  | 0x3D => leaf (fld w 24 24 == 0) (.ringput (bv w 17 11) (bv w 23 21) (bv w 20 18) (bv w 10 7))
  | 0x3E => leaf (fld w 24 24 == 0) (.ringget (bv w 17 11) (bv w 23 21) (bv w 20 18) (bv w 10 7))
  | _ => none

/-- FX class 0x3F (15 R277), by SUB. -/
def decodeFx3F (w : Nat) : Option Instr :=
  match fld w 31 25 with
  | 0x00 => leaf (fld w 24 24 == 0 && fld w 17 17 == 0) (.launch (bv w 16 11) (bv w 23 18) (bv w 10 7))
  | 0x01 => leaf (fld w 24 24 == 0 && fld w 17 17 == 0) (.launchp (bv w 16 11) (bv w 23 18) (bv w 10 7))
  | 0x02 => leaf (fld w 24 24 == 0 && fld w 17 17 == 0) (.tspawn (bv w 16 11) (bv w 23 18) (bv w 10 7))
  | 0x03 => leaf (fld w 24 24 == 0 && fld w 17 14 == 0) (.twait (bv w 13 11) (bv w 23 18) (bv w 10 7)) <|> leaf (fld w 24 24 == 0 && fld w 17 14 == 1) (.twaitLock (bv w 13 11) (bv w 23 18) (bv w 10 7))
  | 0x04 => leaf (fld w 24 24 == 0 && fld w 17 11 == 0) (.cancel (bv w 23 18) (bv w 10 7)) <|> leaf (fld w 24 24 == 0 && fld w 17 11 == 1) (.cancelKill (bv w 23 18) (bv w 10 7))
  | 0x08 => leaf (true) (.trace (bv w 17 11) (bv w 24 18) (bv w 10 7))
  | 0x09 => leaf (true) (.callret (bv w 17 11) (bv w 24 18) (bv w 10 7))
  | 0x0A => leaf (fld w 24 24 == 0 && fld w 10 7 == 0) (.repack (bv w 17 11) (bv w 23 18))
  | 0x0B => leaf (fld w 24 24 == 0 && fld w 17 17 == 0) (.treelock (bv w 16 11) (bv w 23 18) (bv w 10 7))
  | 0x0C => leaf (fld w 24 24 == 0 && fld w 17 17 == 0) (.treepub (bv w 16 11) (bv w 23 18) (bv w 10 7))
  | 0x10 => leaf (true) (.lfetchBil (bv w 17 11) (bv w 24 18) (bv w 10 7))
  | 0x11 => leaf (true) (.lfetchTri (bv w 17 11) (bv w 24 18) (bv w 10 7))
  | 0x12 => leaf (true) (.hgrid (bv w 17 11) (bv w 24 18) (bv w 10 7))
  | 0x18 => leaf (fld w 17 17 == 0) (.sysr (bv w 16 11) (bv w 24 18) (bv w 10 7)) <|> leaf (fld w 17 17 == 1) (.sysrV (bv w 16 11) (bv w 24 18) (bv w 10 7))
  | 0x19 => leaf (fld w 17 17 == 0) (.sysw (bv w 16 11) (bv w 24 18) (bv w 10 7))
  | 0x1A => leaf (fld w 24 17 == 0) (.rdtime (bv w 16 11) (bv w 10 7))
  | _ => none

/-- A 32-bit instruction word (15 R267 to R270), by major opcode. -/
def decode32 (w : Nat) : Option Instr :=
  match fld w 6 1 with
  | 0x01 => leaf (true) (.add (bv w 17 11) (bv w 24 18) (bv w 31 25) (bv w 10 7))
  | 0x02 => leaf (true) (.sub (bv w 17 11) (bv w 24 18) (bv w 31 25) (bv w 10 7))
  | 0x03 => leaf (true) (.mul (bv w 17 11) (bv w 24 18) (bv w 31 25) (bv w 10 7))
  | 0x04 => leaf (true) (.mulh (bv w 17 11) (bv w 24 18) (bv w 31 25) (bv w 10 7))
  | 0x05 => leaf (true) (.mad (bv w 17 11) (bv w 24 18) (bv w 31 25) (bv w 10 7))
  | 0x06 => leaf (true) (.min (bv w 17 11) (bv w 24 18) (bv w 31 25) (bv w 10 7))
  | 0x07 => leaf (true) (.max (bv w 17 11) (bv w 24 18) (bv w 31 25) (bv w 10 7))
  | 0x08 => leaf (true) (.and (bv w 17 11) (bv w 24 18) (bv w 31 25) (bv w 10 7))
  | 0x09 => leaf (true) (.or (bv w 17 11) (bv w 24 18) (bv w 31 25) (bv w 10 7))
  | 0x0A => leaf (true) (.xor (bv w 17 11) (bv w 24 18) (bv w 31 25) (bv w 10 7))
  | 0x0B => leaf (true) (.shl (bv w 17 11) (bv w 24 18) (bv w 31 25) (bv w 10 7))
  | 0x0C => leaf (true) (.shr (bv w 17 11) (bv w 24 18) (bv w 31 25) (bv w 10 7))
  | 0x0D => leaf (true) (.sar (bv w 17 11) (bv w 24 18) (bv w 31 25) (bv w 10 7))
  | 0x0E => leaf (true) (.sel (bv w 17 11) (bv w 24 18) (bv w 31 25) (bv w 10 7))
  | 0x0F => leaf (true) (.shfl (bv w 17 11) (bv w 24 18) (bv w 31 25) (bv w 10 7))
  | 0x10 => leaf (true) (.addi (bv w 17 11) (bv w 24 18) (bv w 31 25) (bv w 10 7))
  | 0x11 => leaf (true) (.andi (bv w 17 11) (bv w 24 18) (bv w 31 25) (bv w 10 7))
  | 0x12 => leaf (true) (.ori (bv w 17 11) (bv w 24 18) (bv w 31 25) (bv w 10 7))
  | 0x13 => leaf (true) (.xori (bv w 17 11) (bv w 24 18) (bv w 31 25) (bv w 10 7))
  | 0x14 => leaf (fld w 31 30 == 0) (.shli (bv w 17 11) (bv w 24 18) (bv w 29 25) (bv w 10 7))
  | 0x15 => leaf (fld w 31 30 == 0) (.shri (bv w 17 11) (bv w 24 18) (bv w 29 25) (bv w 10 7))
  | 0x16 => leaf (fld w 31 30 == 0) (.sari (bv w 17 11) (bv w 24 18) (bv w 29 25) (bv w 10 7))
  | 0x18 => leaf (true) (.fadd (bv w 17 11) (bv w 24 18) (bv w 31 25) (bv w 10 7))
  | 0x19 => leaf (true) (.fsub (bv w 17 11) (bv w 24 18) (bv w 31 25) (bv w 10 7))
  | 0x1A => leaf (true) (.fmul (bv w 17 11) (bv w 24 18) (bv w 31 25) (bv w 10 7))
  | 0x1B => leaf (true) (.ffma (bv w 17 11) (bv w 24 18) (bv w 31 25) (bv w 10 7))
  | 0x1C => leaf (true) (.fmin (bv w 17 11) (bv w 24 18) (bv w 31 25) (bv w 10 7))
  | 0x1D => leaf (true) (.fmax (bv w 17 11) (bv w 24 18) (bv w 31 25) (bv w 10 7))
  | 0x1E => leaf (true) (.fdiv (bv w 17 11) (bv w 24 18) (bv w 31 25) (bv w 10 7))
  | 0x1F => leaf (true) (.cvts (bv w 17 11) (bv w 24 18) (bv w 31 25) (bv w 10 7))
  | 0x20 => leaf (true) (.hadd2 (bv w 17 11) (bv w 24 18) (bv w 31 25) (bv w 10 7))
  | 0x21 => leaf (true) (.hmul2 (bv w 17 11) (bv w 24 18) (bv w 31 25) (bv w 10 7))
  | 0x22 => leaf (true) (.hfma2 (bv w 17 11) (bv w 24 18) (bv w 31 25) (bv w 10 7))
  | 0x23 => leaf (true) (.cmp (bv w 13 11) (bv w 24 18) (bv w 31 25) (bv w 17 14) (bv w 10 7))
  | 0x24 => leaf (true) (.fcmp (bv w 13 11) (bv w 24 18) (bv w 31 25) (bv w 17 14) (bv w 10 7))
  | 0x25 => leaf (true) (.movi (bv w 13 7) (bv w 31 14))
  | 0x26 => leaf (fld w 31 28 == 0) (.movhi (bv w 13 7) (bv w 27 14))
  | 0x27 => leaf (true) (.lea (bv w 17 11) (bv w 24 18) (bv w 31 25) (bv w 10 7))
  | 0x28 => leaf (true) (.ldU8 (bv w 17 11) (bv w 24 18) (bv w 31 25) (bv w 10 7))
  | 0x29 => leaf (true) (.ldS8 (bv w 17 11) (bv w 24 18) (bv w 31 25) (bv w 10 7))
  | 0x2A => leaf (true) (.ldU16 (bv w 17 11) (bv w 24 18) (bv w 31 25) (bv w 10 7))
  | 0x2B => leaf (true) (.ldS16 (bv w 17 11) (bv w 24 18) (bv w 31 25) (bv w 10 7))
  | 0x2C => leaf (true) (.ld32 (bv w 17 11) (bv w 24 18) (bv w 31 25) (bv w 10 7))
  | 0x2D => leaf (true) (.ld64 (bv w 17 11) (bv w 24 18) (bv w 31 25) (bv w 10 7))
  | 0x2E => leaf (true) (.ld128 (bv w 17 11) (bv w 24 18) (bv w 31 25) (bv w 10 7))
  | 0x2F => leaf (true) (.ldro32 (bv w 17 11) (bv w 24 18) (bv w 31 25) (bv w 10 7))
  | 0x30 => leaf (true) (.st8 (bv w 17 11) (bv w 24 18) (bv w 31 25) (bv w 10 7))
  | 0x31 => leaf (true) (.st16 (bv w 17 11) (bv w 24 18) (bv w 31 25) (bv w 10 7))
  | 0x32 => leaf (true) (.st32 (bv w 17 11) (bv w 24 18) (bv w 31 25) (bv w 10 7))
  | 0x33 => leaf (true) (.st64 (bv w 17 11) (bv w 24 18) (bv w 31 25) (bv w 10 7))
  | 0x34 => leaf (true) (.st128 (bv w 17 11) (bv w 24 18) (bv w 31 25) (bv w 10 7))
  | 0x35 => leaf (true) (.ldro128 (bv w 17 11) (bv w 24 18) (bv w 31 25) (bv w 10 7))
  | 0x36 => leaf (true) (.bra (bv w 31 11) (bv w 10 7))
  | 0x37 => leaf (true) (.call (bv w 31 11) (bv w 10 7))
  | 0x38 => decodeFs w
  | 0x39 => decodeFsi w
  | 0x3A => leaf (true) (.smovi (bv w 12 7) (bv w 31 13))
  | 0x3B => leaf (true) (.smovhi (bv w 12 7) (bv w 31 13))
  | 0x3C => decodeFx3C w
  | 0x3D => decodeFx3D w
  | 0x3E => decodeFx3E w
  | 0x3F => decodeFx3F w
  | _ => none

/-- Two bytes, the first at the lower address (00 R2), as a halfword. -/
def half (x y : Byte) : Nat := x.toNat + 256 * y.toNat

/-- The instruction at the head of a list of bytes, and the bytes after it (15 R265). -/
def decode : List Byte → Except Reject (Instr × List Byte)
  | x :: y :: rest =>
    let h := half x y
    if h % 2 == 0 then
      match decode16 h with
      | some i => .ok (i, rest)
      | none => .error (.illegal h)
    else
      match rest with
      | z :: u :: rest' =>
        let w := h + 65536 * half z u
        match decode32 w with
        | some i => .ok (i, rest')
        | none => .error (.illegal w)
      | _ => .error .truncated
  | _ => .error .truncated

/-- The low `n` bytes of a number, the first at the lowest address (00 R2). -/
def leBytes : Nat → Nat → List Byte
  | 0, _ => []
  | n + 1, w => BitVec.ofNat 8 w :: leBytes n (w / 256)

/-- The word of an encoded instruction, from the tables of 15 R266 to R278; none for a step that has no encoding. -/
def encode : Instr → Option Nat
  | .mov16 d b => some (0 + d.toNat * 32 + b.toNat * 2048)
  | .add16 d b => some (2 + d.toNat * 32 + b.toNat * 2048)
  | .sub16 d b => some (4 + d.toNat * 32 + b.toNat * 2048)
  | .mul16 d b => some (6 + d.toNat * 32 + b.toNat * 2048)
  | .and16 d b => some (8 + d.toNat * 32 + b.toNat * 2048)
  | .or16 d b => some (10 + d.toNat * 32 + b.toNat * 2048)
  | .xor16 d b => some (12 + d.toNat * 32 + b.toNat * 2048)
  | .shl16 d b => some (14 + d.toNat * 32 + b.toNat * 2048)
  | .shr16 d b => some (16 + d.toNat * 32 + b.toNat * 2048)
  | .min16 d b => some (18 + d.toNat * 32 + b.toNat * 2048)
  | .max16 d b => some (20 + d.toNat * 32 + b.toNat * 2048)
  | .fadd16 d b => some (22 + d.toNat * 32 + b.toNat * 2048)
  | .fsub16 d b => some (24 + d.toNat * 32 + b.toNat * 2048)
  | .fmul16 d b => some (26 + d.toNat * 32 + b.toNat * 2048)
  | .fmin16 d b => some (28 + d.toNat * 32 + b.toNat * 2048)
  | .fmax16 d b => some (30 + d.toNat * 32 + b.toNat * 2048)
  | .nop => some (0)
  | .add d a b g => some (3 + d.toNat * 2048 + a.toNat * 262144 + b.toNat * 33554432 + g.toNat * 128)
  | .sub d a b g => some (5 + d.toNat * 2048 + a.toNat * 262144 + b.toNat * 33554432 + g.toNat * 128)
  | .mul d a b g => some (7 + d.toNat * 2048 + a.toNat * 262144 + b.toNat * 33554432 + g.toNat * 128)
  | .mulh d a b g => some (9 + d.toNat * 2048 + a.toNat * 262144 + b.toNat * 33554432 + g.toNat * 128)
  | .mad d a b g => some (11 + d.toNat * 2048 + a.toNat * 262144 + b.toNat * 33554432 + g.toNat * 128)
  | .min d a b g => some (13 + d.toNat * 2048 + a.toNat * 262144 + b.toNat * 33554432 + g.toNat * 128)
  | .max d a b g => some (15 + d.toNat * 2048 + a.toNat * 262144 + b.toNat * 33554432 + g.toNat * 128)
  | .and d a b g => some (17 + d.toNat * 2048 + a.toNat * 262144 + b.toNat * 33554432 + g.toNat * 128)
  | .or d a b g => some (19 + d.toNat * 2048 + a.toNat * 262144 + b.toNat * 33554432 + g.toNat * 128)
  | .xor d a b g => some (21 + d.toNat * 2048 + a.toNat * 262144 + b.toNat * 33554432 + g.toNat * 128)
  | .shl d a b g => some (23 + d.toNat * 2048 + a.toNat * 262144 + b.toNat * 33554432 + g.toNat * 128)
  | .shr d a b g => some (25 + d.toNat * 2048 + a.toNat * 262144 + b.toNat * 33554432 + g.toNat * 128)
  | .sar d a b g => some (27 + d.toNat * 2048 + a.toNat * 262144 + b.toNat * 33554432 + g.toNat * 128)
  | .sel d a b g => some (29 + d.toNat * 2048 + a.toNat * 262144 + b.toNat * 33554432 + g.toNat * 128)
  | .shfl d a b g => some (31 + d.toNat * 2048 + a.toNat * 262144 + b.toNat * 33554432 + g.toNat * 128)
  | .addi d a i g => some (33 + d.toNat * 2048 + a.toNat * 262144 + i.toNat * 33554432 + g.toNat * 128)
  | .andi d a i g => some (35 + d.toNat * 2048 + a.toNat * 262144 + i.toNat * 33554432 + g.toNat * 128)
  | .ori d a i g => some (37 + d.toNat * 2048 + a.toNat * 262144 + i.toNat * 33554432 + g.toNat * 128)
  | .xori d a i g => some (39 + d.toNat * 2048 + a.toNat * 262144 + i.toNat * 33554432 + g.toNat * 128)
  | .shli d a i g => some (41 + d.toNat * 2048 + a.toNat * 262144 + i.toNat * 33554432 + g.toNat * 128)
  | .shri d a i g => some (43 + d.toNat * 2048 + a.toNat * 262144 + i.toNat * 33554432 + g.toNat * 128)
  | .sari d a i g => some (45 + d.toNat * 2048 + a.toNat * 262144 + i.toNat * 33554432 + g.toNat * 128)
  | .fadd d a b g => some (49 + d.toNat * 2048 + a.toNat * 262144 + b.toNat * 33554432 + g.toNat * 128)
  | .fsub d a b g => some (51 + d.toNat * 2048 + a.toNat * 262144 + b.toNat * 33554432 + g.toNat * 128)
  | .fmul d a b g => some (53 + d.toNat * 2048 + a.toNat * 262144 + b.toNat * 33554432 + g.toNat * 128)
  | .ffma d a b g => some (55 + d.toNat * 2048 + a.toNat * 262144 + b.toNat * 33554432 + g.toNat * 128)
  | .fmin d a b g => some (57 + d.toNat * 2048 + a.toNat * 262144 + b.toNat * 33554432 + g.toNat * 128)
  | .fmax d a b g => some (59 + d.toNat * 2048 + a.toNat * 262144 + b.toNat * 33554432 + g.toNat * 128)
  | .fdiv d a b g => some (61 + d.toNat * 2048 + a.toNat * 262144 + b.toNat * 33554432 + g.toNat * 128)
  | .cvts d a b g => some (63 + d.toNat * 2048 + a.toNat * 262144 + b.toNat * 33554432 + g.toNat * 128)
  | .hadd2 d a b g => some (65 + d.toNat * 2048 + a.toNat * 262144 + b.toNat * 33554432 + g.toNat * 128)
  | .hmul2 d a b g => some (67 + d.toNat * 2048 + a.toNat * 262144 + b.toNat * 33554432 + g.toNat * 128)
  | .hfma2 d a b g => some (69 + d.toNat * 2048 + a.toNat * 262144 + b.toNat * 33554432 + g.toNat * 128)
  | .cmp p a b c g => some (71 + p.toNat * 2048 + a.toNat * 262144 + b.toNat * 33554432 + c.toNat * 16384 + g.toNat * 128)
  | .fcmp p a b c g => some (73 + p.toNat * 2048 + a.toNat * 262144 + b.toNat * 33554432 + c.toNat * 16384 + g.toNat * 128)
  | .movi d i => some (75 + d.toNat * 128 + i.toNat * 16384)
  | .movhi d i => some (77 + d.toNat * 128 + i.toNat * 16384)
  | .lea d a b g => some (79 + d.toNat * 2048 + a.toNat * 262144 + b.toNat * 33554432 + g.toNat * 128)
  | .ldU8 d a o g => some (81 + d.toNat * 2048 + a.toNat * 262144 + o.toNat * 33554432 + g.toNat * 128)
  | .ldS8 d a o g => some (83 + d.toNat * 2048 + a.toNat * 262144 + o.toNat * 33554432 + g.toNat * 128)
  | .ldU16 d a o g => some (85 + d.toNat * 2048 + a.toNat * 262144 + o.toNat * 33554432 + g.toNat * 128)
  | .ldS16 d a o g => some (87 + d.toNat * 2048 + a.toNat * 262144 + o.toNat * 33554432 + g.toNat * 128)
  | .ld32 d a o g => some (89 + d.toNat * 2048 + a.toNat * 262144 + o.toNat * 33554432 + g.toNat * 128)
  | .ld64 d a o g => some (91 + d.toNat * 2048 + a.toNat * 262144 + o.toNat * 33554432 + g.toNat * 128)
  | .ld128 d a o g => some (93 + d.toNat * 2048 + a.toNat * 262144 + o.toNat * 33554432 + g.toNat * 128)
  | .ldro32 d a o g => some (95 + d.toNat * 2048 + a.toNat * 262144 + o.toNat * 33554432 + g.toNat * 128)
  | .ldro128 d a o g => some (107 + d.toNat * 2048 + a.toNat * 262144 + o.toNat * 33554432 + g.toNat * 128)
  | .st8 d a o g => some (97 + d.toNat * 2048 + a.toNat * 262144 + o.toNat * 33554432 + g.toNat * 128)
  | .st16 d a o g => some (99 + d.toNat * 2048 + a.toNat * 262144 + o.toNat * 33554432 + g.toNat * 128)
  | .st32 d a o g => some (101 + d.toNat * 2048 + a.toNat * 262144 + o.toNat * 33554432 + g.toNat * 128)
  | .st64 d a o g => some (103 + d.toNat * 2048 + a.toNat * 262144 + o.toNat * 33554432 + g.toNat * 128)
  | .st128 d a o g => some (105 + d.toNat * 2048 + a.toNat * 262144 + o.toNat * 33554432 + g.toNat * 128)
  | .bra o g => some (109 + o.toNat * 2048 + g.toNat * 128)
  | .call o g => some (111 + o.toNat * 2048 + g.toNat * 128)
  | .sadd d a b => some (113 + d.toNat * 2048 + a.toNat * 131072 + b.toNat * 8388608)
  | .ssub d a b => some (241 + d.toNat * 2048 + a.toNat * 131072 + b.toNat * 8388608)
  | .smul d a b => some (369 + d.toNat * 2048 + a.toNat * 131072 + b.toNat * 8388608)
  | .sand d a b => some (497 + d.toNat * 2048 + a.toNat * 131072 + b.toNat * 8388608)
  | .sor d a b => some (625 + d.toNat * 2048 + a.toNat * 131072 + b.toNat * 8388608)
  | .sxor d a b => some (753 + d.toNat * 2048 + a.toNat * 131072 + b.toNat * 8388608)
  | .sshl d a b => some (881 + d.toNat * 2048 + a.toNat * 131072 + b.toNat * 8388608)
  | .sshr d a b => some (1009 + d.toNat * 2048 + a.toNat * 131072 + b.toNat * 8388608)
  | .ssar d a b => some (1137 + d.toNat * 2048 + a.toNat * 131072 + b.toNat * 8388608)
  | .smin d a b => some (1265 + d.toNat * 2048 + a.toNat * 131072 + b.toNat * 8388608)
  | .smax d a b => some (1393 + d.toNat * 2048 + a.toNat * 131072 + b.toNat * 8388608)
  | .smov d a => some (1521 + d.toNat * 2048 + a.toNat * 131072)
  | .spset p a => some (1649 + p.toNat * 8388608 + a.toNat * 131072)
  | .slt d a b => some (1777 + d.toNat * 2048 + a.toNat * 131072 + b.toNat * 8388608)
  | .saddImm d a i => some (115 + d.toNat * 2048 + a.toNat * 131072 + i.toNat * 8388608)
  | .ssubImm d a i => some (243 + d.toNat * 2048 + a.toNat * 131072 + i.toNat * 8388608)
  | .smulImm d a i => some (371 + d.toNat * 2048 + a.toNat * 131072 + i.toNat * 8388608)
  | .sandImm d a i => some (499 + d.toNat * 2048 + a.toNat * 131072 + i.toNat * 8388608)
  | .sorImm d a i => some (627 + d.toNat * 2048 + a.toNat * 131072 + i.toNat * 8388608)
  | .sxorImm d a i => some (755 + d.toNat * 2048 + a.toNat * 131072 + i.toNat * 8388608)
  | .sshlImm d a i => some (883 + d.toNat * 2048 + a.toNat * 131072 + i.toNat * 8388608)
  | .sshrImm d a i => some (1011 + d.toNat * 2048 + a.toNat * 131072 + i.toNat * 8388608)
  | .ssarImm d a i => some (1139 + d.toNat * 2048 + a.toNat * 131072 + i.toNat * 8388608)
  | .sminImm d a i => some (1267 + d.toNat * 2048 + a.toNat * 131072 + i.toNat * 8388608)
  | .smaxImm d a i => some (1395 + d.toNat * 2048 + a.toNat * 131072 + i.toNat * 8388608)
  | .smovImm d i => some (1523 + d.toNat * 2048 + i.toNat * 8388608)
  | .sltImm d a i => some (1779 + d.toNat * 2048 + a.toNat * 131072 + i.toNat * 8388608)
  | .sld d a i => some (1907 + d.toNat * 2048 + a.toNat * 131072 + i.toNat * 8388608)
  | .sst d a i => some (2035 + d.toNat * 2048 + a.toNat * 131072 + i.toNat * 8388608)
  | .smovi d i => some (117 + d.toNat * 128 + i.toNat * 8192)
  | .smovhi d i => some (119 + d.toNat * 128 + i.toNat * 8192)
  | .mov d a g => some (121 + d.toNat * 2048 + a.toNat * 262144 + g.toNat * 128)
  | .not d a g => some (33554553 + d.toNat * 2048 + a.toNat * 262144 + g.toNat * 128)
  | .abs d a g => some (67108985 + d.toNat * 2048 + a.toNat * 262144 + g.toNat * 128)
  | .popc d a g => some (100663417 + d.toNat * 2048 + a.toNat * 262144 + g.toNat * 128)
  | .clz d a g => some (134217849 + d.toNat * 2048 + a.toNat * 262144 + g.toNat * 128)
  | .brev d a g => some (167772281 + d.toNat * 2048 + a.toNat * 262144 + g.toNat * 128)
  | .movs d a g => some (201326713 + d.toNat * 2048 + a.toNat * 262144 + g.toNat * 128)
  | .movsHi d a g => some (234881145 + d.toNat * 2048 + a.toNat * 262144 + g.toNat * 128)
  | .rdlane d a g => some (268435577 + d.toNat * 2048 + a.toNat * 262144 + g.toNat * 128)
  | .fabs d a g => some (301990009 + d.toNat * 2048 + a.toNat * 262144 + g.toNat * 128)
  | .fneg d a g => some (335544441 + d.toNat * 2048 + a.toNat * 262144 + g.toNat * 128)
  | .frcp d a g => some (369098873 + d.toNat * 2048 + a.toNat * 262144 + g.toNat * 128)
  | .frsq d a g => some (402653305 + d.toNat * 2048 + a.toNat * 262144 + g.toNat * 128)
  | .fsqrt d a g => some (436207737 + d.toNat * 2048 + a.toNat * 262144 + g.toNat * 128)
  | .fexp2 d a g => some (469762169 + d.toNat * 2048 + a.toNat * 262144 + g.toNat * 128)
  | .flog2 d a g => some (503316601 + d.toNat * 2048 + a.toNat * 262144 + g.toNat * 128)
  | .fsin d a g => some (536871033 + d.toNat * 2048 + a.toNat * 262144 + g.toNat * 128)
  | .fcos d a g => some (570425465 + d.toNat * 2048 + a.toNat * 262144 + g.toNat * 128)
  | .frndRne d a g => some (603979897 + d.toNat * 2048 + a.toNat * 262144 + g.toNat * 128)
  | .frndRtz d a g => some (637534329 + d.toNat * 2048 + a.toNat * 262144 + g.toNat * 128)
  | .frndRup d a g => some (671088761 + d.toNat * 2048 + a.toNat * 262144 + g.toNat * 128)
  | .frndRdn d a g => some (704643193 + d.toNat * 2048 + a.toNat * 262144 + g.toNat * 128)
  | .cvt d a c g => some (1073741945 + d.toNat * 2048 + a.toNat * 262144 + c.toNat * 33554432 + g.toNat * 128)
  | .rzcvt d a g => some (1610612857 + d.toNat * 2048 + a.toNat * 262144 + g.toNat * 128)
  | .rzadd d a g => some (1644167289 + d.toNat * 2048 + a.toNat * 262144 + g.toNat * 128)
  | .vsome d a g => some (123 + d.toNat * 2048 + a.toNat * 262144 + g.toNat * 128)
  | .vevery d a g => some (33554555 + d.toNat * 2048 + a.toNat * 262144 + g.toNat * 128)
  | .badge d a g => some (67108987 + d.toNat * 2048 + a.toNat * 262144 + g.toNat * 128)
  | .mates d a g => some (100663419 + d.toNat * 2048 + a.toNat * 262144 + g.toNat * 128)
  | .refoldAdd d a g => some (134217851 + d.toNat * 2048 + a.toNat * 262144 + g.toNat * 128)
  | .refoldMin d a g => some (167772283 + d.toNat * 2048 + a.toNat * 262144 + g.toNat * 128)
  | .refoldMax d a g => some (201326715 + d.toNat * 2048 + a.toNat * 262144 + g.toNat * 128)
  | .refoldFadd d a g => some (234881147 + d.toNat * 2048 + a.toNat * 262144 + g.toNat * 128)
  | .refoldMinu d a g => some (469762171 + d.toNat * 2048 + a.toNat * 262144 + g.toNat * 128)
  | .refoldMaxu d a g => some (503316603 + d.toNat * 2048 + a.toNat * 262144 + g.toNat * 128)
  | .ppack d g => some (268435579 + d.toNat * 2048 + g.toNat * 128)
  | .punpack a g => some (301990011 + a.toNat * 262144 + g.toNat * 128)
  | .pand d a g => some (335544443 + d.toNat * 2048 + a.toNat * 262144 + g.toNat * 128)
  | .por d a g => some (369098875 + d.toNat * 2048 + a.toNat * 262144 + g.toNat * 128)
  | .pxor d a g => some (402653307 + d.toNat * 2048 + a.toNat * 262144 + g.toNat * 128)
  | .pnot d a g => some (436207739 + d.toNat * 2048 + a.toNat * 262144 + g.toNat * 128)
  | .sptest d a w g => some (536871035 + d.toNat * 2048 + a.toNat * 262144 + w.toNat * 33554432 + g.toNat * 128)
  | .spcastToprv d a g => some (671088763 + d.toNat * 2048 + a.toNat * 262144 + g.toNat * 128)
  | .spcastToscr d a g => some (704643195 + d.toNat * 2048 + a.toNat * 262144 + g.toNat * 128)
  | .spcastToclu d a g => some (738197627 + d.toNat * 2048 + a.toNat * 262144 + g.toNat * 128)
  | .spcastPrvgen d a g => some (771752059 + d.toNat * 2048 + a.toNat * 262144 + g.toNat * 128)
  | .spcastScrgen d a g => some (805306491 + d.toNat * 2048 + a.toNat * 262144 + g.toNat * 128)
  | .spcastClugen d a g => some (838860923 + d.toNat * 2048 + a.toNat * 262144 + g.toNat * 128)
  | .lda d a g => some (872415355 + d.toNat * 2048 + a.toNat * 262144 + g.toNat * 128)
  | .pref a g => some (905969787 + a.toNat * 262144 + g.toNat * 128)
  | .invro g => some (939524219 + g.toNat * 128)
  | .cflush a g => some (973078651 + a.toNat * 262144 + g.toNat * 128)
  | .cinv a g => some (1006633083 + a.toNat * 262144 + g.toNat * 128)
  | .atomAdd d a w g => some (1073741947 + d.toNat * 2048 + a.toNat * 262144 + w.toNat * 33554432 + g.toNat * 128)
  | .atomMinS d a w g => some (1140850811 + d.toNat * 2048 + a.toNat * 262144 + w.toNat * 33554432 + g.toNat * 128)
  | .atomMaxS d a w g => some (1207959675 + d.toNat * 2048 + a.toNat * 262144 + w.toNat * 33554432 + g.toNat * 128)
  | .atomMinU d a w g => some (1275068539 + d.toNat * 2048 + a.toNat * 262144 + w.toNat * 33554432 + g.toNat * 128)
  | .atomMaxU d a w g => some (1342177403 + d.toNat * 2048 + a.toNat * 262144 + w.toNat * 33554432 + g.toNat * 128)
  | .atomAnd d a w g => some (1409286267 + d.toNat * 2048 + a.toNat * 262144 + w.toNat * 33554432 + g.toNat * 128)
  | .atomOr d a w g => some (1476395131 + d.toNat * 2048 + a.toNat * 262144 + w.toNat * 33554432 + g.toNat * 128)
  | .atomXor d a w g => some (1543503995 + d.toNat * 2048 + a.toNat * 262144 + w.toNat * 33554432 + g.toNat * 128)
  | .atomExch d a w g => some (1610612859 + d.toNat * 2048 + a.toNat * 262144 + w.toNat * 33554432 + g.toNat * 128)
  | .atomcas d a w g => some (1677721723 + d.toNat * 2048 + a.toNat * 262144 + w.toNat * 33554432 + g.toNat * 128)
  | .redAdd32 d a g => some (1879048315 + d.toNat * 2048 + a.toNat * 262144 + g.toNat * 128)
  | .redAdd64 d a g => some (1912602747 + d.toNat * 2048 + a.toNat * 262144 + g.toNat * 128)
  | .redMaxU64 d a g => some (1946157179 + d.toNat * 2048 + a.toNat * 262144 + g.toNat * 128)
  | .redMinS32 d a g => some (1979711611 + d.toNat * 2048 + a.toNat * 262144 + g.toNat * 128)
  | .redMaxS32 d a g => some (2013266043 + d.toNat * 2048 + a.toNat * 262144 + g.toNat * 128)
  | .redOr32 d a g => some (2046820475 + d.toNat * 2048 + a.toNat * 262144 + g.toNat * 128)
  | .redFaddF32 d a g => some (2080374907 + d.toNat * 2048 + a.toNat * 262144 + g.toNat * 128)
  | .redRzadd d a g => some (2113929339 + d.toNat * 2048 + a.toNat * 262144 + g.toNat * 128)
  | .fence s g => some (125 + s.toNat * 33554432 + g.toNat * 128)
  | .bar l n => some (268435581 + l.toNat * 33554432 + n.toNat * 2048)
  | .bararr l n => some (402653309 + l.toNat * 16384 + n.toNat * 2048)
  | .barwt l n => some (436207741 + l.toNat * 16384 + n.toNat * 2048)
  | .barwtRemote n => some (436289661 + n.toNat * 2048)
  | .rarrive c n => some (469762173 + c.toNat * 262144 + n.toNat * 2048)
  | .monitor a g => some (536871037 + a.toNat * 262144 + g.toNat * 128)
  | .mwait d g => some (570425469 + d.toNat * 2048 + g.toNat * 128)
  | .batseal d g => some (603979901 + d.toNat * 2048 + g.toNat * 128)
  | .batwait a g => some (637534333 + a.toNat * 262144 + g.toNat * 128)
  | .chwait d a g => some (671088765 + d.toNat * 2048 + a.toNat * 262144 + g.toNat * 128)
  | .exit g => some (805306493 + g.toNat * 128)
  | .ret g => some (838860925 + g.toNat * 128)
  | .brx a g => some (872415357 + a.toNat * 262144 + g.toNat * 128)
  | .callx a g => some (905969789 + a.toNat * 262144 + g.toNat * 128)
  | .conv g => some (939524221 + g.toNat * 128)
  | .yield g => some (973078653 + g.toNat * 128)
  | .safept n => some (1006633085 + n.toNat * 2048)
  | .trap n g => some (1040187517 + n.toNat * 2048 + g.toNat * 128)
  | .brk n g => some (1073741949 + n.toNat * 2048 + g.toNat * 128)
  | .roleOffer => some (1107296381)
  | .role r => some (1107296381 + r.toNat * 2048)
  | .bcopy a g => some (1342177405 + a.toNat * 262144 + g.toNat * 128)
  | .bcast a g => some (1375731837 + a.toNat * 262144 + g.toNat * 128)
  | .stage g => some (1409286269 + g.toNat * 128)
  | .mxissue d a n g => some (1610612861 + d.toNat * 2048 + a.toNat * 262144 + n.toNat * 33554432 + g.toNat * 128)
  | .mxchain g => some (1744830589 + g.toNat * 128)
  | .mxend g => some (1778385021 + g.toNat * 128)
  | .mxdrain a g => some (1811939453 + a.toNat * 262144 + g.toNat * 128)
  | .mxzero t g => some (1845493885 + t.toNat * 262144 + g.toNat * 128)
  | .mxrd d c t g => some (1879048317 + d.toNat * 2048 + c.toNat * 4194304 + t.toNat * 262144 + g.toNat * 128)
  | .mxwr d c t g => some (1912602749 + d.toNat * 2048 + c.toNat * 4194304 + t.toNat * 262144 + g.toNat * 128)
  | .mxwait g => some (1946157181 + g.toNat * 128)
  | .btake => some (1979711613)
  | .bgive => some (2013266045)
  | .ringput d p n g => some (2046820477 + d.toNat * 2048 + p.toNat * 2097152 + n.toNat * 262144 + g.toNat * 128)
  | .ringget d p n g => some (2080374909 + d.toNat * 2048 + p.toNat * 2097152 + n.toNat * 262144 + g.toNat * 128)
  | .launch d a g => some (127 + d.toNat * 2048 + a.toNat * 262144 + g.toNat * 128)
  | .launchp d a g => some (33554559 + d.toNat * 2048 + a.toNat * 262144 + g.toNat * 128)
  | .tspawn d a g => some (67108991 + d.toNat * 2048 + a.toNat * 262144 + g.toNat * 128)
  | .twait p a g => some (100663423 + p.toNat * 2048 + a.toNat * 262144 + g.toNat * 128)
  | .twaitLock p a g => some (100679807 + p.toNat * 2048 + a.toNat * 262144 + g.toNat * 128)
  | .cancel a g => some (134217855 + a.toNat * 262144 + g.toNat * 128)
  | .cancelKill a g => some (134219903 + a.toNat * 262144 + g.toNat * 128)
  | .trace d a g => some (268435583 + d.toNat * 2048 + a.toNat * 262144 + g.toNat * 128)
  | .callret d a g => some (301990015 + d.toNat * 2048 + a.toNat * 262144 + g.toNat * 128)
  | .repack d a => some (335544447 + d.toNat * 2048 + a.toNat * 262144)
  | .treelock d a g => some (369098879 + d.toNat * 2048 + a.toNat * 262144 + g.toNat * 128)
  | .treepub d a g => some (402653311 + d.toNat * 2048 + a.toNat * 262144 + g.toNat * 128)
  | .lfetchBil d a g => some (536871039 + d.toNat * 2048 + a.toNat * 262144 + g.toNat * 128)
  | .lfetchTri d a g => some (570425471 + d.toNat * 2048 + a.toNat * 262144 + g.toNat * 128)
  | .hgrid d a g => some (603979903 + d.toNat * 2048 + a.toNat * 262144 + g.toNat * 128)
  | .sysr d i g => some (805306495 + d.toNat * 2048 + i.toNat * 262144 + g.toNat * 128)
  | .sysrV d i g => some (805437567 + d.toNat * 2048 + i.toNat * 262144 + g.toNat * 128)
  | .sysw d i g => some (838860927 + d.toNat * 2048 + i.toNat * 262144 + g.toNat * 128)
  | .rdtime d g => some (872415359 + d.toNat * 2048 + g.toNat * 128)
  | .queueNop _ => none
  | .dispatch _ => none
  | .dispatchGang _ => none
  | .signal _ => none
  | .wait _ => none
  | .drawLarge _ => none
  | .classify _ => none
  | .queueFence _ => none
  | .timestamp _ => none
  | .tailWordUpdate _ _ => none
  | .waitTimeout _ => none
  | .gangUnmap _ => none
  | .systemRequestPut _ => none
  | .setMode => none
  | .mapQueue => none
  | .unmapQueue => none
  | .resetQueue => none
  | .preempt => none
  | .withdraw => none
  | .resume => none
  | .shootdown => none
  | .writeReg => none
  | .presence => none
  | .swap => none
  | .releaseBreak => none
  | .fwInstall => none
  | .attest => none
  | .setPools => none
  | .accept => none
  | .fabGrpJoin => none
  | .fabGrpLeave => none
  | .joinReachesSwitch _ _ => none
  | .fabDomainSet => none
  | .remapStart => none
  | .cupolaPinWrite => none
  | .blockFamilyWrite => none
  | .fwCommit => none
  | .eventTakeCount _ _ => none
  | .goStore _ => none
  | .roundDelivery _ _ _ => none
  | .reduceRoundTimeout _ => none
  | .linkResend _ => none
  | .homeUnreachable _ => none
  | .teamDispatch _ _ => none
  | .teamAdmit _ _ _ => none
  | .groupPark _ => none
  | .parkAfterLaunchWait _ => none
  | .groupRestore _ => none
  | .teamRetire _ => none
  | .launchAccept _ => none
  | .launchMulticast _ _ _ _ _ => none
  | .ready _ _ => none
  | .refuse _ _ _ => none
  | .commit _ => none
  | .rollback _ => none
  | .launchpTimeout _ => none
  | .steal _ _ => none
  | .stealReply _ _ _ => none
  | .cancelReachesPart _ _ => none
  | .barrierToken _ _ _ _ _ _ => none
  | .barrierPhaseComplete _ _ _ _ => none
  | .finalStatus _ => none
  | .taskDispatch _ => none
  | .rolePost _ _ => none
  | .batonHandover _ => none
  | .mxAccept _ => none
  | .powerGrant _ => none
  | .powerGrantReturn _ => none
  | .mxKstepCommit _ => none
  | .mxDrainExecute _ => none
  | .copyChunkWritten _ _ => none
  | .loadDataLands _ _ _ => none
  | .mwaitReturn _ => none
  | .memRequestStart _ => none
  | .refreshDue _ _ => none
  | .alertBackoff _ _ _ => none
  | .remapBlockMove _ => none
  | .remapThresholdPassed _ _ => none
  | .memRemapWindow _ => none
  | .memHotEpoch _ => none
  | .rayMessageArrival _ => none
  | .spireBatchStart _ => none
  | .nodeVisit _ => none
  | .rayEnd _ => none
  | .calloutGroupSend _ => none
  | .calloutGatherTimeout _ => none
  | .calloutGroupDispatch _ => none
  | .rayPark _ => none
  | .rayAbort _ => none
  | .groupTakenAtSite _ => none
  | .eccError _ _ _ => none
  | .watchdogFire _ => none
  | .fwTrialTimeout => none
  | .moduleReset => none
  | .fabricIngressRequest _ _ _ _ _ _ _ => none
  | .acknowledgedAtHome _ _ => none
  | .linkTakenOutOfService _ => none
  | .linkUp _ => none

/-- An instruction of the 16-bit form (15 R266). -/
def Instr.isShort : Instr → Bool
  | .nop | .mov16 _ _ | .add16 _ _ | .sub16 _ _ | .mul16 _ _ | .and16 _ _ | .or16 _ _ | .xor16 _ _ | .shl16 _ _ | .shr16 _ _ | .min16 _ _ | .max16 _ _ | .fadd16 _ _ | .fsub16 _ _ | .fmul16 _ _ | .fmin16 _ _ | .fmax16 _ _ => true
  | _ => false

/-- Bytes from the head of an instruction to its end: 2 or 4 (15 R265). -/
def Instr.size (i : Instr) : Nat := if i.isShort then 2 else 4

/-- The instruction whose bits the opcode table numbers `w`, of `nbits` bits; bits above `nbits` are 0. -/
def decodeTableWord (nbits w : Nat) : Option Instr :=
  match decode (leBytes 4 (w % 2 ^ nbits)) with
  | .ok (i, _) => some i
  | .error _ => none

end Sys2Proof
end

