-- ==== Sys2Proof/Config.lean ====
section
/-! DEFINITION. What the manual leaves open: constants without a body, so that nothing can be proved of their values.
Each is a free value (00 R6), a choice of the hardware's that no rule fixes, or a secret of the module. -/
namespace Sys2Proof.Config

/-- What a byte of memory that nothing has written holds, by its key (06 R388, 02 R389). -/
opaque freeByte : Nat → Byte
/-- A 32-bit free value, by the model's counter (00 R6). -/
opaque freeWord : Nat → W32
/-- A 64-bit free value, by the model's counter (00 R6). -/
opaque freeWord64 : Nat → W64
/-- A choice among things the manual does not order, by the model's counter. -/
opaque freeChoice : Nat → Nat
/-- Whether a read-only cache returns its own line where memory has changed (07 R134). -/
opaque roKeeps : Nat → Bool
/-- Whether a TLB uses its own entry where the page table has changed, by its place, the page and the cycle (05 R98). -/
opaque tlbKeeps : Nat → Nat → Nat → Bool
/-- The channel of its I/O die that holds a 256-byte granule of the tier (06 R121). -/
opaque tierChannel : Nat → Nat
/-- The size code of a compressed granule, by its 256 bytes (06 R119); its low two bits count. -/
opaque packCode : List Byte → Nat
/-- The nanoseconds that a page-table walk or a stay behind refreshes takes, by the model's counter (05 R103, 06 R115). -/
opaque spentNs : Nat → Nat
/-- Whether a load reloads a line of a hardware-coherent page because its lease has run out, by the model's fresh number (07 R143). -/
opaque leaseOut : Nat → Bool
/-- Whether a virtual channel has a send permit left, by its number, the messages sent so far and the cycle (01 R16). -/
opaque channelRoom : Nat → Nat → Nat → Bool
/-- Whether another part is in whole mode, by its domain number and a grid's launch id (08 R152). -/
opaque wholeMode : Nat → Nat → Bool
/-- The module's serial number (14 R263). -/
opaque serial : BitVec 128
/-- The public key and certificate area of 1 KiB at 0x0400_0000_0400 (13 R248), byte by byte. -/
opaque certByte : Nat → Byte
/-- The average power of a die over the last millisecond, in milliwatts, by die and cycle (13 R249). -/
opaque dieMilliwatts : Nat → Nat → Nat
/-- SHA-384 of a list of bytes, its first byte lowest (13 R246, R248). -/
opaque sha384 : List Byte → BitVec 384
/-- Whether a 96-byte P-384 signature over bytes verifies under the fused firmware key (13 R246). -/
opaque firmwareKeyAccepts : List Byte → List Byte → Bool
/-- The P-384 signature of the part's identity key over bytes, 96 bytes, the first lowest (13 R248). -/
opaque identitySign : List Byte → BitVec 768

end Sys2Proof.Config
end

