-- ==== Sys2Proof/Machine/State.lean ====
section
/-! DEFINITION. The state of a T9 part, as plain data, and the state after module reset. INVENTORY.md lists every piece with
the rule that names it. Numbers that software never sees as words (counts, indexes, times) are natural numbers. -/
namespace Sys2Proof.Machine

/-- A sparse table: pairs of a key and a value, keys strictly rising. -/
abbrev Store (α : Type) := List (Nat × α)

/-! ## Faults and refusals of the MODEL (a fault of the T9 is a next state: 12 R216) -/

/-- Why the machine stops. -/
inductive Fault where
  /-- Raised by FABRIC_INGRESS_REQUEST for a physical address outside every range of 05 R94 (or outside the control
  range's areas of 13 R235): there is no such location. Safe: the model stops where the spec gives no effect. -/
  | physicalHole (pa : Nat)
deriving DecidableEq, Repr

/-- Why the model gives an instruction no meaning. -/
inductive Refusal where
  /-- Raised by an arm of `exec` whose instruction has no meaning yet. Safe. -/
  | notModelled (mnemonic : String)
deriving DecidableEq, Repr

/-- The three outcomes of a step of this machine. -/
abbrev Out (σ : Type) := Host.Outcome σ Fault Refusal

/-! ## Small records -/

/-- One path whose instruction acts: the group, the PC and the lanes of the path (02 R26); `wait`: the number of the wait that these
lanes end, 0 for a path that issues. -/
structure Issue where
  gid : Nat
  pc : Nat
  lanes : Mask
  wait : Nat
deriving DecidableEq, Repr

/-- What a fault record says of the fault itself: code, address, detail (12 R217). -/
structure FaultInfo where
  code : Nat
  addr : Nat
  detail : Nat
deriving DecidableEq, Repr

/-- A fault record (12 R216). -/
structure FRec where
  code : Nat
  kind : Nat
  lane : Nat
  group : Nat
  team : Nat
  launch : Nat
  addr : Nat
  pc : Nat
  detail : Nat
deriving DecidableEq, Repr

/-- The roles of a team (02 R35). -/
inductive Role where
  | loader | compute | storer
deriving DecidableEq, Repr

/-- The kinds of work unit a group can be (02 R18, 09 R172, 10 R197). -/
inductive GKind where
  | team | task | callout
deriving DecidableEq, Repr

/-- Where a group stands: in its slot, parked (02 R39), in an adoption frame (09 R176), in its save routine or taken
(02 R44), or ended and waiting for work it started (07 R139, 12 R221). -/
inductive Place where
  | resident | parked | framed | saving | taken
  | ending (fault : Option FRec)
deriving DecidableEq, Repr

/-- A run of bytes that lie at consecutive keys. -/
structure Seg where
  key : Nat
  len : Nat
deriving DecidableEq, Repr

/-! ## The scoreboard (02 R29) and waiting lanes (02 R24) -/

/-- Where a pending result comes from. -/
inductive PSrc where
  /-- data at hand: it lands at any later moment -/
  | ready
  /-- data of a remote page: it comes with the landing (14 R252); part and address, size in bytes, signed -/
  | remote (part addr size : Nat) (signed : Bool)
  /-- the status of a ray, by slot (10 R187) -/
  | ray (slot : Nat)
  /-- a launch id (08 R148) -/
  | launch
  /-- a work ticket (08 R154, 21 R305) -/
  | ticket
  /-- a matrix-engine read, by engine sequence number (04 R78) -/
  | engine (seq : Nat)
  /-- data at hand whose registers land poisoned (04 R84) -/
  | poisoned
deriving DecidableEq, Repr

/-- One pending result: what it writes, for which lanes, and what it holds when it lands; `bad`: the faults that the instruction's data
bring, each with its lane, the lowest first (24 R348); `due`: the deadlines of the memory requests that bring it, each with its requester
(06 R108); `atom`: it is the old value of an atomic; `msg`: how many messages the part had handed to its channels when its own request was
the last of them, 0 for none (01 R16); `agent`: the lane whose access brings a scalar register (25 R373). -/
structure Pend where
  id : Nat
  src : PSrc
  pc : Nat
  lanes : Mask
  regs : List Nat
  sreg : Option Nat
  writes : List (Nat × Nat × W32)
  swrite : W64
  bad : List (FaultInfo × Nat)
  due : List (Nat × Nat) := []
  atom : Bool := false
  msg : Nat := 0
  agent : Nat := 0
deriving DecidableEq, Repr

/-- What waiting lanes wait for. Those before `barDepart` end when a condition holds, and the rest of the instruction then acts;
the others end by an event of their own. -/
inductive Why where
  /-- pinned bytes (04 R75) -/
  | pin (segs : List Seg)
  /-- earlier accesses; for scope POD, acknowledgements too (07 R131) -/
  | fence (pod : Bool)
  /-- batches sealed before a count; 0 stands for room among 16 (07 R139) -/
  | batch (upTo : Nat)
  /-- bits of a scratchpad word (07 R141) -/
  | words (key mask : Nat)
  /-- a copy entry (22 R319) -/
  | room
  /-- a power grant for a copy (22 R319) -/
  | grant
  /-- GO words of group entries whose round is incomplete (14 R256) -/
  | go (entries : List Nat)
  /-- every live lane of the group at the same instruction -/
  | gather
  /-- the group's pending results, with every live lane of the group at the same ROLE (02 R37) -/
  | landed
  /-- CONV (23 R331) -/
  | conv
  /-- a site under a pre-emption request (02 R44) -/
  | site
  /-- acceptance of engine work before BGIVE (02 R37) -/
  | given
  /-- MXWAIT: work of the team accepted before it (04 R79) -/
  | engine (upTo : Nat)
  /-- BARARR: its own phase before (08 R161) -/
  | barArr (level n phase : Nat)
  /-- BARWT: level, number, phase (08 R161) -/
  | barwt (level n phase : Nat)
  /-- BARWT.REMOTE (08 R161) -/
  | remote (n : Nat)
  /-- RARRIVE: a full count of a team (08 R161) -/
  | full (team n : Nat)
  /-- RINGPUT and RINGGET (09 R178): ring and whether it puts -/
  | ring (n : Nat) (put : Bool)
  /-- TWAIT: the word, what it held, and the owner's control word with what it held (09 R175) -/
  | twait (key seen : Nat) (owner : Option (Nat × Nat))
  /-- LAUNCH and LAUNCHP waiting for a queue entry (08 R148) -/
  | launch
  /-- REPACK waiting for the team's lanes and pending results: its fields (10 R200) -/
  | repack (d a : Nat)
  /-- TRACE waiting for a ray slot of a stack (10 R189) -/
  | raySlot (stack : Nat)
  /-- BAR.lv after its arrival: level, number, phase (08 R161) -/
  | barDepart (level n phase : Nat)
  /-- MWAIT with its mask (07 R141) -/
  | mwait (mask : Nat)
  /-- BTAKE in the team's queue (02 R37) -/
  | btake
  /-- a matrix instruction that waits for acceptance (04 R68) -/
  | mxAccept (i : Instr)
deriving DecidableEq, Repr

/-- A copy that has passed its checks: source and destination runs, the key of the chunk bitmap (22 R316), and for the pages of each
what its memory requests carry from the page-table entries, FAMILY and HOME (05 R92, 06 R111): by twice the number of the physical page,
plus 1 for a page of the destination. -/
structure CopyPlan where
  src : List Seg
  dst : List Seg
  bitmap : Option Nat
  tags : List (Nat × Nat)
deriving DecidableEq, Repr

/-- Lanes that wait at an instruction that has issued (02 R24). `seq`: a number that rises from one wait to the next, as the numbers of
copies do; `i`, `snap`: the instruction and the group's scalar registers as they were when it issued (15 R279); `found`, `plans`: what
its checks found then, as lane, address and key, or as copies (15 R281). `tried` is what else the wait remembers: owners a TWAIT has
tried, sizes and addresses of copies, a ring's descriptor, the cycle at which a matrix instruction asked for a grant. `met`: the
condition of a wait on bits of a word has held after some write (07 R141). -/
structure Wait where
  pc : Nat
  lanes : Mask
  why : Why
  since : Nat
  seq : Nat
  i : Instr
  snap : Store W64
  found : List (Nat × Nat × Nat)
  plans : List CopyPlan
  tried : List Nat
  met : Bool
deriving DecidableEq, Repr

/-- How often a path has been passed over (02 R26). -/
structure PathRec where
  pc : Nat
  passed : Nat
deriving DecidableEq, Repr

/-! ## Groups (02 R18 to R44) -/

/-- One group: registers, PCs, scoreboard, waits and what binds it to its team, task or ray call-outs. `win`, `stride`: the physical
base of its lanes' private memory and the bytes of each lane there (05 R87); `ownWin`: that memory was allocated for it alone; a
team's groups share the team's, an adopted task uses its waiter's (09 R176). `unacked`: writes to
other parts not acknowledged yet, as lane, address and part; `dropped`: those discarded (14 R253). -/
structure Group where
  kind : GKind
  grid : Nat
  team : Nat
  index : Nat
  core : Nat
  quarter : Nat
  role : Role
  budget : Nat
  v : Store W32
  s : Store W64
  p : Store Mask
  pcs : Store Nat
  live : Mask
  fpmode : W64
  scene : W64
  floor : Nat
  priv : Nat
  win : Nat
  stride : Nat
  ownWin : Bool
  monitor : Option (Nat × Nat × W64)
  pend : List Pend
  waits : List Wait
  paths : List PathRec
  issued : Store Nat
  lastIssue : Nat
  yielded : Option Nat
  lastBatch : Nat
  sealSeq : Nat
  arrivals : List (Nat × Nat × Nat)
  posted : Option Role
  place : Place
  halted : Bool
  saveArea : Option Nat
  savedLive : Mask
  restore : Nat
  task : Nat
  depth : Nat
  parent : Option Nat
  rays : List (Nat × Nat × Nat)
  strict : Bool
  poison : List Nat
  dropped : List (Nat × Nat)
  unacked : List (Nat × Nat × Nat)
  parkT : Nat
deriving DecidableEq, Repr

/-! ## Teams -/

/-- One phase of a barrier: its number, when it began, whether a group of this part has arrived in it by an instruction, the
arrivals and retirements in it (group, die, time), the times at which parts arrived, this one included (part, phase, time), and the
counts of the tokens received, by phase (08 R160, R162; 14 R261). -/
structure Bar where
  phase : Nat
  begun : Nat
  came : Bool
  arr : List (Nat × Nat × Nat)
  tokens : List (Nat × Nat × Nat)
  got : List (Nat × Nat)
deriving DecidableEq, Repr

/-- A ring's counters and the entries that may be taken (09 R177, R178). -/
structure Ring where
  put : Nat
  get : Nat
deriving DecidableEq, Repr

/-- One team on its core. `win`, `len`: its region of the private pool (05 R87, 12 R229); `gone`: its groups that have ended, with the quarter whose slot the team keeps for each, 4 for none;
`fed`: the holder of its baton has given the engine an instruction (02 R38); `lowSince`, `highSince`: since when the watched ring has met
each of the two conditions of 09 R179. -/
structure Team where
  grid : Nat
  index : Nat
  core : Nat
  q0 : Nat
  scr : Nat
  scrId : Nat
  tiles : Nat
  tileId : Nat
  win : Nat
  len : Nat
  groups : Nat
  gone : List (Nat × Nat)
  holder : Option Nat
  batonQ : List Nat
  chain : Option Nat
  fed : Bool
  mxSeq : Nat
  remote : List Nat
  cursor : Nat
  rings : Store Ring
  bars : Store Bar
  lowSince : Option Nat
  highSince : Option Nat
  poisonCols : List Nat
  saved : Bool
deriving DecidableEq, Repr

/-! ## Grids (08 R144 to R167) -/

/-- A launch record, read once at acceptance (08 R144). -/
structure LaunchRec where
  addr : Nat
  codeBase : Nat
  entry : Nat
  coRes : Bool
  pod : Bool
  cancelOnFault : Bool
  strict : Bool
  stealable : Bool
  cls : Nat
  prio : Nat
  x : Nat
  y : Nat
  z : Nat
  groups : Nat
  cset : Nat
  budL : Nat
  budC : Nat
  budS : Nat
  scr : Nat
  tiles : Nat
  argp : Nat
  holdp : Nat
  schedp : Nat
  cw : Nat
  fa : Nat
  hdrp : Nat
  firstPart : Nat
  partCount : Nat
  streak : Nat
  m : Nat
  lag : Nat
  stack : Nat
  priv : Nat
  ring : Nat
  strag : Nat
deriving DecidableEq, Repr

/-- A kernel header (02 R42). -/
structure Hdr where
  roles : Bool
  eL : Nat
  eC : Nat
  eS : Nat
  nL : Nat
  nC : Nat
  nS : Nat
  sites : Nat
  saveBytes : Nat
  table : Nat
deriving DecidableEq, Repr

/-- A copy schedule header (09 R180). -/
structure Sched where
  n : Nat
  teamStride : Nat
  roundStride : Nat
deriving DecidableEq, Repr

/-- One extent of a hold list (05 R99). -/
structure Extent where
  base : Nat
  len : Nat
  write : Bool
deriving DecidableEq, Repr

/-- How far a grid has come: its pages are awaited (05 R100), replies are awaited (08 R151), it runs, or it has a final STATUS. -/
inductive GState where
  | presence | replies | reserved | runs | done
deriving DecidableEq, Repr

/-- Pre-emption of a grid (12 R224 to R227). -/
inductive PreState where
  | none | pending | complete | resuming
deriving DecidableEq, Repr

/-- One shading group of CLASSIFY: entry offset, material, and per lane the pixel, triangle id and depth key (11 R213). -/
structure Shade where
  entry : Nat
  mat : Nat
  px : List (W32 × W32 × W32)
deriving DecidableEq, Repr

/-- The straggler data of a grid: entries by member, phases, steals, log (08 R162, R165). -/
structure Strag where
  grid : Store Nat
  part : Store Nat
  gridPhases : Nat
  partPhases : Nat
  steals : Nat
  firstArr : Nat
  log : List (Nat × Nat × Nat × Nat × Nat × Nat)
deriving DecidableEq, Repr

/-- One grid, from its acceptance on. `others`: the teams retired on other parts, `partsDone`: how many of those have reported that nothing
of it is left there (08 R147, 14 R261); `spent`: the neighbour that a STEAL found empty (08 R164). -/
structure Grid where
  r : LaunchRec
  h : Hdr
  cs : Sched
  asid : Nat
  root : Nat
  part : Nat
  ctx : Nat
  die : Nat
  child : Bool
  cmd : Option (Nat × Nat)
  gang : Bool
  launcher : Bool
  member : Nat
  state : GState
  tickets : List (Nat × Nat)
  work : List (Nat × Nat)
  reserved : List (Nat × Nat)
  retired : Nat
  others : Nat
  partsDone : Nat
  faults : Nat
  recs : List FRec
  faulted : Bool
  cancelled : Bool
  killed : Bool
  status : Nat
  began : Nat
  sent : Nat
  replies : List (Nat × Nat)
  holdFail : Bool
  bars : Store Bar
  strag : Strag
  pre : PreState
  tasks : List Nat
  openRays : Nat
  shades : List Shade
  extents : List Extent
  stealOut : Option Nat
  spent : Option Nat
  pend : Option (Nat × Nat)
deriving DecidableEq, Repr

/-! ## Memory -/

/-- The partials of RED.FADD.F32 at one location: the base and the addends not yet combined for good (07 R133). -/
structure RedLog where
  base : W32
  xs : List W32
deriving DecidableEq, Repr

/-- All bytes of the part: `cells` by key (physical addresses, scratchpads, private memory and tiles lie in disjoint key
ranges), poisoned 16-byte units with their place (12 R231), and reduction partials. -/
structure Memory where
  cells : List Host.Cell
  poison : Store Nat
  red : Store RedLog
deriving DecidableEq, Repr

/-! ## Translation -/

/-- One address space (05 R91, 13 R240). -/
structure Space where
  root : Nat
  ring : Nat
  part : Nat
  ctx : Nat
deriving DecidableEq, Repr

/-- A translation: the leaf entry, its level, and the base and size of what it maps (05 R91 to R93). -/
structure Leaf where
  pte : Nat
  level : Nat
  base : Nat
  size : Nat
deriving DecidableEq, Repr

/-- A cached translation at a place: 0 to 191 core, 192 to 199 base die, 200 to 203 shader die, of an address space of a partition
(05 R97); `held`: it came from a hold map (05 R101). -/
structure TlbEntry where
  place : Nat
  part : Nat
  asid : Nat
  leaf : Leaf
  held : Bool := false
deriving DecidableEq, Repr

/-- A held page of a grid (its launch id) or of a task (its record's address and space), and the context whose hold pool keeps its
map: 05 R100, R101. -/
structure Held where
  part : Nat
  ctx : Nat
  asid : Nat
  page : Nat
  leaf : Leaf
  task : Bool
  owner : Nat
  slot : Nat := 0
deriving DecidableEq, Repr

/-- A presence request (05 R100, 13 R239), the level at which the walk found no entry, and whether it has been granted. -/
structure Presence where
  part : Nat
  seq : Nat
  asid : Nat
  va : Nat
  level : Nat
  task : Bool
  owner : Nat
  since : Nat
  granted : Bool
deriving DecidableEq, Repr

/-- The translation hardware and the cores' caches: address spaces, TLBs, read-only caches, holds, presence requests, and the lines of
128 bytes, by core and number, whose bytes a core's L1 may still have to write back (07 R136). -/
structure Mmu where
  spaces : Store Space
  tlb : List TlbEntry
  ro : Store (List Byte)
  held : List Held
  asked : List Presence
  seqs : List Nat
  dirty : List (Nat × Nat)
deriving DecidableEq, Repr

/-! ## Dispatch -/

/-- A region set aside for the T9, and how much of it is in use (13 R238). -/
structure Pool where
  base : Nat
  size : Nat
  used : Nat
deriving DecidableEq, Repr

/-- One context of a partition (12 R230, 13 R238). -/
structure Ctx where
  park : Nat
  priv : Pool
  hold : Pool
  save : Pool
deriving DecidableEq, Repr

/-- An entry of a pending-launch queue (08 R149), with the holds of the group or task that launched (05 R102). -/
structure LEntry where
  core : Nat
  addr : Nat
  gid : Nat
  pend : Nat
  pod : Bool
  grid : Nat
  asid : Nat
  strict : Bool
  task : Bool
  owner : Nat
deriving DecidableEq, Repr

/-- A call-out as the Spire unit raises it: the ray's slot and number, and the rest (10 R197); `left`: the message of its group has got its
send permit (01 R16). -/
structure Callout where
  ray : Nat
  pend : Nat
  stack : Nat
  grid : Nat
  entry : Nat
  budget : Nat
  kind : Nat
  regs : List W32
  since : Nat
  left : Bool := true
deriving DecidableEq, Repr

/-- An item of a ready pool: a task (record address, space) or a call-out group (09 R172, 10 R197). -/
inductive Ready where
  | task (addr : Nat) (grid prio order : Nat)
  | calls (cs : List Callout) (grid prio order : Nat)
deriving DecidableEq, Repr

/-- A cancel on its way to this part (08 R158). -/
structure Cancel where
  grid : Nat
  kill : Bool
deriving DecidableEq, Repr

/-- The dispatchers, the park areas and the pools; `running`: each partition's running context; `halting`: partitions whose running context
a SWAP is halting, with the cycle at which that began (12 R228). -/
structure Disp where
  whole : Bool
  slices : Nat
  ctxs : Store Ctx
  running : List Nat
  halting : Store Nat
  lq : List LEntry
  rr : List Nat
  seq : Nat
  admits : List (Nat × Nat × Nat)
  pools : List (Nat × Ready)
  order : Nat
  cancels : List Cancel
deriving DecidableEq, Repr

/-! ## Engines -/

/-- What an accepted matrix-engine instruction does when it reaches the head of its team's queue (04 R69 to R82). -/
inductive MxKind where
  /-- MXISSUE: formats, tile, K, overwrite, scale byte, scale words, captured elements of A by row and of B by column, k-steps
  done -/
  | issue (fa fb facc tile k : Nat) (wipe : Bool) (n : Nat) (sa sb : Option (List W32)) (ea eb : List Nat) (done : Nat)
  | zero (tile : Nat)
  | rd (tile c d : Nat) (lanes : Mask) (pend : Nat)
  | wr (tile c : Nat) (lanes : Mask) (vals : List (Nat × Nat × W32))
  /-- MXDRAIN: accumulator format, tile, program, the words that its instructions read at acceptance by their index, output
  segments of the 32 rows -/
  | drain (facc tile : Nat) (prog : List Nat) (data : List (Nat × List W32)) (out : List (List Seg))
  /-- an MXDRAIN that has stored: the parts that have still to acknowledge output of it -/
  | sent (parts : List Nat)
deriving DecidableEq, Repr

/-- An accepted matrix-engine instruction: its number, who issued it, the rows of bytes of its operands A and B, each operand with whether
k runs along a row, the pin flag, its chain, and whether an operand unit was poisoned before it was read (04 R75, R84). A completed
MXISSUE with the pin flag stays listed until its chain completes. `tags`: what a drain's requests carry (`CopyPlan`). -/
structure MxOp where
  seq : Nat
  team : Nat
  gid : Nat
  core : Nat
  kind : MxKind
  rows : List (Bool × List (List Seg))
  pinFlag : Bool
  chain : Nat
  tainted : Bool
  tags : List (Nat × Nat) := []
deriving DecidableEq, Repr

/-- A holder of a power grant: a core's matrix engine, a copy instruction that waits, or an accepted copy by its entry
(04 R83, 22 R319). -/
inductive Holder where
  | engine (core : Nat)
  | copy (gid pc : Nat)
  | entry (ent : Nat)
deriving DecidableEq, Repr

/-- A copy in flight to one target (07 R138, 22 R318): its entry (0 for LDA, which takes none), source and destination bytes,
the source's bytes where the two overlap, length, chunks still to write, pieces sent to other parts and not acknowledged yet (chunk,
part), chunks written whose bit is still to be set, the key of the chunk bitmap, how many batches its group had sealed before it, its
class, and what its requests carry (`CopyPlan`). -/
structure Copy where
  id : Nat
  gid : Nat
  core : Nat
  ent : Nat
  src : List Seg
  dst : List Seg
  cap : Option (List Byte)
  n : Nat
  left : List Nat
  sent : List (Nat × Nat)
  bits : List Nat
  bitmap : Option Nat
  batch : Nat
  cls : Nat
  tags : List (Nat × Nat)
deriving DecidableEq, Repr

/-- Matrix engines, copy engines and power grants. -/
structure Eng where
  ops : List MxOp
  grants : List (Nat × Holder)
  asking : List (Nat × Holder × Nat)
  idle : Store Nat
  copies : List Copy
deriving DecidableEq, Repr

/-! ## Rays (10) -/

/-- An exact ratio, or an infinity: a ray parameter (10 R192). -/
inductive XFrac where
  | negInf
  | fin (num : Int) (den : Nat)
  | posInf
deriving DecidableEq, Repr

/-- The space a ray traverses in: origin and direction words, instance id and call-out offset (10 R192). -/
structure RSpace where
  o : List W32
  d : List W32
  inst : Nat
  off : Nat
deriving DecidableEq, Repr

/-- What waits on a ray's stack: a node, a leaf's child info and first record, records of a leaf still to test, or a link
(10 R185, R192). -/
inductive RItem where
  | node (off : Nat)
  | leaf (off info : Nat) (tn : XFrac)
  | recs (off count : Nat) (tn : XFrac) (inst nonOpaque proc : Bool)
  | link (treelet : Nat) (tn : XFrac)
deriving DecidableEq, Repr

/-- A deferred treelet (10 R192). -/
structure Deferred where
  treelet : Nat
  tn : XFrac
  sp : RSpace
  bottom : Bool
deriving DecidableEq, Repr

/-- A committed or candidate hit (10 R193). -/
structure Hit where
  t : W32
  u : W32
  v : W32
  inst : Nat
  prim : Nat
  back : Bool
  proc : Bool
  verdict : Bool
  ver : Nat
deriving DecidableEq, Repr

/-- Where a ray is (10 R188, R190, R192, R201). `ended`: status, fault code, detail and address. -/
inductive RState where
  | flight | queued | spilled | held | taken | inside | callout | parked
  | ended (status code detail addr : Nat)
deriving DecidableEq, Repr

/-- The treelet a ray is inside: id, the key of its entry, BASE, SIZE, VERSION, whether bottom level, and counted old
(10 R192, R199). -/
structure Inside where
  treelet : Nat
  entry : Nat
  base : Nat
  size : Nat
  ver : Nat
  bottom : Bool
  old : Bool
deriving DecidableEq, Repr

/-- The top treelet that a ray stays inside while it walks a bottom treelet of the same stack (10 R192). -/
structure Outer where
  inn : Inside
  sp : RSpace
  stack : List RItem
deriving DecidableEq, Repr

/-- One ray in flight, by its slot (10 R188). `treelet`, `dsp` and `dbottom` name what it is bound for; `home` the stack it is in
or bound for; `src` and `sent` say who sent its message, a core or 256 plus a stack, and in what order, and `left` that the message has got
its send permit (01 R16); `heldAt` is the key of the LOCKED entry at which it is held, and `out` says that its message then stands in its
overflow entry (10 R190); `cand` the candidate of an outstanding call-out; `budget` the visits left before it parks. -/
structure Ray where
  gid : Nat
  pend : Nat
  lane : Nat
  group : Nat
  team : Nat
  task : Bool
  strict : Bool
  core : Nat
  pc : Nat
  grid : Nat
  asid : Nat
  o : List W32
  d : List W32
  tmin : W32
  tbest : W32
  tmax : W32
  flags : Nat
  mask : Nat
  coi : Nat
  hitVa : Nat
  id : Nat
  home : Nat
  stackNo : Nat
  src : Nat
  sent : Nat
  heldAt : Nat
  treelet : Nat
  dsp : RSpace
  dbottom : Bool
  steps : Nat
  table : Nat
  count : Nat
  calls : Nat
  limit : Nat
  st : RState
  arrived : Nat
  inn : Option Inside
  outer : Option Outer
  rootVer : Option Nat
  sp : RSpace
  stack : List RItem
  deferred : List Deferred
  hit : Option Hit
  cand : Option Hit
  budget : Option Nat
  left : Bool := true
  out : Bool := false
deriving DecidableEq, Repr

/-- The Spire units: rays by slot, spilled order, gathered call-outs. -/
structure Spire where
  rays : Store Ray
  gather : List Callout
  parked : List Nat
deriving DecidableEq, Repr

/-! ## Control plane (13) -/

/-- A command accepted and not yet completed: entry count, launch ids of its grids (13 R243). -/
structure Cmd where
  n : Nat
  grids : List Nat
deriving DecidableEq, Repr

/-- A queue: its control block's address and contents in force, the head count, the state (13 R240 to R245). -/
structure Queue where
  mapped : Bool
  slot : Option Nat
  age : Nat
  block : Nat
  base : Nat
  size : Nat
  asid : Nat
  prio : Nat
  part : Nat
  ctx : Nat
  root : Nat
  tail : Nat
  headBlk : Nat
  gang : Nat
  fa : Nat
  ring : Nat
  head : Nat
  seen : Nat
  state : Nat
  op : Nat
  code : Nat
  waitSince : Option Nat
  faRecs : Nat
  run : List Cmd
deriving DecidableEq, Repr

/-- An event held back until its ring has room (13 R239): ring (0 system, otherwise an address space id plus 1), 32 bytes
as code, partition and operands. -/
structure Event where
  ring : Nat
  code : Nat
  part : Nat
  w : Nat
  x : Nat
  y : Nat
  z : Nat
deriving DecidableEq, Repr

/-- Campanile and the Turrets. `down`, `up`: messages of the command links from Campanile and to it, in the order in which they were sent,
each with its Turret: the queue whose slot is given or taken away, and what Campanile is to report (13 R233). `skip`: after an overrun of
the request ring, the count at which serving stops and the count that take then gets (13 R236). -/
structure Ctrl where
  queues : Store Queue
  down : List (Nat × Nat)
  up : List (Nat × Event)
  events : List Event
  skip : Option (Nat × Nat)
  accept : BitVec 128
  acceptDone : Bool
deriving DecidableEq, Repr

/-! ## Fabric (14) -/

/-- A group entry at work: its join is under way, the group is live, the number of the last round begun, whether that round is
incomplete, the group and lane whose GO store waits for its release, the contribution and when it was made, and the last of the rounds
that were aborted before this member contributed (14 R255 to R260). -/
structure GrpRound where
  asked : Bool
  live : Bool
  round : Nat
  busy : Bool
  go : Option (Nat × Nat)
  data : List Byte
  since : Nat
  late : Option Nat
deriving DecidableEq, Repr

/-- A message sent to another endpoint (14 R250, R251): destination, virtual channel, operation by a code, words. `data`: the bytes of
data that it carries, 8 for each word where none are given; `cls`, `stamp`: service class and deadline stamp; `port`: the port it
leaves by where that is known; `src`: the part that sent it; `owner`: the lane of a group whose access it is, or the copy (lane 32) or the
drain (lane 33) of that number. -/
structure Msg where
  dest : Nat
  vc : Nat
  op : Nat
  words : List Nat
  data : Option Nat := none
  cls : Nat := 0
  stamp : Nat := 0xFFF
  port : Option Nat := none
  src : Nat := 0
  owner : Option (Nat × Nat) := none
deriving DecidableEq, Repr

/-- The fabric side of the part: its group entries, the joins that the switches hold by group number (part, fields), ports whose
links are up, parts that cannot be reached, what the part has handed to the channels, in order, and for each virtual channel how many of
the last of those still wait for a send permit (01 R16). -/
structure Fab where
  groups : Store GrpRound
  joins : Store (List (Nat × Nat))
  links : BitVec 18
  unreachable : List Nat
  sent : List Msg
  stalled : List Nat
deriving DecidableEq, Repr

/-! ## Memory system (06) -/

/-- A request at a pseudo-channel (06 R104 to R108): the in-channel address, the sector's number, its class, deadline and requester (506
for a unit without a number in R108); whether it fills a Cupola sector (R117); the pending result that it serves, whose landing
counts the miss; and requesters and deadlines of the requests that wait for the sector that it fills. -/
structure MemReq where
  id : Nat
  pc : Nat
  addr : Nat
  sector : Nat
  cls : Nat
  deadline : Option Nat
  arrived : Nat
  requester : Nat
  write : Bool
  family : Nat
  span : Nat
  fill : Bool
  serves : Option Nat
  judge : List (Nat × Nat) := []
deriving DecidableEq, Repr

/-- A Cupola line: sectors held, sectors touched, and the predictor entry that filled it (06 R116, R117). -/
structure CLine where
  held : Mask
  touched : Mask
  entry : Nat
deriving DecidableEq, Repr

/-- A write or an addition that the T9 makes for itself and that waits for a pinned line: partition, key, bytes, value (04 R75). -/
structure LateW where
  part : Nat
  key : Nat
  n : Nat
  w : Nat
  add : Bool
  most : Bool := false
deriving DecidableEq, Repr

/-- Requests queued, open rows and postponed refreshes by bank, Cupola's lines, the predictors (4,096 entries for each base die), the
family and target of a span's running sweep, hotness counters, families that have passed the threshold in their span's window, when the windows and epochs began, and by block of a
compressed family the bytes it held when its metadata was cleared (06 R119); the sectors of 64 bytes that the L2 holds, by number
(01 R11); the T9's own writes that wait, in order; and the words that the atomics and reductions of the present step have written, by key,
with what each then held, for the monitors that wait on them (07 R141). -/
structure MSys where
  reqs : List MemReq
  rows : Store Nat
  postponed : Store Nat
  predictor : Store Mask
  cupola : Store CLine
  sweeps : Store (Nat × Nat)
  hot : Store Nat
  passed : List Nat
  window : List Nat
  epoch : List Nat
  cleared : Store (List Host.Cell)
  l2 : List Nat
  late : List LateW
  wrote : List (Nat × Nat)
deriving DecidableEq, Repr

/-! ## Firmware (13 R246) -/

/-- An installed image. -/
structure Image where
  body : List Byte
  version : Nat
deriving DecidableEq, Repr

/-- The firmware slots. -/
structure Fw where
  slots : List Image
  running : Nat
  next : Option Nat
  trial : Bool
  started : Nat
  minimum : Nat
deriving DecidableEq, Repr

/-! ## The whole -/

/-- The model's own inputs and counters (log 5 to 7): inputs to come, each after a number of steps; lengths of cycles' steps; for
steps to come, which of the enabled actions comes next; time since the first reset, the cycle of the last module reset, the
counter of free values, the next fresh number, the quarter whose turn it is. -/
structure Env where
  agenda : List (Nat × Instr)
  clock : List Nat
  order : List Nat
  cycle : Nat
  resetAt : Nat
  freeCtr : Nat
  fresh : Nat
  turn : Nat
deriving DecidableEq, Repr

/-- The state of the part. -/
structure State where
  env : Env
  cur : Option Issue
  pendB : Option Issue
  groups : Store Group
  teams : Store Team
  grids : Store Grid
  mem : Memory
  ctl : Store W64
  mmu : Mmu
  disp : Disp
  eng : Eng
  spire : Spire
  ctrl : Ctrl
  fab : Fab
  msys : MSys
  fw : Fw
  log : List FRec
deriving DecidableEq, Repr

/-- The state after module power-on reset (00 R4, 06 R388, 13 R246, R247, R249). -/
def State.reset : State where
  env := { agenda := [], clock := [], order := [], cycle := 0, resetAt := 0, freeCtr := 0, fresh := 1, turn := 0 }
  cur := none
  pendB := none
  groups := []
  teams := []
  grids := []
  mem := { cells := [], poison := [], red := [] }
  ctl := []
  mmu := { spaces := [], tlb := [], ro := [], held := [], asked := [], seqs := [0, 0, 0, 0, 0, 0, 0, 0], dirty := [] }
  disp := { whole := true, slices := 0xFF, ctxs := [], running := [0, 0, 0, 0, 0, 0, 0, 0], halting := [], lq := [], rr := [0, 0, 0, 0],
            seq := 1, admits := [], pools := [], order := 0, cancels := [] }
  eng := { ops := [], grants := [], asking := [], idle := [], copies := [] }
  spire := { rays := [], gather := [], parked := [] }
  ctrl := { queues := [], down := [], up := [], events := [], skip := none, accept := 0, acceptDone := false }
  fab := { groups := [], joins := [], links := 0, unreachable := [], sent := [], stalled := [0, 0, 0, 0, 0, 0] }
  msys := { reqs := [], rows := [], postponed := [], predictor := [], cupola := [], sweeps := [], hot := [], passed := [],
            window := [0, 0, 0, 0, 0, 0, 0, 0], epoch := [0, 0], cleared := [], l2 := [], late := [], wrote := [] }
  fw := { slots := [{ body := [], version := 0 }, { body := [], version := 0 }], running := 0, next := none, trial := false,
          started := 0, minimum := 0 }
  log := []

end Sys2Proof.Machine
end

