-- ==== Sys2Proof/Machine/Store.lean ====
section
/-! DEFINITION. Sparse tables, bit fields of numbers, and lane masks. -/
namespace Sys2Proof.Machine

/-- The value at a key. -/
def Store.get? {α : Type} : Store α → Nat → Option α
  | [], _ => none
  | (k, v) :: t, q => if k = q then some v else Store.get? t q

/-- The table with the value at a key set; keys stay strictly rising. -/
def Store.set {α : Type} : Store α → Nat → α → Store α
  | [], q, x => [(q, x)]
  | (k, v) :: t, q, x =>
    if q < k then (q, x) :: (k, v) :: t
    else if k = q then (q, x) :: t
    else (k, v) :: Store.set t q x

/-- The table without a key. -/
def Store.erase {α : Type} : Store α → Nat → Store α
  | [], _ => []
  | (k, v) :: t, q => if k = q then Store.erase t q else (k, v) :: Store.erase t q

/-- A table whose unlisted keys hold `d`: the value at a key. -/
def Store.getD {α : Type} (m : Store α) (q : Nat) (d : α) : α := (m.get? q).getD d

/-- A table whose unlisted keys hold `d`: writing `d` unlists the key. -/
def Store.put {α : Type} [DecidableEq α] (m : Store α) (q : Nat) (x d : α) : Store α :=
  if x = d then m.erase q else m.set q x

/-- The table with the value at a listed key changed. -/
def Store.modify {α : Type} (m : Store α) (q : Nat) (f : α → α) : Store α :=
  match m.get? q with
  | some v => m.set q (f v)
  | none => m

/-- The values in rising order of keys. -/
def Store.vals {α : Type} (m : Store α) : List α := m.map (·.2)

/-- Keys strictly rising. -/
def Store.wf {α : Type} : Store α → Bool
  | [] => true
  | [_] => true
  | (k, _) :: (j, w) :: t => decide (k < j) && Store.wf ((j, w) :: t)

/-! ## Bit fields of numbers -/

/-- Bits [hi:lo] of a number. -/
def bits (w hi lo : Nat) : Nat := w / 2 ^ lo % 2 ^ (hi + 1 - lo)

/-- Bit `i` of a number. -/
def bit (w i : Nat) : Bool := w / 2 ^ i % 2 == 1

/-- A number with bits [hi:lo] replaced. -/
def setBits (w hi lo x : Nat) : Nat := w - bits w hi lo * 2 ^ lo + x % 2 ^ (hi + 1 - lo) * 2 ^ lo

/-- Sign extension of an `n`-bit number to a 64-bit address offset. -/
def sext64 (n w : Nat) : Nat := if bit w (n - 1) then w % 2 ^ n + (2 ^ 64 - 2 ^ n) else w % 2 ^ n

/-- Addition of 64-bit addresses (05 R85). -/
def add64 (a b : Nat) : Nat := (a + b) % 2 ^ 64

/-- Little-endian bytes as a number (00 R2). -/
def fromLe : List Byte → Nat
  | [] => 0
  | b :: t => b.toNat + 256 * fromLe t

/-- The low `n` bytes of a number, the first at the lowest address (00 R2). -/
def toLe : Nat → Nat → List Byte
  | 0, _ => []
  | n + 1, w => BitVec.ofNat 8 w :: toLe n (w / 256)

/-- Division rounding up. -/
def ceilDiv (a b : Nat) : Nat := (a + b - 1) / b

/-- The parity of a number's bits, looking at the lowest `fuel` bits. -/
def parity : Nat → Nat → Nat
  | 0, _ => 0
  | f + 1, w => (w % 2 + parity f (w / 2)) % 2

/-! ## Lanes -/

/-- The lanes of a mask, in ascending order. -/
def lanesOf (m : Mask) : List Nat := (List.range 32).filter (fun l => m.getLsbD l)

/-- The mask of one lane. -/
def laneBit (l : Nat) : Mask := BitVec.ofNat 32 (2 ^ l)

/-- How many lanes a mask holds. -/
def laneCount (m : Mask) : Nat := (lanesOf m).length

/-- The lowest lane of a mask; 0 when it is empty. -/
def lowLane (m : Mask) : Nat := (lanesOf m).headD 0

/-- The mask of the lanes that satisfy a test. -/
def maskOf (f : Nat → Bool) : Mask := (List.range 32).foldl (fun m l => if f l then m ||| laneBit l else m) 0

/-- The greatest number of a list; 0 when it is empty. -/
def maxOf (l : List Nat) : Nat := l.foldl max 0

/-- The element of a list with the least key; ties go to the first. -/
def leastBy {α : Type} (key : α → Nat) : List α → Option α
  | [] => none
  | x :: t =>
    match leastBy key t with
    | none => some x
    | some y => if key y < key x then some y else some x

end Sys2Proof.Machine
end

