-- ==== Sys2Proof/Machine/Float.lean ====
section
/-! DEFINITION. Floating-point values to the last bit (03 R45 to R66, 23 R335 to R340, 24 R342). Values are exact ratios and
dyadic numbers of integers; a result is rounded once. -/
namespace Sys2Proof.Machine

/-- The floating-point formats (03 R45). -/
inductive Fmt where
  | f32 | f16 | bf16 | e5m2 | e4m3
deriving DecidableEq, Repr

/-- The rounding modes (03 R52, R53). -/
inductive RM where
  | rne | rtz | rup | rdn
deriving DecidableEq, Repr

/-- Rounding mode by its code in FPMODE.RM (03 R52). -/
def rmOf (n : Nat) : RM := match n % 4 with | 0 => .rne | 1 => .rtz | 2 => .rup | _ => .rdn

/-- Fraction bits (03 R45). -/
def Fmt.frac : Fmt → Nat | .f32 => 23 | .f16 => 10 | .bf16 => 7 | .e5m2 => 2 | .e4m3 => 3
/-- Exponent bits (03 R45). -/
def Fmt.expo : Fmt → Nat | .f32 => 8 | .f16 => 5 | .bf16 => 8 | .e5m2 => 5 | .e4m3 => 4
/-- Exponent bias (03 R45). -/
def Fmt.bias : Fmt → Nat | .f32 => 127 | .f16 => 15 | .bf16 => 127 | .e5m2 => 15 | .e4m3 => 7
/-- The sign bit's weight. -/
def Fmt.sign (f : Fmt) : Nat := 2 ^ (f.frac + f.expo)
/-- The canonical NaN (03 R47). -/
def Fmt.nan : Fmt → Nat | .f32 => 0x7FC00000 | .f16 => 0x7E00 | .bf16 => 0x7FC0 | .e5m2 => 0x7E | .e4m3 => 0x7F
/-- The pattern of the largest finite magnitude (03 R45, R46). -/
def Fmt.maxPat : Fmt → Nat | .f32 => 0x7F7FFFFF | .f16 => 0x7BFF | .bf16 => 0x7F7F | .e5m2 => 0x7B | .e4m3 => 0x7E
/-- The pattern that overflow to infinity writes; E4M3 writes its largest magnitude (03 R53). -/
def Fmt.infPat (f : Fmt) : Nat := match f with | .e4m3 => 0x7E | _ => f.maxPat + 1

/-- A value: NaN, an infinity, or a finite dyadic number with a sign, (-1)^s m 2^e. -/
inductive FVal where
  | nan
  | inf (s : Bool)
  | fin (s : Bool) (m : Nat) (e : Int)
deriving DecidableEq, Repr

/-- The value an encoding holds (03 R45, R46). -/
def unpack (f : Fmt) (w : Nat) : FVal :=
  let s := bit w (f.frac + f.expo)
  let e := bits w (f.frac + f.expo - 1) f.frac
  let m := w % 2 ^ f.frac
  if e = 2 ^ f.expo - 1 && (f != .e4m3 || m = 7) then
    if m = 0 then .inf s else .nan
  else if e = 0 then .fin s m (1 - (f.bias : Int) - f.frac)
  else .fin s (2 ^ f.frac + m) ((e : Int) - f.bias - f.frac)

/-- A signed pattern. -/
def withSign (f : Fmt) (s : Bool) (p : Nat) : Nat := if s then p + f.sign else p

/-- Floor of log2 of a positive ratio. -/
def log2Ratio (num den : Nat) : Int :=
  let e : Int := (Nat.log2 num : Int) - Nat.log2 den
  let ok := if 0 ≤ e then decide (den * 2 ^ e.toNat ≤ num) else decide (den ≤ num * 2 ^ (-e).toNat)
  if ok then e else e - 1

/-- Whether rounding moves the magnitude up, from the kept integer, the doubled remainder and the divisor (03 R53). -/
def roundsUp (rm : RM) (s : Bool) (q r2 d : Nat) : Bool :=
  match rm with
  | .rne => decide (d < r2) || (r2 == d && q % 2 == 1)
  | .rtz => false
  | .rup => !s && decide (0 < r2)
  | .rdn => s && decide (0 < r2)

/-- What overflow gives (03 R53). -/
def overflowPat (f : Fmt) (rm : RM) (s : Bool) : Nat :=
  match rm with
  | .rne => f.infPat
  | .rtz => f.maxPat
  | .rup => if s then f.maxPat else f.infPat
  | .rdn => if s then f.infPat else f.maxPat

/-- The positive ratio num / den with sign `s`, rounded once to a format (03 R53, R49). -/
def roundRatio (f : Fmt) (rm : RM) (s : Bool) (num den : Nat) : Nat :=
  if num = 0 then withSign f s 0 else
  let e := log2Ratio num den
  let emin : Int := 1 - (f.bias : Int)
  let q : Int := (if e < emin then emin else e) - f.frac
  let n := if q < 0 then num * 2 ^ (-q).toNat else num
  let d := if q < 0 then den else den * 2 ^ q.toNat
  let k := n / d
  let k' := if roundsUp rm s k (2 * (n % d)) d then k + 1 else k
  let pat : Int := if k' < 2 ^ f.frac then (k' : Int) else (q + f.frac + f.bias) * 2 ^ f.frac + ((k' : Int) - 2 ^ f.frac)
  withSign f s (if (f.maxPat : Int) < pat then overflowPat f rm s else pat.toNat)

/-- The ratio of a magnitude m 2^e. -/
def dyNum (m : Nat) (e : Int) : Nat := if 0 ≤ e then m * 2 ^ e.toNat else m
/-- Its denominator. -/
def dyDen (e : Int) : Nat := if 0 ≤ e then 1 else 2 ^ (-e).toNat

/-- A dyadic integer m 2^e, rounded; an exact zero takes the sign given (03 R53). -/
def roundDy (f : Fmt) (rm : RM) (zs : Bool) (m : Int) (e : Int) : Nat :=
  if m = 0 then withSign f zs 0 else roundRatio f rm (decide (m < 0)) (dyNum m.natAbs e) (dyDen e)

/-- An infinity of a format; E4M3 has none and writes its largest magnitude (23 R332). -/
def infOf (f : Fmt) (s : Bool) : Nat := withSign f s f.infPat

/-- The signed integer of a finite value's magnitude. -/
def sgn (s : Bool) (m : Nat) : Int := if s then -(m : Int) else m

/-- The sum of two dyadic numbers. -/
def dyAdd (a b : Int × Int) : Int × Int :=
  if a.2 ≤ b.2 then (a.1 + b.1 * 2 ^ (b.2 - a.2).toNat, a.2) else (b.1 + a.1 * 2 ^ (a.2 - b.2).toNat, b.2)

/-- The sign of an exact zero sum of two terms (03 R53). -/
def zeroSign (rm : RM) (s t : Bool) (bothZero : Bool) : Bool := if bothZero && s == t then s else rm == .rdn

/-- a + b (23 R340). -/
def fadd (f : Fmt) (rm : RM) (a b : FVal) : Nat :=
  match a, b with
  | .nan, _ => f.nan
  | _, .nan => f.nan
  | .inf s, .inf t => if s = t then infOf f s else f.nan
  | .inf s, _ => infOf f s
  | _, .inf t => infOf f t
  | .fin s m e, .fin t n k =>
    let r := dyAdd (sgn s m, e) (sgn t n, k)
    roundDy f rm (zeroSign rm s t (m == 0 && n == 0)) r.1 r.2

/-- The opposite value. -/
def FVal.neg : FVal → FVal
  | .nan => .nan
  | .inf s => .inf (!s)
  | .fin s m e => .fin (!s) m e

/-- The exact product; none when it is 0 times infinity or has a NaN. -/
def fmulX (a b : FVal) : FVal :=
  match a, b with
  | .nan, _ => .nan
  | _, .nan => .nan
  | .inf s, .inf t => .inf (s != t)
  | .inf s, .fin t n _ => if n = 0 then .nan else .inf (s != t)
  | .fin s m _, .inf t => if m = 0 then .nan else .inf (s != t)
  | .fin s m e, .fin t n k => .fin (s != t) (m * n) (e + k)

/-- A value rounded to a format; a zero keeps its sign. -/
def fround (f : Fmt) (rm : RM) : FVal → Nat
  | .nan => f.nan
  | .inf s => infOf f s
  | .fin s m e => roundDy f rm s (sgn s m) e

/-- a × b (23 R340). -/
def fmul (f : Fmt) (rm : RM) (a b : FVal) : Nat := fround f rm (fmulX a b)

/-- a × b + d, rounded once (23 R339, R340). -/
def ffma (f : Fmt) (rm : RM) (a b d : FVal) : Nat := fadd f rm (fmulX a b) d

/-- a / b, rounded once (03 R57, 23 R340). -/
def fdiv (f : Fmt) (rm : RM) (a b : FVal) : Nat :=
  match a, b with
  | .nan, _ => f.nan
  | _, .nan => f.nan
  | .inf _, .inf _ => f.nan
  | .inf s, .fin t _ _ => infOf f (s != t)
  | .fin s _ _, .inf t => withSign f (s != t) 0
  | .fin s m e, .fin t n k =>
    if n = 0 then if m = 0 then f.nan else infOf f (s != t)
    else roundRatio f rm (s != t) (dyNum m e * dyDen k) (dyDen e * dyNum n k)

/-- Order key of a non-NaN FP32 encoding, with -0 just below +0 (03 R48). -/
def fkey (w : W32) : Int := if w.getLsbD 31 then -(w.toNat % 2 ^ 31 : Nat) - 1 else (w.toNat : Int)

/-- An FP32 encoding is a NaN (03 R45). -/
def isNan (w : W32) : Bool := decide (0x7F800000 < w.toNat % 2 ^ 31)

/-- FMIN (03 R48). -/
def fmin (a b : W32) : W32 :=
  if isNan a && isNan b then 0x7FC00000 else if isNan a then b else if isNan b then a
  else if fkey a ≤ fkey b then a else b

/-- FMAX (03 R48). -/
def fmax (a b : W32) : W32 :=
  if isNan a && isNan b then 0x7FC00000 else if isNan a then b else if isNan b then a
  else if fkey b ≤ fkey a then a else b

/-! ## FP32 shorthands -/

/-- The value of an FP32 word. -/
def f32 (w : W32) : FVal := unpack .f32 w.toNat

/-- FP32 a + b. -/
def fadd32 (rm : RM) (a b : W32) : W32 := BitVec.ofNat 32 (fadd .f32 rm (f32 a) (f32 b))
/-- FP32 a - b: b's sign turned, except that a NaN stays one (23 R338). -/
def fsub32 (rm : RM) (a b : W32) : W32 := BitVec.ofNat 32 (fadd .f32 rm (f32 a) (f32 b).neg)
/-- FP32 a × b. -/
def fmul32 (rm : RM) (a b : W32) : W32 := BitVec.ofNat 32 (fmul .f32 rm (f32 a) (f32 b))
/-- FP32 a × b + d. -/
def ffma32 (rm : RM) (a b d : W32) : W32 := BitVec.ofNat 32 (ffma .f32 rm (f32 a) (f32 b) (f32 d))
/-- FP32 a / b. -/
def fdiv32 (rm : RM) (a b : W32) : W32 := BitVec.ofNat 32 (fdiv .f32 rm (f32 a) (f32 b))

/-- One packed FP16 operation on both halves (24 R343). -/
def packed (op : FVal → FVal → FVal → Nat) (a b d : W32) : W32 :=
  let h (w : W32) (e : Nat) : FVal := unpack .f16 (bits w.toNat (16 * e + 15) (16 * e))
  BitVec.ofNat 32 (op (h a 1) (h b 1) (h d 1) * 65536 + op (h a 0) (h b 0) (h d 0))

/-! ## Integers and integral values -/

/-- A finite value rounded to an integer (03 R56, 23 R335). -/
def roundInt (rm : RM) (s : Bool) (m : Nat) (e : Int) : Int :=
  if 0 ≤ e then sgn s (m * 2 ^ e.toNat) else
  let d := 2 ^ (-e).toNat
  let q := m / d
  sgn s (if roundsUp rm s q (2 * (m % d)) d then q + 1 else q)

/-- An integer held between two bounds. -/
def clampI (lo hi x : Int) : Int := if x < lo then lo else if hi < x then hi else x

/-- FP32 to an integer of a range, saturating; NaN gives 0 (03 R56). -/
def toInt (rm : RM) (lo hi : Int) (v : FVal) : Int :=
  match v with
  | .nan => 0
  | .inf s => if s then lo else hi
  | .fin s m e => clampI lo hi (roundInt rm s m e)

/-- An integer as FP32 (03 R56). -/
def ofInt (x : Int) : W32 := BitVec.ofNat 32 (roundDy .f32 .rne false x 0)

/-- FRND: to an integral FP32 value; zero keeps the operand's sign (23 R337). -/
def frnd (rm : RM) (w : W32) : W32 :=
  match f32 w with
  | .nan => 0x7FC00000
  | .inf _ => w
  | .fin s m e => BitVec.ofNat 32 (roundDy .f32 .rtz s (roundInt rm s m e) 0)

/-! ## CVT (03 R56) -/

/-- The sixteen CVT forms, by SUB - 0x20. -/
def cvt (c : Nat) (a : W32) : W32 :=
  let n := a.toNat
  let narrow (f : Fmt) : W32 := BitVec.ofNat 32 (fround f .rne (f32 a))
  let widen (f : Fmt) (w : Nat) : W32 := BitVec.ofNat 32 (fround .f32 .rne (unpack f w))
  match c % 16 with
  | 0 => ofInt a.toInt
  | 1 => ofInt n
  | 2 => BitVec.ofInt 32 (toInt .rne (-2 ^ 31) (2 ^ 31 - 1) (f32 a))
  | 3 => BitVec.ofInt 32 (toInt .rtz (-2 ^ 31) (2 ^ 31 - 1) (f32 a))
  | 4 => narrow .f16
  | 5 => narrow .bf16
  | 6 => widen .f16 (n % 2 ^ 16)
  | 7 => widen .bf16 (n % 2 ^ 16)
  | 8 => narrow .e4m3
  | 9 => narrow .e5m2
  | 10 => widen .e4m3 (n % 256)
  | 11 => widen .e5m2 (n % 256)
  | 12 => BitVec.ofInt 32 (clampI (-128) 127 a.toInt)
  | 13 => BitVec.ofInt 32 (clampI (-8) 7 a.toInt)
  | 14 => (a.setWidth 8).signExtend 32
  | _ => BitVec.ofInt 32 (toInt .rne 0 (2 ^ 32 - 1) (f32 a))

/-- CVTS's destination format by FPMODE.NARROW (03 R52). -/
def narrowFmt (n : Nat) : Fmt := match n % 4 with | 0 => .f16 | 1 => .bf16 | 2 => .e4m3 | _ => .e5m2

/-! ## Square roots -/

/-- Integer square root, one bit of the root at a time from bit `k` down. -/
def isqrtGo : Nat → Nat → Nat → Nat
  | 0, n, r => if (r + 1) * (r + 1) ≤ n then r + 1 else r
  | k + 1, n, r => let t := r + 2 ^ (k + 1); isqrtGo k n (if t * t ≤ n then t else r)

/-- The integer square root. -/
def isqrt (n : Nat) : Nat := isqrtGo (Nat.log2 n / 2 + 1) n 0

/-- The square root of a positive ratio, rounded: 64 extra bits and a sticky bit decide every rounding. -/
def sqrtRatio (f : Fmt) (rm : RM) (num den : Nat) : Nat :=
  let t := num * den * 2 ^ 512
  let r := isqrt t
  roundRatio f rm false (2 * r + (if r * r = t then 0 else 1)) (2 * den * 2 ^ 256)

/-- FSQRT (23 R337). -/
def fsqrt32 (rm : RM) (w : W32) : W32 :=
  match f32 w with
  | .nan => 0x7FC00000
  | .inf s => if s then 0x7FC00000 else w
  | .fin s m e =>
    if m = 0 then w else if s then 0x7FC00000
    else BitVec.ofNat 32 (sqrtRatio .f32 rm (dyNum m e) (dyDen e))

/-- FRSQ, always RNE (23 R337). -/
def frsq32 (w : W32) : W32 :=
  match f32 w with
  | .nan => 0x7FC00000
  | .inf s => if s then 0x7FC00000 else 0
  | .fin s m e =>
    if m = 0 then (if s then 0xFF800000 else 0x7F800000) else if s then 0x7FC00000
    else BitVec.ofNat 32 (sqrtRatio .f32 .rne (dyDen e) (dyNum m e))

/-- FRCP (23 R337). -/
def frcp32 (rm : RM) (w : W32) : W32 := BitVec.ofNat 32 (fdiv .f32 rm (.fin false 1 0) (f32 w))

/-! ## Transcendental functions: the exact result rounded once (03 R54, 23 R336). Each is summed in fixed point with hundreds
of bits more than FP32 holds, and a sticky bit stands for the rest, which is never 0 for these arguments (log 24). -/

/-- Floor of pi times 2^768. -/
def piFix : Nat :=
  0x3243f6a8885a308d313198a2e03707344a4093822299f31d0082efa98ec4e6c89452821e638d01377be5466cf34e90c6cc0ac29b7c97c50dd3f84d5b5b54709179216d5d98979fb1bd1310ba698dfb5ac2ffd72dbd01adfb7b8e1afed6a267e96

/-- Floor of ln 2 times 2^320. -/
def ln2Fix : Nat :=
  0xb17217f7d1cf79abc9e3b39803f2f6af40f343267298b62d8a0d175b8baafa2be7b876206debac98

/-- The exponential series of x (fixed point, 320 bits): the terms from the `n`-th on, given the term before. -/
def expGo : Nat → Nat → Nat → Nat → Nat
  | 0, _, _, _ => 0
  | k + 1, n, x, t => t + expGo k (n + 1) x (t * x / 2 ^ 320 / n)

/-- FEXP2 (23 R337). -/
def fexp2 (w : W32) : W32 :=
  match f32 w with
  | .nan => 0x7FC00000
  | .inf s => if s then 0 else 0x7F800000
  | .fin s m e =>
    if m = 0 then 0x3F800000
    else if 0 < e + Nat.log2 m - 8 then (if s then 0 else 0x7F800000)
    else
      let x : Int := if 0 ≤ e then sgn s (m * 2 ^ e.toNat) else sgn s m
      let d : Nat := dyDen e
      let n : Int := Int.fdiv x d
      let fr : Nat := (x - n * d).toNat
      if fr = 0 then BitVec.ofNat 32 (roundDy .f32 .rne false 1 n) else
      let y := expGo 90 1 (fr * 2 ^ 320 / d * ln2Fix / 2 ^ 320) (2 ^ 320)
      BitVec.ofNat 32 (roundDy .f32 .rne false (2 * y + 1) (n - 321))

/-- The series of artanh z (fixed point, 320 bits), odd terms. -/
def atanhGo : Nat → Nat → Nat → Nat → Nat
  | 0, _, _, _ => 0
  | k + 1, n, z2, t => t / n + atanhGo k (n + 2) z2 (t * z2 / 2 ^ 320)

/-- FLOG2 (23 R337). -/
def flog2 (w : W32) : W32 :=
  match f32 w with
  | .nan => 0x7FC00000
  | .inf s => if s then 0x7FC00000 else w
  | .fin s m e =>
    if m = 0 then 0xFF800000 else if s then 0x7FC00000 else
    let l := Nat.log2 m
    let n : Int := e + l
    if m = 2 ^ l then ofInt n else
    let z := (m - 2 ^ l) * 2 ^ 320 / (m + 2 ^ l)
    let y : Nat := 2 * atanhGo 110 1 (z * z / 2 ^ 320) z * 2 ^ 320 / ln2Fix
    BitVec.ofNat 32 (roundDy .f32 .rne false (2 * (n * 2 ^ 320 + y) + 1) (-321))

/-- The series of sin (n = 1, t = y) or cos (n = 0, t = 1) in fixed point, 640 bits. -/
def trigGo : Nat → Nat → Int → Int → Int
  | 0, _, _, _ => 0
  | k + 1, n, y2, t => t + trigGo k (n + 2) y2 (-(t * y2 / 2 ^ 640 / ((n + 1) * (n + 2))))

/-- sin (q = 0) or cos (q = 1) of m 2^e radians, m not 0: the argument is reduced by quarter turns exactly enough. -/
def trig (q : Nat) (s : Bool) (m : Nat) (e : Int) : W32 :=
  let x := if 0 ≤ e + 768 then m * 2 ^ (e + 768).toNat else m / 2 ^ (-(e + 768)).toNat
  let k := 2 * x / piFix
  let y : Int := Int.ofNat ((2 * x - k * piFix) / 2 ^ 129)
  let y2 := y * y / 2 ^ 640
  let turn := (k + q) % 4
  let r := if turn % 2 = 0 then trigGo 100 1 y2 y else trigGo 100 0 y2 (2 ^ 640)
  let neg := decide (2 ≤ turn) != (s && q == 0)
  BitVec.ofNat 32 (roundDy .f32 .rne false (if neg then -(2 * r + 1) else 2 * r + 1) (-641))

/-- FSIN (23 R337). -/
def fsin (w : W32) : W32 :=
  match f32 w with
  | .nan => 0x7FC00000
  | .inf _ => 0x7FC00000
  | .fin s m e => if m = 0 then w else trig 0 s m e

/-- FCOS (23 R337). -/
def fcos (w : W32) : W32 :=
  match f32 w with
  | .nan => 0x7FC00000
  | .inf _ => 0x7FC00000
  | .fin s m e => if m = 0 then 0x3F800000 else trig 1 s m e

/-! ## The residue datapath (03 R58 to R62) -/

/-- A channel of an RZ element, reduced (R58). -/
def rzRes (i : Nat) (w : W64) : Nat :=
  match i with
  | 1 => bits w.toNat 15 0 % 65535
  | 2 => bits w.toNat 31 16
  | _ => bits w.toNat 48 32 % 65537

/-- An RZ element from its three channels (R58). -/
def rzMk (c1 c2 c3 : Nat) : W64 := BitVec.ofNat 64 (c1 % 65535 + c2 % 65536 * 2 ^ 16 + c3 % 65537 * 2 ^ 32)

/-- Channel addition (R61). -/
def rzAdd (x y : W64) : W64 := rzMk (rzRes 1 x + rzRes 1 y) (rzRes 2 x + rzRes 2 y) (rzRes 3 x + rzRes 3 y)

/-- The RZ element of an integer (R59). -/
def rzOf (y : Int) : W64 := rzMk (y % 65535).toNat (y % 65536).toNat (y % 65537).toNat

/-- The integer an RZ element denotes (R59). With m1 = 65535, m2 = 65536, m3 = 65537 the inverses of the cofactors
m2 m3, m1 m3, m1 m2 modulo m1, m2, m3 are 32768, 65535 and 32769. -/
def rzInt (w : W64) : Int :=
  let mm := 65535 * 65536 * 65537
  let x := (rzRes 1 w * (65536 * 65537) * 32768 + rzRes 2 w * (65535 * 65537) * 65535 + rzRes 3 w * (65535 * 65536) * 32769) % mm
  if x ≤ 2 ^ 47 - 2 ^ 15 - 1 then x else (x : Int) - mm

/-- RZCVT (R62). -/
def rzCvt (w : W64) : W32 := ofInt (rzInt w)

end Sys2Proof.Machine
end

