-- ==== Sys2Proof/Machine/Ctl.lean ====
section
/-! DEFINITION. The control and management registers (13 R235): units, bits that WRITE_REG writes, reset values, and access.
The list's order is the telemetry directory's order, which the spec leaves open (log 25). -/
namespace Sys2Proof.Machine

/-- The registers of the telemetry directory, in the directory's order. -/
inductive CtlReg where
  | mxIssues | mxGrantWaits | mxGrantNs | tlbDieMisses | tlbWalkNs | tlbRunBroken | holdFillNs | shootdownAcks
  | memClassDeadline | memRemapCtl | memPcRowconf | memPcRefstall | memPcAct | memPcAlert | memMissed | memFamRowconf
  | memFamilyMismatch | memRemapRefused | memRemapThresh | memRemapWindow | memUserMask | memCupolaPin | memBlockFamily | memHotEpoch
  | cohLeaseRenew | cohRedCombine | cohFenceNs | copyBatchStall | copyIssued | copyBytes | copyGrantWaits | copyGrantNs
  | copyEntryWaitNs | dispChildMax | dispTeamsStarted | dispDieSteals | dispStealsIn | dispStealsOut | dispLaunchWaitNs | dispLaunchDropped
  | dispReserveFailed | taskSpawned | taskRetired | taskFaulted | taskAdoptions | taskDepthParks | taskCountUnderflow | ringRolePosts
  | stageIssued | spireSpillBase | spireSpillSlots | stepBudget | spireRaysEnded | spireNodeVisits | spireTriTests | spireForwards
  | spireSpills | spireAgePicks | spireHeld | spireCallouts | spireRayFaults | spireSlotWaitNs | lanternFetches | lanternHgrid
  | lanternCorners | visTrisFixed | visTrisSmall | visTrisDropped | matGroups | matPixelsSkipped | dbgCtl | faultRecords
  | preemptTaken | preemptWithdrawn | swapCount | swapHaltNs | eccCorrected | eccPoisoned | lateWriteDropped | sysReqOverrun
  | fwStatus | pwrGrants | pwrDieMw | fabGrpCtl | fabGrpWin | fabGrpDst | fabGrpDone | fabDomain
  | fabTxFlits | fabRxFlits | fabLinkRetries | fabDroppedWrites | fabRedAborts | fabJoinRefused
deriving DecidableEq, Repr

/-- Every register with its name, number of units, bits that WRITE_REG writes (0: refused, 13 R237) and reset value. -/
def ctlTable : List (CtlReg × String × Nat × Nat × Nat) :=
  [(.mxIssues, "MX_ISSUES", 192, 0, 0),
   (.mxGrantWaits, "MX_GRANT_WAITS", 192, 0, 0),
   (.mxGrantNs, "MX_GRANT_NS", 192, 0, 0),
   (.tlbDieMisses, "TLB_DIE_MISSES", 4, 0, 0),
   (.tlbWalkNs, "TLB_WALK_NS", 4, 0, 0),
   (.tlbRunBroken, "TLB_RUN_BROKEN", 4, 0, 0),
   (.holdFillNs, "HOLD_FILL_NS", 4, 0, 0),
   (.shootdownAcks, "SHOOTDOWN_ACKS", 4, 0, 0),
   (.memClassDeadline, "MEM_CLASS_DEADLINE", 8, 0xFFF0FFF0FFF0FFF0, 0xFFF0FFF001000040),
   (.memRemapCtl, "MEM_REMAP_CTL", 8, 0xFE0000, 0),
   (.memPcRowconf, "MEM_PC_ROWCONF", 512, 0, 0),
   (.memPcRefstall, "MEM_PC_REFSTALL", 512, 0, 0),
   (.memPcAct, "MEM_PC_ACT", 512, 0, 0),
   (.memPcAlert, "MEM_PC_ALERT", 512, 0, 0),
   (.memMissed, "MEM_MISSED", 506, 0, 0),
   (.memFamRowconf, "MEM_FAM_ROWCONF", 64, 0, 0),
   (.memFamilyMismatch, "MEM_FAMILY_MISMATCH", 8, 0, 0),
   (.memRemapRefused, "MEM_REMAP_REFUSED", 8, 0, 0),
   (.memRemapThresh, "MEM_REMAP_THRESH", 8, 0xFFFFFFFF, 0x00100000),
   (.memRemapWindow, "MEM_REMAP_WINDOW", 8, 0xFFFFFFFF, 1000000),
   (.memUserMask, "MEM_USER_MASK", 288, 0x3FFFFF, 0),
   (.memCupolaPin, "MEM_CUPOLA_PIN", 8, 0x3F, 0),
   (.memBlockFamily, "MEM_BLOCK_FAMILY", 32768, 7, 1),
   (.memHotEpoch, "MEM_HOT_EPOCH", 2, 0xFFFFFFFF, 10000)] ++
  [(.cohLeaseRenew, "COH_LEASE_RENEW", 4, 0, 0),
   (.cohRedCombine, "COH_RED_COMBINE", 4, 0, 0),
   (.cohFenceNs, "COH_FENCE_NS", 4, 0, 0),
   (.copyBatchStall, "COPY_BATCH_STALL", 4, 0, 0),
   (.copyIssued, "COPY_ISSUED", 32, 0, 0),
   (.copyBytes, "COPY_BYTES", 32, 0, 0),
   (.copyGrantWaits, "COPY_GRANT_WAITS", 32, 0, 0),
   (.copyGrantNs, "COPY_GRANT_NS", 32, 0, 0),
   (.copyEntryWaitNs, "COPY_ENTRY_WAIT_NS", 32, 0, 0),
   (.dispChildMax, "DISP_CHILD_MAX", 4, 0xFF, 16),
   (.dispTeamsStarted, "DISP_TEAMS_STARTED", 1, 0, 0),
   (.dispDieSteals, "DISP_DIE_STEALS", 1, 0, 0),
   (.dispStealsIn, "DISP_STEALS_IN", 1, 0, 0),
   (.dispStealsOut, "DISP_STEALS_OUT", 1, 0, 0),
   (.dispLaunchWaitNs, "DISP_LAUNCH_WAIT_NS", 1, 0, 0),
   (.dispLaunchDropped, "DISP_LAUNCH_DROPPED", 1, 0, 0),
   (.dispReserveFailed, "DISP_RESERVE_FAILED", 1, 0, 0),
   (.taskSpawned, "TASK_SPAWNED", 4, 0, 0),
   (.taskRetired, "TASK_RETIRED", 4, 0, 0),
   (.taskFaulted, "TASK_FAULTED", 4, 0, 0),
   (.taskAdoptions, "TASK_ADOPTIONS", 4, 0, 0),
   (.taskDepthParks, "TASK_DEPTH_PARKS", 4, 0, 0),
   (.taskCountUnderflow, "TASK_COUNT_UNDERFLOW", 4, 0, 0),
   (.ringRolePosts, "RING_ROLE_POSTS", 4, 0, 0)] ++
  [(.stageIssued, "STAGE_ISSUED", 4, 0, 0),
   (.spireSpillBase, "SPIRE_SPILL_BASE", 8, 0xFFFFFFFFFF000, 0),
   (.spireSpillSlots, "SPIRE_SPILL_SLOTS", 8, 0xFFFFFFFF, 0),
   (.stepBudget, "STEP_BUDGET", 8, 0xFFFFFFFFFFFFFFFF, 4096),
   (.spireRaysEnded, "SPIRE_RAYS_ENDED", 8, 0, 0),
   (.spireNodeVisits, "SPIRE_NODE_VISITS", 8, 0, 0),
   (.spireTriTests, "SPIRE_TRI_TESTS", 8, 0, 0),
   (.spireForwards, "SPIRE_FORWARDS", 8, 0, 0),
   (.spireSpills, "SPIRE_SPILLS", 8, 0, 0),
   (.spireAgePicks, "SPIRE_AGE_PICKS", 8, 0, 0),
   (.spireHeld, "SPIRE_HELD", 8, 0, 0),
   (.spireCallouts, "SPIRE_CALLOUTS", 8, 0, 0),
   (.spireRayFaults, "SPIRE_RAY_FAULTS", 8, 0, 0),
   (.spireSlotWaitNs, "SPIRE_SLOT_WAIT_NS", 8, 0, 0),
   (.lanternFetches, "LANTERN_FETCHES", 8, 0, 0),
   (.lanternHgrid, "LANTERN_HGRID", 8, 0, 0),
   (.lanternCorners, "LANTERN_CORNERS", 8, 0, 0),
   (.visTrisFixed, "VIS_TRIS_FIXED", 2, 0, 0),
   (.visTrisSmall, "VIS_TRIS_SMALL", 2, 0, 0),
   (.visTrisDropped, "VIS_TRIS_DROPPED", 2, 0, 0),
   (.matGroups, "MAT_GROUPS", 2, 0, 0),
   (.matPixelsSkipped, "MAT_PIXELS_SKIPPED", 2, 0, 0),
   (.dbgCtl, "DBG_CTL", 8, 1, 0),
   (.faultRecords, "FAULT_RECORDS", 8, 0, 0)] ++
  [(.preemptTaken, "PREEMPT_TAKEN", 8, 0, 0),
   (.preemptWithdrawn, "PREEMPT_WITHDRAWN", 8, 0, 0),
   (.swapCount, "SWAP_COUNT", 8, 0, 0),
   (.swapHaltNs, "SWAP_HALT_NS", 8, 0, 0),
   (.eccCorrected, "ECC_CORRECTED", 8, 0, 0),
   (.eccPoisoned, "ECC_POISONED", 8, 0, 0),
   (.lateWriteDropped, "LATE_WRITE_DROPPED", 8, 0, 0),
   (.sysReqOverrun, "SYS_REQ_OVERRUN", 1, 0, 0),
   (.fwStatus, "FW_STATUS", 1, 0, 0),
   (.pwrGrants, "PWR_GRANTS", 4, 0xFF, 48),
   (.pwrDieMw, "PWR_DIE_MW", 4, 0, 0),
   (.fabGrpCtl, "FAB_GRP_CTL", 64, 0xF000FFFF1FFF0FFF, 0),
   (.fabGrpWin, "FAB_GRP_WIN", 64, 0xFFFFFFFFFF000, 0),
   (.fabGrpDst, "FAB_GRP_DST", 64, 0xFFFFFFFFFFF00, 0),
   (.fabGrpDone, "FAB_GRP_DONE", 64, 0xFFFFFFFFFFFF8, 0),
   (.fabDomain, "FAB_DOMAIN", 1, 0x8000000000000FFF, 0),
   (.fabTxFlits, "FAB_TX_FLITS", 18, 0, 0),
   (.fabRxFlits, "FAB_RX_FLITS", 18, 0, 0),
   (.fabLinkRetries, "FAB_LINK_RETRIES", 18, 0, 0),
   (.fabDroppedWrites, "FAB_DROPPED_WRITES", 1, 0, 0),
   (.fabRedAborts, "FAB_RED_ABORTS", 1, 0, 0),
   (.fabJoinRefused, "FAB_JOIN_REFUSED", 1, 0, 0)]

/-- The directory entry of a register. -/
def CtlReg.row (r : CtlReg) : CtlReg × String × Nat × Nat × Nat := ctlTable.getD r.ctorIdx (r, "", 0, 0, 0)
/-- Number of units. -/
def CtlReg.units (r : CtlReg) : Nat := r.row.2.2.1
/-- The bits that a WRITE_REG request writes. -/
def CtlReg.wmask (r : CtlReg) : Nat := r.row.2.2.2.1
/-- The value after module reset (00 R4). -/
def CtlReg.init (r : CtlReg) : W64 := BitVec.ofNat 64 r.row.2.2.2.2
/-- Where State.ctl keeps unit `u` of a register: no two registers share a place. -/
def CtlReg.key (r : CtlReg) (u : Nat) : Nat := u * 256 + r.ctorIdx

/-- The value of a unit of a control register. -/
def State.ctlGet (s : State) (r : CtlReg) (u : Nat) : W64 := s.ctl.getD (r.key u) r.init
/-- The value as a number. -/
def State.ctlN (s : State) (r : CtlReg) (u : Nat) : Nat := (s.ctlGet r u).toNat
/-- The state with a unit of a control register set. -/
def State.ctlSet (s : State) (r : CtlReg) (u : Nat) (x : W64) : State := { s with ctl := s.ctl.set (r.key u) x }
/-- The state with a counter raised, wrapping at 64 bits. -/
def State.count (s : State) (r : CtlReg) (u n : Nat) : State := s.ctlSet r u (s.ctlGet r u + BitVec.ofNat 64 n)

/-- FEATURES (13 R247). -/
def features : BitVec 128 := 0x1FF

/-- A feature bit of ACCEPT (13 R247). -/
def State.accepted (s : State) (b : Nat) : Bool := s.ctrl.accept.getLsbD b

/-- SELF, the part's domain number; 0 until FAB_DOMAIN is set (14 R262). -/
def State.self (s : State) : Nat := if bit (s.ctlN .fabDomain 0) 63 then bits (s.ctlN .fabDomain 0) 11 0 else 0

/-! ## Where a directory entry's register lies (13 R235, log 25) -/

/-- Offset of unit 0 in the control range. -/
def CtlReg.offset (r : CtlReg) : Nat := if r = .memBlockFamily then 0x1000000 else 0x10000 + 0x1000 * r.ctorIdx
/-- Bytes between units. -/
def CtlReg.stride (r : CtlReg) : Nat := if r = .memBlockFamily then 1 else 8

/-- The bytes of a string's first 24 characters, padded with zeros. -/
def nameBytes (n : String) : List Byte := ((n.toList.map (fun c => BitVec.ofNat 8 (Char.toNat c))) ++ List.replicate 24 0).take 24

/-- The telemetry directory as bytes: 32 each entry, then an entry of zeros (13 R235). FEATURES and ACCEPT come last. -/
def directoryBytes : List Byte :=
  (ctlTable.map (fun e => nameBytes e.2.1 ++ toLe 4 e.1.offset ++ toLe 2 e.2.2.1 ++ toLe 2 e.1.stride)).flatten ++
  nameBytes "FEATURES" ++ toLe 4 0x800 ++ toLe 2 1 ++ toLe 2 16 ++
  nameBytes "ACCEPT" ++ toLe 4 0x810 ++ toLe 2 1 ++ toLe 2 16 ++ List.replicate 32 0

/-! ## Units of the part (01 R10, R13) -/

/-- The shader die of a core. -/
def dieOfCore (c : Nat) : Nat := c / 48
/-- The slice of a core (01 R13). -/
def sliceOfCore (c : Nat) : Nat := c / 24
/-- The partition of a core: 0 in whole mode, its slice otherwise. -/
def State.partOfCore (s : State) (c : Nat) : Nat := if s.disp.whole then 0 else sliceOfCore c
/-- The partition of a stack. -/
def State.partOfStack (s : State) (k : Nat) : Nat := if s.disp.whole then 0 else k
/-- The cores of a partition. -/
def State.coresOf (s : State) (p : Nat) : List Nat := if s.disp.whole then List.range 192 else (List.range 24).map (24 * p + ·)
/-- How many cores of a partition lie on a die (08 R152). -/
def State.weight (s : State) (p d : Nat) : Nat := if s.disp.whole then 48 else if p / 2 = d then 24 else 0
/-- The lowest die of a partition. -/
def State.lowDie (s : State) (p : Nat) : Nat := if s.disp.whole then 0 else p / 2
/-- The copy engine that serves a core (22 R319). -/
def copyEngineOf (c : Nat) : Nat := 4 * (c / 24) + c % 4

/-! ## Time (00 R1, 25 R364) -/

/-- Nanoseconds of a number of 2.4 GHz cycles. -/
def nsOf (c : Nat) : Nat := c * 5 / 12
/-- Pod time in nanoseconds (log 5). -/
def State.podTime (s : State) : Nat := nsOf s.env.cycle
/-- Cycles since module reset (15 R278). -/
def State.cycles (s : State) : Nat := s.env.cycle - s.env.resetAt
/-- Cycles in a number of microseconds. -/
def usCycles (n : Nat) : Nat := 2400 * n

/-! ## Numbers and free values of the model -/

/-- A fresh number. -/
def State.freshId (s : State) : Nat := s.env.fresh
/-- The state after taking `n` fresh numbers. -/
def State.useIds (s : State) (n : Nat) : State := { s with env := { s.env with fresh := s.env.fresh + n } }
/-- The state after taking `n` free values (log 3). -/
def State.useFree (s : State) (n : Nat) : State := { s with env := { s.env with freeCtr := s.env.freeCtr + n } }

end Sys2Proof.Machine
end

