-- ==== Sys2Proof/Machine/Mem.lean ====
section
/-! DEFINITION. Memory: keys of the part's bytes, reads and writes, poison, and the partials of RED.FADD.F32. A key's residue
modulo 4 says what kind of byte it is: 0 a physical address, 1 scratchpad, 3 an accumulator tile. -/
namespace Sys2Proof.Machine

/-- Key of the byte at a physical address (05 R94). -/
def physKey (pa : Nat) : Nat := 4 * pa
/-- Key of a byte of the scratchpad with number `id` (05 R85). -/
def scrKey (id off : Nat) : Nat := 4 * (id * 2 ^ 24 + off) + 1
/-- Key of a byte of a lane's private memory: a byte of HBM, by the group's base and the bytes of each lane (05 R87, log 27). -/
def prvKey (win stride lane off : Nat) : Nat := physKey (win + lane * stride + off)
/-- Key of the first byte of element [i][j] of a tile (02 R31). -/
def tileKey (id t i j : Nat) : Nat := 4 * (4 * ((id * 16 + t) * 1024 + i * 32 + j)) + 3
/-- Key of the byte `n` after a key. -/
def keyAdd (k n : Nat) : Nat := k + 4 * n

/-- What an unlisted byte reads as where reset gives it a value: the counts of the system request ring are 0, and the header
of the system event ring holds C = 256 and counts of 0 (13 R236, R239, log 2). None elsewhere: a free value (06 R388). -/
def Memory.reset? (k : Nat) : Option Byte :=
  if k % 4 = 0 ∧ 0x040000007FF0 ≤ k / 4 ∧ k / 4 < 0x040000008000 then some 0
  else if k % 4 = 0 ∧ 0x04000000C000 ≤ k / 4 ∧ k / 4 < 0x04000000C040 then some (if k / 4 = 0x04000000C001 then 1 else 0)
  else none

/-- What an unlisted byte reads as: its reset value, or a free value of its own. -/
def Memory.unlisted (k : Nat) : Byte := (Memory.reset? k).getD (Config.freeByte k)

/-- The byte at a key. -/
def Memory.get (m : Memory) (k : Nat) : Byte := (Store.get? (m.cells : Store Byte) k).getD (Memory.unlisted k)

/-- Memory with the byte at a key written. -/
def Memory.put (m : Memory) (k : Nat) (b : Byte) : Memory :=
  { m with cells := if Memory.reset? k = some b then Store.erase (m.cells : Store Byte) k else Store.set (m.cells : Store Byte) k b }

/-- The canonical form: addresses strictly rising, and no entry that an unlisted address would read as. -/
def Memory.wf (m : Memory) : Bool :=
  Store.wf (m.cells : Store Byte) && m.cells.all (fun c => decide (Memory.reset? c.1 ≠ some c.2))

/-- `n` bytes from a key on. -/
def Memory.bytes (m : Memory) (k : Nat) : Nat → List Byte
  | 0 => []
  | n + 1 => m.get k :: Memory.bytes m (keyAdd k 1) n

/-- Memory with bytes written from a key on. -/
def Memory.putBytes (m : Memory) (k : Nat) : List Byte → Memory
  | [] => m
  | b :: t => Memory.putBytes (m.put k b) (keyAdd k 1) t

/-- `n` bytes as a number (00 R2). -/
def Memory.read (m : Memory) (k n : Nat) : Nat := fromLe (m.bytes k n)
/-- Memory with the low `n` bytes of a number written. -/
def Memory.write (m : Memory) (k n w : Nat) : Memory := m.putBytes k (toLe n w)

/-- Memory with the bytes of a range of keys unlisted: their contents are lost and read as free values again. -/
def Memory.drop (m : Memory) (p : Nat → Bool) : Memory := { m with cells := m.cells.filter (fun c => !p c.1) }

/-- Memory with the contents of `n` bytes from a physical address on lost. -/
def Memory.dropRange (m : Memory) (pa n : Nat) : Memory :=
  m.drop (fun k => k % 4 == 0 && decide (pa ≤ k / 4) && decide (k / 4 < pa + n))

/-! ## Poison (12 R231) -/

/-- The 16-byte unit of a key. -/
def unitOf (k : Nat) : Nat := k / 4 / 16 * 4 + k % 4
/-- The poison place of the first poisoned unit among `n` bytes from a key on. -/
def Memory.poisonAt (m : Memory) (k n : Nat) : Option Nat :=
  (List.range (n / 16 + 2)).findSome? (fun i =>
    if 16 * i < n + (k / 4 % 16) then (m.poison.get? (unitOf k + 4 * i)).map (· % 8) else none)
/-- Memory with a unit poisoned at a place (12 R217: 0 HBM or tier, 1 Cupola, 2 L2, 3 core SRAM). An entry holds the place
and, from bit 3 on, which bytes of the unit have been written since. -/
def Memory.poisonUnit (m : Memory) (u place : Nat) : Memory := { m with poison := m.poison.set u (place % 8) }
/-- Bit `i` of a number set. -/
def setBit (w i : Nat) : Nat := if bit w i then w else w + 2 ^ i
/-- The poison entry of a unit after `n` bytes from a key on are written; none once every byte of it has been. -/
def poisonAfter (k n : Nat) (e : Nat × Nat) : Option (Nat × Nat) :=
  if e.1 % 4 ≠ k % 4 then some e else
  let v := (List.range 16).foldl (fun w i =>
    let a := e.1 / 4 * 16 + i
    if k / 4 ≤ a ∧ a < k / 4 + n then setBit w (3 + i) else w) e.2
  if v / 8 = 0xFFFF then none else some (e.1, v)
/-- Poison cleared by a write of `n` bytes from a key on. -/
def Memory.cleanUnits (m : Memory) (k n : Nat) : Memory :=
  if m.poison.isEmpty then m else { m with poison := m.poison.filterMap (poisonAfter k n) }

/-! ## Partials of RED.FADD.F32 (07 R133, log 13) -/

/-- The pair of a list at two places, and the rest. -/
def pickTwo (i j : Nat) (l : List W32) : W32 × W32 × List W32 :=
  let a := l.getD i 0
  let r := l.eraseIdx i
  (a, r.getD j 0, r.eraseIdx j)

/-- Addends merged two at a time in an order that `sel` chooses; every order of pairwise sums is some `sel`. -/
def redMerge : Nat → Nat → List W32 → W32
  | 0, _, l => l.headD 0
  | f + 1, sel, l =>
    if l.length ≤ 1 then l.headD 0 else
    let i := sel % l.length
    let j := sel / l.length % (l.length - 1)
    let p := pickTwo i j l
    redMerge f (sel / l.length / (l.length - 1)) (fadd32 .rne p.1 p.2.1 :: p.2.2)

/-- What a location holds after its base and addends are combined: one addend is added exactly as R54 says. -/
def redValue (ctr : Nat) (l : RedLog) : W32 :=
  match l.xs with
  | [] => l.base
  | [x] => fadd32 .rne l.base x
  | xs => redMerge (xs.length + 1) (Config.freeChoice ctr) (l.base :: xs)

/-- Partials at `n` bytes from a key on are combined for good. -/
def Memory.settle (m : Memory) (k n : Nat) : Memory :=
  if m.red.isEmpty then m else
  { m with red := m.red.filter (fun e => !(e.1 % 4 == k % 4 && decide (e.1 / 4 < k / 4 + n) && decide (k / 4 < e.1 / 4 + 4))) }

/-! ## The state's memory -/

/-- The byte at a key. -/
def State.byte (s : State) (k : Nat) : Byte := s.mem.get k
/-- A read of `n` bytes: partials are combined first (07 R133). -/
def State.readMem (s : State) (k n : Nat) : Nat := s.mem.read k n
/-- The state after a read, with partials combined for good. -/
def State.settle (s : State) (k n : Nat) : State := { s with mem := s.mem.settle k n }
/-- The state after a write of `n` bytes: partials combined, whole units cleaned of poison. -/
def State.writeMem (s : State) (k n w : Nat) : State :=
  { s with mem := ((s.mem.settle k n).cleanUnits k n).write k n w }
/-- The same for bytes. -/
def State.writeBytes (s : State) (k : Nat) (bs : List Byte) : State :=
  { s with mem := ((s.mem.settle k bs.length).cleanUnits k bs.length).putBytes k bs }

/-- The bytes of segments, in order. -/
def State.segBytes (s : State) (l : List Seg) : List Byte := (l.map (fun g => s.mem.bytes g.key g.len)).flatten
/-- The state with bytes written over segments, in order. -/
def State.writeSegs (s : State) : List Seg → List Byte → State
  | [], _ => s
  | g :: t, bs => State.writeSegs (s.writeBytes g.key (bs.take g.len)) t (bs.drop g.len)
/-- The part of a list of segments from byte `off` on, `n` bytes long. -/
def subSegs : List Seg → Nat → Nat → List Seg
  | [], _, _ => []
  | g :: t, off, n =>
    if n = 0 then [] else
    if g.len ≤ off then subSegs t (off - g.len) n
    else
      let k := min n (g.len - off)
      { key := keyAdd g.key off, len := k } :: subSegs t 0 (n - k)

end Sys2Proof.Machine
end

