-- ==== Sys2Proof/Machine/Mmu.lean ====
section
/-! DEFINITION. Windows, the page table, holds and TLBs (05). -/
namespace Sys2Proof.Machine

/-- Fault codes (12 R217). -/
def cIllegal : Nat := 0x01
def cRegister : Nat := 0x02
def cMisaligned : Nat := 0x03
def cNoncanonical : Nat := 0x04
def cForeign : Nat := 0x05
def cRange : Nat := 0x06
def cNotPresent : Nat := 0x07
def cWriteProtect : Nat := 0x08
def cExecProtect : Nat := 0x09
def cHold : Nat := 0x0A
def cStack : Nat := 0x0B
def cGridBar : Nat := 0x0C
def cTimeout : Nat := 0x0D
def cTrap : Nat := 0x0E
def cMxParam : Nat := 0x0F
def cBaton : Nat := 0x10
def cRemote : Nat := 0x11
def cEcc : Nat := 0x12
def cCallout : Nat := 0x13

/-- Kinds of access (05 R96). -/
inductive AKind where
  | load | store | fetch
deriving DecidableEq, Repr

/-- Where an access goes: a key of this part's memory, or a physical address of another part. -/
inductive Loc where
  | here (key : Nat)
  | away (part pa : Nat)
deriving DecidableEq, Repr

/-- The windows of a generic address (05 R85). -/
inductive Window where
  | prv | clu | scr | glb
deriving DecidableEq, Repr

/-- The window of an address, by bits [63:56] (05 R85). -/
def windowOf (a : Nat) : Window :=
  match bits a 63 56 with
  | 0xFC => .prv
  | 0xFD => .clu
  | 0xFE => .scr
  | _ => .glb

/-- A global address is canonical: bits [63:57] equal bit 56 (05 R85). -/
def canonical (a : Nat) : Bool := bits a 63 56 == 0 || bits a 63 56 == 0xFF

/-! ## The physical map (05 R94, 06 R118) -/

/-- `n` bytes at a physical address lie in HBM. -/
def inHbm (pa n : Nat) : Bool := decide (pa + n ≤ 0x8000000000)
/-- They lie in the LPDDR 6 tier. -/
def inTier (pa n : Nat) : Bool := decide (0x010000000000 ≤ pa) && decide (pa + n ≤ 0x028000000000)
/-- They lie in the Cupola-pinned range, within what each base die has reserved. -/
def State.inCupola (s : State) (pa n : Nat) : Bool :=
  let k := (pa - 0x030000000000) / 0x3000000
  decide (0x030000000000 ≤ pa) && decide (k < 8) &&
  decide (pa + n ≤ 0x030000000000 + 0x3000000 * k + s.ctlN .memCupolaPin k * 0x100000)
/-- They lie in the control range. -/
def inControl (pa : Nat) : Bool := decide (0x040000000000 ≤ pa) && decide (pa < 0x040100000000)

/-- They lie in HBM of a partition. -/
def State.hbmOf (s : State) (p pa n : Nat) : Bool :=
  if s.disp.whole then inHbm pa n else decide (0x1000000000 * p ≤ pa) && decide (pa + n ≤ 0x1000000000 * (p + 1))
/-- They lie in the tier's eighth of a partition. -/
def State.tierOf (s : State) (p pa n : Nat) : Bool :=
  if s.disp.whole then inTier pa n
  else decide (0x010000000000 + 0x3000000000 * p ≤ pa) && decide (pa + n ≤ 0x010000000000 + 0x3000000000 * (p + 1))

/-- A leaf may name these bytes of this part; in partitioned mode only the partition's HBM and its eighth of the tier (05 R94). -/
def State.mayMap (s : State) (p pa n : Nat) : Bool :=
  s.hbmOf p pa n || s.tierOf p pa n || (s.disp.whole && s.inCupola pa n)

/-! ## Page-table entries (05 R92, R95) -/

/-- The domain number of the part that an entry names (05 R95). -/
def State.partNamed (s : State) (pte : Nat) : Nat := (s.self + bits pte 63 52 + 1) % 4096
/-- The COH field. -/
def coh (pte : Nat) : Nat := bits pte 6 5
/-- The HOME field. -/
def homeF (pte : Nat) : Nat := bits pte 8 7
/-- The page lies on another part: a core-private page never does (05 R95). -/
def isRemote (pte : Nat) : Bool := coh pte != 2 && bits pte 63 52 != 0xFFF
/-- The FRAME field as a physical address. -/
def frameOf (pte : Nat) : Nat := bits pte 51 12 * 4096

/-- Bytes that a leaf at a level maps (05 R91). -/
def pageSize (level : Nat) : Nat := match level with | 2 => 2 ^ 30 | 3 => 2 ^ 21 | _ => 4096
/-- Bits [hi:lo] of the VA that index a level (05 R91). -/
def levelShift (level : Nat) : Nat := match level with | 0 => 48 | 1 => 39 | 2 => 30 | 3 => 21 | _ => 12

/-- The detail of a translation fault: reason and level (05 R96). -/
def pfDetail (reason level : Nat) : Nat := reason + 256 * level

/-- A leaf entry is well formed for its level: attributes, frame, alignment (05 R94 to R96). Gives the reason if not. A leaf of another
part with COH = 11, or with HOME = 11, fits both this and REMOTE_ATTR, and the model calls it malformed (log 33). -/
def State.leafBad (s : State) (p pte level : Nat) : Option Nat :=
  if coh pte = 3 then some 2
  else if homeF pte = 3 ∧ coh pte ≠ 2 then some 3
  else if frameOf pte % pageSize level ≠ 0 then some 3
  else if !isRemote pte && !s.mayMap p (frameOf pte) (pageSize level) then some 3
  else if isRemote pte && !(inHbm (frameOf pte) (pageSize level) || inTier (frameOf pte) (pageSize level) ||
      (decide (0x030000000000 ≤ frameOf pte) && decide (frameOf pte + pageSize level ≤ 0x030018000000))) then some 3
  else none

/-- The entry at an index of a table. -/
def State.pteAt (s : State) (table i : Nat) : Nat := s.readMem (physKey (table + 8 * i)) 8

/-- The 16 entries of a run are whole: valid, RUN set, alike but for FRAME, contiguous, the first aligned (05 R93). -/
def State.runOk (s : State) (table i level : Nat) : Bool :=
  let b := i / 16 * 16
  let e0 := s.pteAt table b
  decide (frameOf e0 % (16 * pageSize level) = 0) &&
  (List.range 16).all (fun j =>
    let e := s.pteAt table (b + j)
    bit e 0 && bit e 4 && setBits e 51 12 0 == setBits e0 51 12 0 && frameOf e == frameOf e0 + j * pageSize level)

/-- The leaf found at an entry, as a page or a whole run. -/
def State.leafAt (s : State) (table i level va pte : Nat) : Leaf :=
  if bit pte 4 && s.runOk table i level then
    let sz := 16 * pageSize level
    { pte := s.pteAt table (i / 16 * 16), level := level, base := va / sz * sz, size := sz }
  else { pte := pte, level := level, base := va / pageSize level * pageSize level, size := pageSize level }

/-- A table page lies where 05 R91 allows. -/
def State.tableOk (s : State) (p table : Nat) : Bool := s.hbmOf p table 4096 || s.tierOf p table 4096

/-- The walk from a level down: a leaf, or a reason and level (05 R91, R96). `fuel` counts the levels left. -/
def State.walkFrom (s : State) (p va : Nat) : Nat → Nat → Except (Nat × Nat) Leaf
  | 0, _ => .error (1, 4)
  | fuel + 1, table =>
    let level := 4 - fuel
    if !s.tableOk p table then .error (4, level) else
    let i := va / 2 ^ levelShift level % 512
    let pte := s.pteAt table i
    if !bit pte 0 then .error (1, level)
    else if level < 2 && bit pte 3 then .error (2, level)
    else if level = 4 || (1 < level && bit pte 3) then
      match s.leafBad p pte level with
      | some r => .error (r, level)
      | none => .ok (s.leafAt table i level va pte)
    else State.walkFrom s p va fuel (frameOf pte)

/-- A page-table walk (05 R91 to R97). Only VA [56:0] indexes. -/
def State.walk (s : State) (p root va : Nat) : Except (Nat × Nat) Leaf := s.walkFrom p (va % 2 ^ 57) 5 root

/-- A walk meets a run group that is not whole (05 R93). -/
def State.walkBreaksRun (s : State) (p va : Nat) : Nat → Nat → Bool
  | 0, _ => false
  | fuel + 1, table =>
    let level := 4 - fuel
    let i := va % 2 ^ 57 / 2 ^ levelShift level % 512
    let pte := s.pteAt table i
    if !s.tableOk p table || !bit pte 0 || (level < 2 && bit pte 3) then false
    else if level = 4 || (1 < level && bit pte 3) then bit pte 4 && !s.runOk table i level
    else State.walkBreaksRun s p va fuel (frameOf pte)

/-- What a walk reads: an entry at each level, and the group of a run; physical addresses and bytes (05 R93, R97). -/
def State.walkReads (s : State) (p va : Nat) : Nat → Nat → List (Nat × Nat)
  | 0, _ => []
  | fuel + 1, table =>
    let level := 4 - fuel
    let i := va % 2 ^ 57 / 2 ^ levelShift level % 512
    let pte := s.pteAt table i
    if !s.tableOk p table then [] else
    (table + 8 * i, 8) ::
      (if !bit pte 0 || (level < 2 && bit pte 3) then []
       else if level = 4 || (1 < level && bit pte 3) then (if bit pte 4 then [(table + 8 * (i / 16 * 16), 128)] else [])
       else State.walkReads s p va fuel (frameOf pte))

/-- The physical address a leaf gives. -/
def Leaf.pa (l : Leaf) (va : Nat) : Nat := frameOf l.pte + (va % 2 ^ 57 - l.base)

/-- Who translates: the TLB place, the issuing core's number, the address space, the holds of the work unit, the requester of
06 R108 (506: a unit that has no number there), and the class and stamp of what it asks later (06 R104; log 95). -/
structure Acc where
  place : Nat
  core : Nat
  asid : Nat
  root : Nat
  part : Nat
  strict : Bool
  task : Bool
  owner : Nat
  req : Nat := 506
  cls : Nat := 3
  stamp : Nat := 0xFFF
deriving DecidableEq, Repr

/-- The hold that covers an address for a work unit (05 R101). -/
def State.heldFor (s : State) (a : Acc) (va : Nat) : Option Held :=
  s.mmu.held.find? (fun h => h.part == a.part && h.asid == a.asid && h.task == a.task && h.owner == a.owner &&
    h.page == va % 2 ^ 57 / 4096)
/-- The leaf that it holds. -/
def State.heldLeaf (s : State) (a : Acc) (va : Nat) : Option Leaf := (s.heldFor a va).map (·.leaf)

/-- The TLBs a place uses: its own, and the last level of its die: the core's, or the one beside the base die; none for a dispatcher
(05 R97, R103). -/
def tlbPlaces (place : Nat) : List Nat :=
  if place < 192 then [place, 200 + place / 48] else if place < 200 then [place, 200 + (place - 192) / 2] else []
/-- The entries that a TLB holds (05 R97). -/
def tlbSize (place : Nat) : Nat := if place < 192 then 256 else if place < 200 then 2048 else 12288

/-- An entry of a TLB that a unit uses covers an address. -/
def TlbEntry.covers (e : TlbEntry) (a : Acc) (va : Nat) : Bool :=
  (tlbPlaces a.place).contains e.place && e.part == a.part && e.asid == a.asid &&
  decide (e.leaf.base ≤ va % 2 ^ 57) && decide (va % 2 ^ 57 < e.leaf.base + e.leaf.size)

/-- A cached translation of an address outside holds. -/
def State.tlbFind (s : State) (a : Acc) (va : Nat) : Option Leaf :=
  (s.mmu.tlb.find? (fun e => !e.held && e.covers a va)).map (·.leaf)

/-- The cached translation that a unit uses at an address: none, where it walks the table; one that differs from the table is used or
not, by a free choice for each place, page and cycle (05 R98, log 12). -/
def State.tlbUsed (s : State) (a : Acc) (va : Nat) : Option Leaf :=
  match s.tlbFind a va with
  | none => none
  | some l =>
    if (s.walk a.part a.root va).toOption = some l then some l
    else bif Config.tlbKeeps a.place (va % 2 ^ 57 / 4096) s.env.cycle then some l else none

/-- The leaf an access outside holds uses: the one cached, or the walk's (05 R97, R98). -/
def State.findLeaf (s : State) (a : Acc) (va : Nat) : Except (Nat × Nat) Leaf :=
  match s.tlbUsed a va with
  | none => s.walk a.part a.root va
  | some l => .ok l

/-- What a leaf allows (05 R95, R96): the location, or the fault. The refusal of W or X comes before R95's (log 33). -/
def State.useLeaf (s : State) (a : Acc) (k : AKind) (va : Nat) (l : Leaf) : Except FaultInfo Loc :=
  if k = .store ∧ !bit l.pte 1 then .error { code := cWriteProtect, addr := va, detail := pfDetail 0 l.level }
  else if k = .fetch ∧ !bit l.pte 2 then .error { code := cExecProtect, addr := va, detail := pfDetail 0 l.level }
  else if coh l.pte = 2 ∧ bits l.pte 63 52 ≠ a.core then .error { code := cForeign, addr := va, detail := a.core }
  else if isRemote l.pte then
    if coh l.pte = 1 ∧ homeF l.pte ≤ 1 then
      let p := s.partNamed l.pte
      if s.fab.unreachable.contains p && k != .store then
        .error { code := cNotPresent, addr := va, detail := pfDetail 6 0 }
      else .ok (.away p (l.pa va))
    else .error { code := cRemote, addr := va, detail := bits l.pte 63 52 }
  else .ok (.here (physKey (l.pa va)))

/-- Translation of a canonical global address (05 R86 check 6, R96, R97, R101, R102). -/
def State.translate (s : State) (a : Acc) (k : AKind) (va : Nat) : Except FaultInfo Loc :=
  match s.heldLeaf a va with
  | some l => s.useLeaf a k va l
  | none =>
    if a.strict && k != .fetch then .error { code := cHold, addr := va, detail := 5 } else
    match s.findLeaf a va with
    | .error (r, lv) => .error { code := cNotPresent, addr := va, detail := pfDetail r lv }
    | .ok l => s.useLeaf a k va l

/-- The leaf itself, for rules that ask whether a page is remote. -/
def State.leafFor (s : State) (a : Acc) (va : Nat) : Option Leaf :=
  match s.heldLeaf a va with
  | some l => some l
  | none => (s.findLeaf a va).toOption

/-- The die on which a walk of a place counts (05 R103). -/
def walkDie (place : Nat) : Nat := if place < 192 then place / 48 else (place - 192) / 2

/-- The number of an address space among those of the part's partitions: its id and the partition it runs in (01 R14, 05 R91). -/
def spaceKey (part asid : Nat) : Nat := part * 65536 + asid % 65536

/-- The translations of an address outside holds leave the TLBs that a unit uses. -/
def State.tlbForget (s : State) (a : Acc) (va : Nat) : State :=
  { s with mmu := { s.mmu with tlb := s.mmu.tlb.filter (fun e => e.held || !e.covers a va) } }

/-- The state with a translation held in a TLB; a full TLB gives up one entry, the choice being free (05 R97). -/
def State.tlbAdd (s : State) (e : TlbEntry) : State :=
  let mine := s.mmu.tlb.filter (fun x => x.place == e.place)
  if mine.length < tlbSize e.place then { s with mmu := { s.mmu with tlb := e :: s.mmu.tlb } }
  else
    let out := mine[Config.freeChoice s.env.freeCtr % mine.length]?
    { s with mmu := { s.mmu with tlb := e :: s.mmu.tlb.filter (fun x => some x != out) } }.useFree 1


end Sys2Proof.Machine
end

