-- ==== Sys2Proof/Machine/Operands.lean ====
section
/-! DEFINITION. Operands of instructions: registers, pairs and quads, scalars, predicates, PCs, guards, the register check of
02 R32 and the scoreboard items of 02 R29. -/
namespace Sys2Proof.Machine

/-! ## Registers of a group (02 R31) -/

/-- vR in a lane. -/
def Group.vget (g : Group) (r l : Nat) : W32 := g.v.getD (r * 32 + l) 0
/-- The group with vR of a lane written. -/
def Group.vset (g : Group) (r l : Nat) (x : W32) : Group := { g with v := g.v.put (r * 32 + l) x 0 }
/-- The pair v(R+1):vR in a lane. -/
def Group.wget (g : Group) (r l : Nat) : W64 := g.vget (r + 1) l ++ g.vget r l
/-- The group with a pair written. -/
def Group.wset (g : Group) (r l : Nat) (x : W64) : Group := (g.vset r l (x.setWidth 32)).vset (r + 1) l ((x >>> 32).setWidth 32)
/-- The number that stands for sN among a group's poisoned registers; vR's is R. -/
def poisonS (n : Nat) : Nat := 256 + n
/-- The number that stands for pN. -/
def poisonP (n : Nat) : Nat := 320 + n
/-- sN; s0 reads 0. -/
def Group.sget (g : Group) (n : Nat) : W64 := if n = 0 then 0 else g.s.getD n 0
/-- The group with sN written, which clears its poison; s0 discards the write. -/
def Group.sset (g : Group) (n : Nat) (x : W64) : Group :=
  if n = 0 then g else { g with
    s := g.s.put n x 0
    poison := g.poison.filter (· != poisonS n) }
/-- pN as a mask of lanes; p0 reads 1. -/
def Group.pmask (g : Group) (n : Nat) : Mask := if n = 0 then BitVec.allOnes 32 else g.p.getD n 0
/-- pN in a lane. -/
def Group.pget (g : Group) (n l : Nat) : Bool := (g.pmask n).getLsbD l
/-- The PC of a lane. -/
def Group.pcOf (g : Group) (l : Nat) : Nat := g.pcs.getD l 0
/-- The group with the PC of the lanes of a mask set. -/
def Group.setPc (g : Group) (lanes : Mask) (pc : Nat) : Group :=
  { g with pcs := (lanesOf lanes).foldl (fun m l => m.put l (pc % 2 ^ 32) 0) g.pcs }
/-- The group with each lane's PC set by a function. -/
def Group.setPcBy (g : Group) (lanes : Mask) (f : Nat → Nat) : Group :=
  { g with pcs := (lanesOf lanes).foldl (fun m l => m.put l (f l % 2 ^ 32) 0) g.pcs }
/-- Poisoned registers after registers are written in the lanes of a mask: a write of every lane covers one whole (12 R231). -/
def Group.cured (g : Group) (lanes : Mask) (rs : List Nat) : List Nat :=
  if lanes = BitVec.allOnes 32 then g.poison.filter (fun r => !rs.contains r) else g.poison
/-- The group with pN written in the lanes of a mask; p0 discards the write. -/
def Group.pset (g : Group) (n : Nat) (lanes x : Mask) : Group :=
  if n = 0 then g else { g with
    p := g.p.put n ((g.pmask n &&& ~~~lanes) ||| (x &&& lanes)) 0
    poison := g.cured lanes [poisonP n] }
/-- vR written in each lane of a mask. -/
def Group.vsetBy (g : Group) (lanes : Mask) (r : Nat) (f : Nat → W32) : Group :=
  { g with v := (lanesOf lanes).foldl (fun m l => m.put (r * 32 + l) (f l) 0) g.v, poison := g.cured lanes [r] }
/-- A pair written in each lane of a mask. -/
def Group.wsetBy (g : Group) (lanes : Mask) (r : Nat) (f : Nat → W64) : Group :=
  (g.vsetBy lanes r (fun l => (f l).setWidth 32)).vsetBy lanes (r + 1) (fun l => ((f l) >>> 32).setWidth 32)

/-- FPMODE.RM (03 R52). -/
def Group.rm (g : Group) : RM := rmOf (bits g.fpmode.toNat 1 0)
/-- FPMODE.NARROW (03 R52). -/
def Group.narrow (g : Group) : Fmt := narrowFmt (bits g.fpmode.toNat 5 4)

/-- Lanes of a path whose guard is true (15 R267). -/
def Group.guarded (g : Group) (lanes : Mask) (gd : BitVec 4) : Mask :=
  let m := g.pmask (gd.toNat % 8)
  lanes &&& (if gd.getLsbD 3 then ~~~m else m)

/-- The guard field of a form (15 R267); 0, always true, for a form without one and for SEL, whose guard selects (25 R376). -/
def guardOf : Instr → BitVec 4
  | .add _ _ _ g | .sub _ _ _ g | .mul _ _ _ g | .mulh _ _ _ g | .mad _ _ _ g | .min _ _ _ g | .max _ _ _ g
  | .and _ _ _ g | .or _ _ _ g | .xor _ _ _ g | .shl _ _ _ g | .shr _ _ _ g | .sar _ _ _ g | .shfl _ _ _ g
  | .addi _ _ _ g | .andi _ _ _ g | .ori _ _ _ g | .xori _ _ _ g | .shli _ _ _ g | .shri _ _ _ g | .sari _ _ _ g
  | .fadd _ _ _ g | .fsub _ _ _ g | .fmul _ _ _ g | .ffma _ _ _ g | .fmin _ _ _ g | .fmax _ _ _ g | .fdiv _ _ _ g
  | .cvts _ _ _ g | .hadd2 _ _ _ g | .hmul2 _ _ _ g | .hfma2 _ _ _ g | .cmp _ _ _ _ g | .fcmp _ _ _ _ g
  | .lea _ _ _ g | .ldU8 _ _ _ g | .ldS8 _ _ _ g | .ldU16 _ _ _ g | .ldS16 _ _ _ g | .ld32 _ _ _ g | .ld64 _ _ _ g
  | .ld128 _ _ _ g | .ldro32 _ _ _ g | .ldro128 _ _ _ g | .st8 _ _ _ g | .st16 _ _ _ g | .st32 _ _ _ g
  | .st64 _ _ _ g | .st128 _ _ _ g | .bra _ g | .call _ g | .mov _ _ g | .not _ _ g | .abs _ _ g | .popc _ _ g
  | .clz _ _ g | .brev _ _ g | .movs _ _ g | .movsHi _ _ g | .rdlane _ _ g | .fabs _ _ g | .fneg _ _ g | .frcp _ _ g
  | .frsq _ _ g | .fsqrt _ _ g | .fexp2 _ _ g | .flog2 _ _ g | .fsin _ _ g | .fcos _ _ g | .frndRne _ _ g
  | .frndRtz _ _ g | .frndRup _ _ g | .frndRdn _ _ g | .cvt _ _ _ g | .rzcvt _ _ g | .rzadd _ _ g | .vsome _ _ g
  | .vevery _ _ g | .badge _ _ g | .mates _ _ g | .refoldAdd _ _ g | .refoldMin _ _ g | .refoldMax _ _ g
  | .refoldFadd _ _ g | .refoldMinu _ _ g | .refoldMaxu _ _ g | .ppack _ g | .punpack _ g | .pand _ _ g | .por _ _ g
  | .pxor _ _ g | .pnot _ _ g | .sptest _ _ _ g | .spcastToprv _ _ g | .spcastToscr _ _ g | .spcastToclu _ _ g
  | .spcastPrvgen _ _ g | .spcastScrgen _ _ g | .spcastClugen _ _ g | .lda _ _ g | .pref _ g | .invro g | .cflush _ g
  | .cinv _ g | .atomAdd _ _ _ g | .atomMinS _ _ _ g | .atomMaxS _ _ _ g | .atomMinU _ _ _ g | .atomMaxU _ _ _ g
  | .atomAnd _ _ _ g | .atomOr _ _ _ g | .atomXor _ _ _ g | .atomExch _ _ _ g | .atomcas _ _ _ g | .redAdd32 _ _ g
  | .redAdd64 _ _ g | .redMaxU64 _ _ g | .redMinS32 _ _ g | .redMaxS32 _ _ g | .redOr32 _ _ g | .redFaddF32 _ _ g
  | .redRzadd _ _ g | .fence _ g | .monitor _ g | .mwait _ g | .batseal _ g | .batwait _ g | .chwait _ _ g | .exit g
  | .ret g | .brx _ g | .callx _ g | .conv g | .yield g | .trap _ g | .brk _ g | .bcopy _ g | .bcast _ g | .stage g
  | .mxissue _ _ _ g | .mxchain g | .mxend g | .mxdrain _ g | .mxzero _ g | .mxrd _ _ _ g | .mxwr _ _ _ g | .mxwait g
  | .ringput _ _ _ g | .ringget _ _ _ g | .launch _ _ g | .launchp _ _ g | .tspawn _ _ g | .twait _ _ g
  | .twaitLock _ _ g | .cancel _ g | .cancelKill _ g | .trace _ _ g | .callret _ _ g | .treelock _ _ g
  | .treepub _ _ g | .lfetchBil _ _ g | .lfetchTri _ _ g | .hgrid _ _ g | .sysr _ _ g | .sysrV _ _ g | .sysw _ _ g
  | .rdtime _ g => g
  | _ => 0

/-! ## The register check (02 R32) -/

/-- A register field as a form uses it: `count` vector registers from `n` on, `n` a multiple of `align`; or a tile. -/
inductive RegUse where
  | vec (n count align : Nat)
  | tile (n : Nat)
deriving DecidableEq, Repr

/-- A field fails the check, under a budget and a tile allotment. -/
def RegUse.bad (budget tiles : Nat) : RegUse → Bool
  | .vec n c a => n % a != 0 || decide (budget < n + c)
  | .tile n => decide (tiles ≤ n)

/-- The detail of an ILLEGAL_REGISTER record: the number in the field and its file (12 R217). -/
def RegUse.detail : RegUse → Nat
  | .vec n _ _ => n % 256
  | .tile n => n % 256 + 3 * 256

/-- The check that fails first, in the order of the list. A group that is no team member has no tiles, and its matrix
forms raise BATON_NOT_HELD instead (24 R357), so tiles are checked in teams alone. -/
def regsFail (budget : Nat) (tiles : Option Nat) (l : List RegUse) : Option RegUse :=
  l.find? (fun u => match u, tiles with
    | .tile _, none => false
    | u, t => u.bad budget (t.getD 0))

/-- One vector register. -/
def uv (n : BitVec 7) : RegUse := .vec n.toNat 1 1
/-- A pair. -/
def uw (n : BitVec 7) : RegUse := .vec n.toNat 2 2
/-- A quad. -/
def uq (n : BitVec 7) : RegUse := .vec n.toNat 4 4

/-- The register fields of a form, in the order D, A, B in which they are checked (02 R32, 15 R281). -/
def regsOf : Instr → List RegUse
  | .nop => []
  | .mov16 d b | .add16 d b | .sub16 d b | .mul16 d b | .and16 d b | .or16 d b | .xor16 d b | .shl16 d b | .shr16 d b
  | .min16 d b | .max16 d b | .fadd16 d b | .fsub16 d b | .fmul16 d b | .fmin16 d b | .fmax16 d b =>
    [.vec d.toNat 1 1, .vec b.toNat 1 1]
  | .add d a b _ | .sub d a b _ | .mul d a b _ | .mulh d a b _ | .mad d a b _ | .min d a b _ | .max d a b _ | .and d a b _
  | .or d a b _ | .xor d a b _ | .shl d a b _ | .shr d a b _ | .sar d a b _ | .sel d a b _ | .shfl d a b _ | .fadd d a b _
  | .fsub d a b _ | .fmul d a b _ | .ffma d a b _ | .fmin d a b _ | .fmax d a b _ | .fdiv d a b _ | .cvts d a b _
  | .hadd2 d a b _ | .hmul2 d a b _ | .hfma2 d a b _ => [uv d, uv a, uv b]
  | .lea d a b _ => [uw d, uw a, uv b]
  | .addi d a _ _ | .andi d a _ _ | .ori d a _ _ | .xori d a _ _ | .shli d a _ _ | .shri d a _ _ | .sari d a _ _ => [uv d, uv a]
  | .cmp _ a b _ _ | .fcmp _ a b _ _ => [uv a, uv b]
  | .movi d _ | .movhi d _ => [uv d]
  | .ldU8 d a _ _ | .ldS8 d a _ _ | .ldU16 d a _ _ | .ldS16 d a _ _ | .ld32 d a _ _ | .ldro32 d a _ _
  | .st8 d a _ _ | .st16 d a _ _ | .st32 d a _ _ => [uv d, uw a]
  | .ld64 d a _ _ | .st64 d a _ _ => [uw d, uw a]
  | .ld128 d a _ _ | .ldro128 d a _ _ | .st128 d a _ _ => [uq d, uw a]
  | .mov d a _ | .not d a _ | .abs d a _ | .popc d a _ | .clz d a _ | .brev d a _ | .rdlane d a _ | .fabs d a _ | .fneg d a _
  | .frcp d a _ | .frsq d a _ | .fsqrt d a _ | .fexp2 d a _ | .flog2 d a _ | .fsin d a _ | .fcos d a _ | .frndRne d a _
  | .frndRtz d a _ | .frndRup d a _ | .frndRdn d a _ | .mates d a _ | .callret d a _ => [uv d, uv a]
  | .cvt d a _ _ => [uv d, uv a]
  | .movs d _ _ | .movsHi d _ _ => [uv d]
  | .rzcvt d a _ => [uv d, uw a]
  | .rzadd d a _ => [uw d, uw a]
  | .refoldAdd _ a _ | .refoldMin _ a _ | .refoldMax _ a _ | .refoldFadd _ a _ | .refoldMinu _ a _ | .refoldMaxu _ a _ => [uv a]
  | .ppack d _ => [uv d]
  | .punpack a _ => [uv a]
  | .sptest _ a _ _ => [uw a]
  | .spcastToprv d a _ | .spcastToscr d a _ | .spcastToclu d a _ => [uv d, uw a]
  | .spcastPrvgen d a _ | .spcastScrgen d a _ | .spcastClugen d a _ => [uw d, uv a]
  | .lda d a _ => [uw d, uw a]
  | .pref a _ | .cflush a _ | .cinv a _ => [uw a]
  | .atomAdd d a w _ | .atomMinS d a w _ | .atomMaxS d a w _ | .atomMinU d a w _ | .atomMaxU d a w _ | .atomAnd d a w _
  | .atomOr d a w _ | .atomXor d a w _ | .atomExch d a w _ => [if w = 0 then uv d else uw d, uw a]
  | .atomcas d a w _ => [if w = 0 then uw d else uq d, uw a]
  | .redAdd32 d a _ | .redMinS32 d a _ | .redMaxS32 d a _ | .redOr32 d a _ | .redFaddF32 d a _ => [uv d, uw a]
  | .redAdd64 d a _ | .redMaxU64 d a _ | .redRzadd d a _ => [uw d, uw a]
  | .brx a _ | .callx a _ => [uv a]
  | .ringput d _ _ _ | .ringget d _ _ _ => [uv d]
  | .trace d a _ => [uv d, .vec a.toNat 12 4]
  | .lfetchBil d a _ | .lfetchTri d a _ => [.vec d.toNat 4 4, .vec a.toNat 5 4]
  | .hgrid d a _ => [.vec d.toNat 1 2, .vec a.toNat 5 4]
  | .repack d _ => [uv d]
  | .mxzero t _ => [.tile t.toNat]
  | .mxrd d _ t _ | .mxwr d _ t _ => [.vec d.toNat 8 8, .tile t.toNat]
  | .sysrV d _ _ => [.vec d.toNat 1 1]
  | _ => []

/-! ## The scoreboard (02 R29) -/

/-- vR is pending for a lane of a mask. -/
def Group.vPending (g : Group) (r : Nat) (lanes : Mask) : Mask :=
  g.pend.foldl (fun m q => if q.regs.contains r then m ||| (q.lanes &&& lanes) else m) 0
/-- sN is pending. -/
def Group.sPending (g : Group) (n : Nat) : Bool := g.pend.any (fun q => q.sreg == some n)

/-- The items of a form that must have landed before it issues for a lane: vector registers it reads or writes, and scalar
registers it reads or writes. MX forms that read registers list them (04 R74, R78). -/
structure Items where
  vs : List Nat
  ss : List Nat
deriving DecidableEq, Repr

/-- Vector registers a register use covers. -/
def RegUse.covers : RegUse → List Nat
  | .vec n c _ => (List.range c).map (n + ·)
  | .tile _ => []

/-- Scalar registers a form names (15 R273, R279). -/
def scalarsOf : Instr → List Nat
  | .sadd d a b | .ssub d a b | .smul d a b | .sand d a b | .sor d a b | .sxor d a b | .sshl d a b | .sshr d a b | .ssar d a b
  | .smin d a b | .smax d a b | .slt d a b => [d.toNat, a.toNat, b.toNat]
  | .smov d a => [d.toNat, a.toNat]
  | .spset _ a => [a.toNat]
  | .saddImm d a _ | .ssubImm d a _ | .smulImm d a _ | .sandImm d a _ | .sorImm d a _ | .sxorImm d a _ | .sshlImm d a _
  | .sshrImm d a _ | .ssarImm d a _ | .sminImm d a _ | .smaxImm d a _ | .sltImm d a _ | .sld d a _ | .sst d a _ => [d.toNat, a.toNat]
  | .smovImm d _ | .smovi d _ | .smovhi d _ => [d.toNat]
  | .movs _ a _ | .movsHi _ a _ => [a.toNat]
  | .badge d _ _ => [d.toNat]
  | .refoldAdd d _ _ | .refoldMin d _ _ | .refoldMax d _ _ | .refoldFadd d _ _ | .refoldMinu d _ _ | .refoldMaxu d _ _ => [d.toNat]
  | .monitor a _ | .batwait a _ | .bcopy a _ | .bcast a _ | .mxdrain a _ | .cancel a _ | .cancelKill a _ => [a.toNat]
  | .mwait d _ | .batseal d _ | .rdtime d _ => [d.toNat]
  | .chwait d a _ | .launch d a _ | .launchp d a _ | .tspawn d a _ | .treelock d a _ | .treepub d a _ => [d.toNat, a.toNat]
  | .mxissue _ a _ _ => [a.toNat]
  | .twait _ a _ | .twaitLock _ a _ => [a.toNat]
  | .repack _ a => [a.toNat]
  | .sysr d _ _ => [d.toNat]
  | .sysw d _ _ => [d.toNat]
  | _ => []

/-- The items of a form. A CALL writes v8, a RET and CALLX read or write it; the matrix forms name theirs. The registers that an HGRID
writes follow from its descriptor (11 R207); `State.landedLanes` adds them. -/
def itemsOf (i : Instr) : Items :=
  let more : List Nat := match i with
    | .call _ _ | .ret _ | .callx _ _ => [8]
    | .mxissue d _ _ _ => [d.toNat, d.toNat + 1]
    | _ => []
  { vs := ((regsOf i).map RegUse.covers).flatten ++ more, ss := scalarsOf i }

/-- Lanes of a path for which an item of the form is pending. Lanes whose guard is false read and write none (02 R29). SHFL waits for
vA in its source lanes (25 R377), and RDLANE for vA in the lowest lane; a form that acts once on a scalar waits as a whole. -/
def Group.notLanded (g : Group) (i : Instr) (lanes : Mask) : Mask :=
  if g.pend.isEmpty then 0 else
  let it := itemsOf i
  let part := g.guarded lanes (guardOf i)
  let own (vs : List Nat) : Mask := vs.foldl (fun m r => m ||| g.vPending r part) 0
  if it.ss.any g.sPending then part else
  match i with
  | .shfl d a b _ =>
    own [d.toNat, b.toNat] ||| maskOf (fun l => part.getLsbD l &&
      (g.vPending a.toNat (laneBit ((g.vget b.toNat l).toNat % 32)) != 0))
  | .mates _ a _ | .refoldAdd _ a _ | .refoldMin _ a _ | .refoldMax _ a _ | .refoldFadd _ a _ | .refoldMinu _ a _
  | .refoldMaxu _ a _ => if g.vPending a.toNat part != 0 then part else own it.vs
  | .rdlane d a _ => if g.vPending a.toNat (laneBit (lowLane part)) != 0 then part else own [d.toNat]
  | .role _ | .roleOffer => lanes
  | .rdtime .. => if g.pend.any (fun q => q.lanes &&& part != 0) then part else 0
  | .mxissue d _ _ _ => if g.vPending d.toNat (BitVec.allOnes 32) ||| g.vPending (d.toNat + 1) (BitVec.allOnes 32) != 0 then part else 0
  | _ => own it.vs

/-- Scalar registers a form reads: every one it names but a destination it only writes. -/
def scalarReads (i : Instr) : List Nat :=
  match i with
  | .sst .. | .smovhi .. | .mwait .. | .chwait .. | .treepub .. | .sysw .. | .spset .. | .movs .. | .movsHi .. | .monitor .. | .batwait ..
  | .bcopy .. | .bcast .. | .mxdrain .. | .cancel .. | .cancelKill .. | .mxissue .. | .twait .. | .twaitLock .. | .repack .. => scalarsOf i
  | _ => (scalarsOf i).drop 1

/-- Predicates a form reads beside its guard: SEL selects by its guard field, the predicate forms read the ones they name. -/
def predReads : Instr → List Nat
  | .sel _ _ _ g => [g.toNat % 8]
  | .vsome _ a _ | .vevery _ a _ | .badge _ a _ | .pnot _ a _ => [a.toNat]
  | .pand d a _ | .por d a _ | .pxor d a _ => [d.toNat, a.toNat]
  | .ppack .. => [1, 2, 3, 4, 5, 6, 7]
  | _ => []

/-- Registers a form reads, for the poison check of 12 R231: every register it names but a destination it only writes. -/
def readsOf (i : Instr) : List Nat :=
  let all := (regsOf i).map RegUse.covers
  match i with
  | .st8 .. | .st16 .. | .st32 .. | .st64 .. | .st128 .. | .mad .. | .ffma .. | .hfma2 .. | .rzadd .. | .lda .. | .callret ..
  | .punpack .. | .brx .. | .callx .. | .pref .. | .cflush .. | .cinv .. | .cmp .. | .fcmp .. | .sptest .. | .repack ..
  | .refoldAdd .. | .refoldMin .. | .refoldMax .. | .refoldFadd .. | .refoldMinu .. | .refoldMaxu .. | .ringput .. | .movhi ..
  | .atomAdd .. | .atomMinS .. | .atomMaxS .. | .atomMinU .. | .atomMaxU .. | .atomAnd .. | .atomOr .. | .atomXor .. | .atomExch ..
  | .atomcas .. | .redAdd32 .. | .redAdd64 .. | .redMaxU64 .. | .redMinS32 .. | .redMaxS32 .. | .redOr32 .. | .redFaddF32 ..
  | .redRzadd .. => all.flatten
  | .mov16 .. => (all.drop 1).flatten
  | .add16 .. | .sub16 .. | .mul16 .. | .and16 .. | .or16 .. | .xor16 .. | .shl16 .. | .shr16 .. | .min16 .. | .max16 ..
  | .fadd16 .. | .fsub16 .. | .fmul16 .. | .fmin16 .. | .fmax16 .. => all.flatten
  | .mxissue d _ _ _ => [d.toNat, d.toNat + 1]
  | .mxwr d _ _ _ => (List.range 8).map (d.toNat + ·)
  | .ret _ => [8]
  | _ => (all.drop 1).flatten

/-- The form is one that the engine accepts and that must find the baton first (04 R68). -/
def wantsBaton : Instr → Bool
  | .mxissue .. | .mxwr .. | .mxdrain .. => true
  | _ => false

/-- The predicate of a form's guard is poisoned. -/
def Group.guardPoison (g : Group) (i : Instr) : Bool := g.poison.contains (poisonP ((guardOf i).toNat % 8))

/-- A register that a form reads is poisoned: its guard in any case, the others when a lane takes part (12 R231). -/
def Group.readsPoison (g : Group) (i : Instr) (part : Mask) : Bool :=
  !g.poison.isEmpty && (g.guardPoison i ||
    (part != 0 && ((readsOf i).any g.poison.contains || ((scalarReads i).map poisonS).any g.poison.contains ||
      ((predReads i).map poisonP).any g.poison.contains)))

end Sys2Proof.Machine
end

