-- ==== Sys2Proof/Machine/Place.lean ====
section
/-! DEFINITION. Where the bytes of HBM lie, and the requests at pseudo-channels (06 R104 to R122). -/
namespace Sys2Proof.Machine

/-- The stack, and so the slice, whose physical range an address lies in (05 R94, 06 R118). -/
def stackOfRange (pa : Nat) : Nat :=
  if inHbm pa 1 then pa / 0x1000000000
  else if inTier pa 1 then (pa - 0x010000000000) / 0x3000000000
  else (pa - 0x030000000000) / 0x3000000 % 8

/-- The span's pseudo-channels, slots and prime (06 R109): P, S, Q and log2 P. -/
structure Span where
  p : Nat
  s : Nat
  q : Nat
  lg : Nat

/-- The span of the current mode. -/
def State.span (st : State) : Span :=
  if st.disp.whole then { p := 512, s := 128, q := 509, lg := 9 } else { p := 64, s := 1024, q := 61, lg := 6 }

/-- XOR of the successive `lg`-bit fields of a number (06 R110). -/
def foldBits : Nat → Nat → Nat → Nat
  | 0, _, _ => 0
  | f + 1, lg, b => (b % 2 ^ lg) ^^^ foldBits f lg (b / 2 ^ lg)

/-- Rotation left within `lg` bits. -/
def rotL (lg x v : Nat) : Nat := (x * 2 ^ v % 2 ^ lg) ||| (x / 2 ^ (lg - v))

/-- X(v, B, t) (06 R110). -/
def mixX (sp : Span) (v b t : Nat) : Nat := rotL sp.lg (foldBits 8 sp.lg b ^^^ (37 * t % sp.p)) v

/-- The pseudo-channel within the span and the slot that a family gives (06 R110). -/
def State.familyPlace (st : State) (span fam v b g : Nat) : Nat × Nat :=
  let sp := st.span
  let wide := ((g % sp.p) ^^^ mixX sp v b (g / sp.p), g / sp.p)
  match fam with
  | 0 => if st.disp.whole then
      (64 * ((g / 8192 % 8) ^^^ (b % 8)) + ((g % 64) ^^^ (mixX sp v b (g / 64 % 128) % 64)), g / 64 % 128)
    else wide
  | 2 =>
    if g < sp.q * sp.s then ((g % sp.q + foldBits 8 sp.lg b + 127 * v) % sp.q, g % sp.s)
    else (sp.q + (g - sp.q * sp.s) % 3, (g - sp.q * sp.s) / 3)
  | 3 => let e := g / 8
    ((e % sp.p) ^^^ mixX sp v b (e / sp.p % 2 ^ (13 - sp.lg)), 8 * (e / sp.p % 2 ^ (13 - sp.lg)) + g % 8)
  | 4 | 6 =>
    let pc := (List.range sp.lg).foldl (fun a i =>
      a + ((g / 2 ^ i % 2 + parity 22 (bits (st.ctlN .memUserMask (span * 36 + 9 * v + i)) 21 0 &&& (b * sp.s + g / sp.p))) % 2) * 2 ^ i) 0
    (pc, g / sp.p)
  | _ => wide

/-- The family whose version a family uses (06 R113). -/
def versionFamily (fam : Nat) : Nat := match fam with | 5 => 1 | 6 => 4 | 7 => 1 | f => f

/-- The family and the target of a span's sweep: those with which it began. A later write of FAMILY and TARGET is a request for another one
(00 R3, 06 R113). -/
def State.sweep (st : State) (span : Nat) : Nat × Nat := st.msys.sweeps.getD span (0, 0)

/-- The version a block of a family uses (06 R112, R113). -/
def State.version (st : State) (span fam b : Nat) : Nat :=
  let c := st.ctlN .memRemapCtl span
  let f := versionFamily fam
  if bit c 15 && (st.sweep span).1 == f && decide (b < bits c 63 48) then (st.sweep span).2 else bits c (33 + 2 * f) (32 + 2 * f)

/-- Where a byte of HBM lies: span, block of the span, pseudo-channel of the part, in-channel address (06 R109). -/
structure HPlace where
  span : Nat
  block : Nat
  fam : Nat
  pc : Nat
  addr : Nat
deriving DecidableEq, Repr

/-- The place of a byte of HBM. -/
def State.hbmPlace (st : State) (pa : Nat) : HPlace :=
  let sp := st.span
  let span := if st.disp.whole then 0 else pa / 0x1000000000
  let gi := pa / 256 % (if st.disp.whole then 2 ^ 31 else 2 ^ 28)
  let b := gi / 65536
  let fam := bits (st.ctlN .memBlockFamily (pa / 0x1000000)) 2 0
  let pl := st.familyPlace span fam (st.version span fam b) b (gi % 65536)
  { span := span, block := b, fam := fam, pc := pl.1 + (if st.disp.whole then 0 else 64 * span),
    addr := (b * sp.s + pl.2) * 256 + pa % 256 }

/-- The stack that serves a physical address: the stack of its pseudo-channel in HBM. -/
def State.servedBy (st : State) (pa : Nat) : Nat := if inHbm pa 1 then (st.hbmPlace pa).pc / 64 else stackOfRange pa

/-- The deadline of a class in a partition, from now (06 R104, R105): the stamp 0xFFF means none. -/
def State.stampOf (st : State) (part cls : Nat) : Nat :=
  bits (st.ctlN .memClassDeadline part) (15 + 16 * cls) (4 + 16 * cls)
/-- A stamp as a time in ns. -/
def State.deadline (st : State) (stamp : Nat) : Option Nat := if stamp = 0xFFF then none else some (st.podTime + 64 * stamp)

/-- The hotness counter of a physical address: its index over both I/O dies (06 R122). -/
def hotIndex (pa : Nat) : Option Nat :=
  if inHbm pa 1 then some (pa / 0x4000000000 * 524288 + pa % 0x4000000000 / 0x200000)
  else if inTier pa 1 then
    let o := pa - 0x010000000000
    some (o / 0xC000000000 * 524288 + 131072 + o % 0xC000000000 / 0x200000)
  else none

/-! ## Compression (06 R119) -/

/-- The size code of a granule, by its number in HBM: of a block of family 5 or 6, the code of the bytes it holds; 3, which stands for 256
bytes, until it has been rewritten since its block's metadata was cleared. None for a block of another family (06 R119, log 76). -/
def State.packCode (s : State) (g : Nat) : Option Nat :=
  let b := g / 65536
  let fam := bits (s.ctlN .memBlockFamily b) 2 0
  if fam ≠ 5 ∧ fam ≠ 6 then none else
  let mine (l : List Host.Cell) : List Host.Cell := l.filter (fun c => c.1 % 4 == 0 && c.1 / 4 / 256 == g)
  if mine s.mem.cells = mine (s.msys.cleared.getD b []) then some 3
  else some (Config.packCode (s.mem.bytes (physKey (256 * g)) 256) % 4)

/-- Where a byte of a place is stored: the four quarters of a granule lie in as many sectors of its slot as its size code says, in
order (06 R119; log 76). -/
def State.stored (st : State) (pa addr : Nat) : Nat :=
  match st.packCode (pa / 256) with
  | some c => addr / 256 * 256 + addr % 256 / 64 * (c + 1) / 4 * 64 + addr % 64
  | none => addr

/-! ## Requests -/

/-- What a requester asks of the memory system (06 R104, R108): partition, requester's number (506: none), class, stamp; the FAMILY
that its page-table entry carries, none where there is no entry; the pending result that the data serve; the stack whose
pseudo-channels hold it where it is private memory (05 R87); and whether it goes through the L2 (05 R92; log 14). -/
structure Ask where
  part : Nat
  requester : Nat
  cls : Nat
  stamp : Nat
  write : Bool
  carried : Option Nat
  serves : Option Nat := none
  home : Option Nat := none
  cached : Bool := false

/-- What a page-table entry has its accesses carry: FAMILY, and HOME in its low bits (05 R92). -/
def pteTag (pte : Nat) : Nat := bits pte 11 7
/-- A request with what a page-table entry has it carry; a page with HOME = 01 is not cached (05 R92, 06 R111). -/
def Ask.tagged (a : Ask) (tag : Option Nat) : Ask :=
  { a with
    carried := tag.map (· / 4)
    cached := tag.any (· % 4 != 1) }

/-- A deadline is earlier than another; none is later than any. -/
def earlier (a b : Option Nat) : Bool :=
  match a, b with
  | some x, some y => decide (x < y)
  | some _, none => true
  | none, _ => false

/-- A request joins its scheduler's queue: an earlier one to its sector takes its class and deadline, if its class is lower or its
deadline is earlier (06 R107). -/
def State.enqueue (st : State) (q : MemReq) : State :=
  let hasten (p : MemReq) : MemReq :=
    if p.pc = q.pc ∧ p.addr / 64 = q.addr / 64 ∧ (q.cls < p.cls ∨ earlier q.deadline p.deadline) then
      { p with
        cls := q.cls
        deadline := q.deadline }
    else p
  { st with msys := { st.msys with reqs := st.msys.reqs.map hasten ++ [q] } }.useIds 1

/-- A place of the tier as a scheduler's number and an address in its channel: granules are spread over the channels of the I/O die that
holds the eighth (06 R121). -/
def tierPlace (pa : Nat) : HPlace :=
  let o := pa - 0x010000000000
  { span := 0, block := 0, fam := 1, pc := 512 + o / 0xC000000000 + 2 * Config.tierChannel (o / 256), addr := o }

/-- An access to a 64-byte sector reaches its scheduler: it is queued, counted for hotness (06 R122), and a family that it carries and
its block does not have is counted (06 R111). -/
def State.request (st : State) (a : Ask) (pa : Nat) : State :=
  if !(inHbm pa 1 || inTier pa 1) then st else
  let pl := if inHbm pa 1 then st.hbmPlace pa else tierPlace pa
  let pc := match a.home with | some k => 64 * k + pl.pc % 64 | none => pl.pc
  let st1 := if inHbm pa 1 ∧ ((a.carried.getD pl.fam ≠ pl.fam) ∨ pl.fam = 7) then st.count .memFamilyMismatch pl.span 1 else st
  let hot := match hotIndex pa with
    | some i => st1.msys.hot.put i (min 0xFFFF (st1.msys.hot.getD i 0 + 1)) 0
    | none => st1.msys.hot
  { st1 with msys := { st1.msys with hot := hot } }.enqueue
    { id := st.env.fresh, pc := pc, addr := st.stored pa pl.addr, sector := pa / 64, cls := a.cls, deadline := st.deadline a.stamp,
      arrived := st.podTime, requester := a.requester, write := a.write, family := pl.fam, span := pl.span, fill := false,
      serves := a.serves }

/-- The L2 holds a sector (01 R11). -/
def State.inL2 (st : State) (pa : Nat) : Bool := st.msys.l2.contains (pa / 64)

/-- The sectors of 64 bytes that the L2 slices beside one stack hold: 48 MiB (01 R11, R13). -/
def l2Size : Nat := 786432

/-- A sector comes into the L2; where the slices of its stack are full, another leaves, the choice being free (01 R11; log 14). -/
def State.l2Add (st : State) (pa : Nat) : State :=
  if st.inL2 pa then st else
  let mine := st.msys.l2.filter (fun q => stackOfRange (64 * q) == stackOfRange pa)
  if mine.length < l2Size then { st with msys := { st.msys with l2 := pa / 64 :: st.msys.l2 } }
  else
    let out := mine[Config.freeChoice st.env.freeCtr % mine.length]?
    { st with msys := { st.msys with l2 := pa / 64 :: st.msys.l2.filter (fun q => some q != out) } }.useFree 1

/-- The addresses at which an access of `n` bytes reaches its schedulers: one in each sector, but for a read's in sectors that the L2 holds;
sectors stored in one are moved once (06 R119). -/
def State.asked (st : State) (a : Ask) (pa n : Nat) : List Nat :=
  let all := (List.range ((pa + n + 63) / 64 - pa / 64)).map (fun i => max pa (64 * (pa / 64 + i)))
  let out := if a.cached && !a.write then all.filter (fun p => !st.inL2 p) else all
  out.foldl (fun l p => if l.any (fun q => q / 256 == p / 256 && st.stored q (q % 256) / 64 == st.stored p (p % 256) / 64) then l
    else l ++ [p]) []

/-- An access of `n` bytes: its requests; through the L2, its sectors are held there afterwards. -/
def State.requests (st : State) (a : Ask) (pa n : Nat) : State :=
  let st1 := (st.asked a pa n).foldl (fun st p => st.request a p) st
  if a.cached && (inHbm pa 1 || inTier pa 1) then
    (List.range ((pa + n + 63) / 64 - pa / 64)).foldl (fun st i => st.l2Add (64 * (pa / 64 + i))) st1
  else st1

/-- The requester and deadline of each request of an access of `n` bytes, for the landing of the data it brings (06 R108). Bytes pinned in
a Cupola come with one. -/
def State.dues (st : State) (a : Ask) (pa n : Nat) : List (Nat × Nat) :=
  match st.deadline a.stamp with
  | some d => (st.asked a pa n).map (fun _ => (a.requester, d))
  | none => []

/-- The state once requests are judged: each whose data come, or whose write commits, after its deadline is counted for its requester, if
R108 gives it a number. -/
def State.noteMisses (st : State) (l : List (Nat × Nat)) : State :=
  (l.filter (fun q => decide (q.2 < st.podTime))).foldl (fun t q => if q.1 < 506 then t.count .memMissed q.1 1 else t) st

/-! ## Reduction partials (07 R133) -/

/-- Two runs of bytes share a byte. -/
def overlaps (k n j m : Nat) : Bool := k % 4 == j % 4 && decide (k / 4 < j / 4 + m) && decide (j / 4 < k / 4 + n)

/-- The shader die on which the combining of partials at a key is counted: the one beside the serving stack, or a scratchpad's own. -/
def State.dieOfKey (s : State) (k : Nat) : Nat :=
  if k % 4 = 1 then dieOfCore (((s.teams.find? (fun e => e.2.scrId == k / 4 / 2 ^ 24)).map (·.2.core)).getD 0)
  else s.servedBy (k / 4) / 2

/-- The state with reduction partials at `n` bytes combined for good, and counted (07 R133, R143). -/
def State.combine (s : State) (k n : Nat) : State :=
  if s.mem.red.any (fun e => overlaps k n e.1 4 && !e.2.xs.isEmpty)
  then (s.settle k n).count .cohRedCombine (s.dieOfKey k) 1 else s.settle k n

/-! ## Walks and TLBs (05 R97, R103; 06 R104) -/

/-- A page-table walk is made: it is counted on a die with the time it takes, and its reads are requests of class 1, which combine partials
in the entries (07 R133). -/
def State.noteWalk (s : State) (a : Acc) (die va : Nat) : State :=
  let s1 := (s.count .tlbDieMisses die 1).count .tlbWalkNs die (Config.spentNs s.env.freeCtr)
  let s2 := if s.walkBreaksRun a.part va 5 a.root then s1.count .tlbRunBroken die 1 else s1
  let k : Ask := { part := a.part, requester := a.req, cls := 1, stamp := s.stampOf a.part 1, write := false, carried := none }
  (s.walkReads a.part va 5 a.root).foldl (fun t q => (t.requests k q.1 q.2).combine (physKey q.1) q.2) (s2.useFree 1)

/-- Where the hold map's 8 bytes for a page lie in its context's hold pool (05 R100; log 104). -/
def State.mapSlot (s : State) (part ctx slot : Nat) : Nat :=
  ((s.disp.ctxs.get? (part * 2 + ctx)).map (·.hold.base)).getD 0 + 8 * slot
/-- Where those of a held page lie. -/
def State.holdMap (s : State) (h : Held) : Nat := s.mapSlot h.part h.ctx h.slot
/-- The lowest places of a hold pool that hold no page's map, as many as asked. -/
def State.mapSlots (s : State) (part ctx n : Nat) : List Nat :=
  let used := (s.mmu.held.filter (fun q => q.part == part && q.ctx == ctx)).map (·.slot)
  ((List.range (used.length + n)).filter (fun i => !used.contains i)).take n

/-- An access to a held page goes through the TLBs: a miss is filled from the hold map in one read of class 1 (05 R101, 06 R104). -/
def State.noteHeld (s : State) (a : Acc) (h : Held) (va : Nat) : State :=
  let e (p : Nat) : TlbEntry :=
    { place := p, part := a.part, asid := a.asid, leaf := { h.leaf with base := va % 2 ^ 57 / 4096 * 4096, size := 4096 }, held := true }
  let fill (t : State) : State := t.requests
    { part := a.part, requester := a.req, cls := 1, stamp := s.stampOf a.part 1, write := false, carried := none } (s.holdMap h) 8
  let found := (tlbPlaces a.place).any (fun p => s.mmu.tlb.contains (e p))
  (tlbPlaces a.place).foldl (fun t p => if t.mmu.tlb.contains (e p) || found && p != a.place then t else t.tlbAdd (e p))
    (if found then s else fill s)

/-- The state after an access has gone through the TLBs: a hit in the die's TLB fills the place's own; where none is used, the table is
walked, and what it holds takes the place of what was cached (05 R97, R98). -/
def State.noteAccess (s : State) (a : Acc) (va : Nat) : State :=
  match s.heldFor a va with
  | some h => s.noteHeld a h va
  | none =>
  match s.tlbUsed a va with
  | some l =>
    let e : TlbEntry := { place := a.place, part := a.part, asid := a.asid, leaf := l }
    if s.mmu.tlb.contains e || tlbPlaces a.place = [] then s else s.tlbAdd e
  | none =>
    let s1 := (s.noteWalk a (walkDie a.place) va).tlbForget a va
    match s.walk a.part a.root va with
    | .ok l => (tlbPlaces a.place).foldl (fun t p => t.tlbAdd { place := p, part := a.part, asid := a.asid, leaf := l }) s1
    | .error _ => s1

end Sys2Proof.Machine
end

