-- ==== Sys2Proof/Machine/Ops.lean ====
section
/-! DEFINITION. The machine's shared operations: groups, teams and grids by number; checked addresses; writes the T9 makes
later; events; fault records; taking a fault and ending a work unit; the frame of every instruction's issue. -/
namespace Sys2Proof.Machine

/-! ## Groups, teams, grids -/

/-- The grid of nothing: every number 0. -/
def noGrid : Grid :=
  { r := { addr := 0, codeBase := 0, entry := 0, coRes := false, pod := false, cancelOnFault := false, strict := false,
           stealable := false, cls := 0, prio := 0, x := 1, y := 1, z := 1, groups := 1, cset := 1, budL := 16, budC := 16,
           budS := 16, scr := 0, tiles := 0, argp := 0, holdp := 0, schedp := 0, cw := 0, fa := 0, hdrp := 0, firstPart := 0,
           partCount := 1, streak := 0, m := 0, lag := 0, stack := 0, priv := 0, ring := 0, strag := 0 }
    h := { roles := false, eL := 0, eC := 0, eS := 0, nL := 0, nC := 0, nS := 0, sites := 0, saveBytes := 0, table := 0 }
    cs := { n := 1, teamStride := 0, roundStride := 0 }
    asid := 0, root := 0, part := 0, ctx := 0, die := 0, child := false, cmd := none, gang := false, launcher := true, member := 0,
    state := .runs, tickets := [(0, 0), (0, 0), (0, 0), (0, 0)], work := [(0, 0), (0, 0), (0, 0), (0, 0)], reserved := [],
    retired := 0, others := 0, partsDone := 0, faults := 0, recs := [], faulted := false, cancelled := false, killed := false, status := 0,
    began := 0, sent := 0, replies := [], holdFail := false, bars := [],
    strag := { grid := [], part := [], gridPhases := 0, partPhases := 0, steals := 0, firstArr := 0, log := [] },
    pre := .none, tasks := [], openRays := 0, shades := [], extents := [], stealOut := none, spent := none, pend := none }

/-- The team of nothing, which holds no scratchpad and no tiles. -/
def noTeam : Team :=
  { grid := 0, index := 0, core := 0, q0 := 0, scr := 0, scrId := 0, tiles := 0, tileId := 0, win := 0, len := 0, groups := 0, gone := [],
    holder := none, batonQ := [], chain := none, fed := false, mxSeq := 0, remote := [0, 0, 0, 0], cursor := 0, rings := [], bars := [],
    lowSince := none, highSince := none, poisonCols := [], saved := false }

/-- A grid belongs to the context that stands on its partition's cores (12 R230). -/
def State.current (s : State) (g : Grid) : Bool := s.disp.running.getD g.part 0 == g.ctx
/-- The same, and no SWAP is halting it (12 R228). -/
def State.active (s : State) (g : Grid) : Bool := s.current g && (s.disp.halting.get? g.part).isNone

/-- The grid of a group. -/
def State.gridOf (s : State) (g : Group) : Grid := (s.grids.get? g.grid).getD noGrid
/-- The team of a group; a task or call-out group has none (09 R172, 10 R197). -/
def State.teamOf (s : State) (g : Group) : Team := if g.kind = .team then (s.teams.get? g.team).getD noTeam else noTeam
/-- The grid of a team. -/
def State.teamGrid (s : State) (t : Team) : Grid := (s.grids.get? t.grid).getD noGrid
/-- The state with a group changed. -/
def State.setGroup (s : State) (gid : Nat) (g : Group) : State := { s with groups := s.groups.set gid g }
/-- The state with a team changed. -/
def State.setTeam (s : State) (t : Nat) (x : Team) : State := { s with teams := s.teams.set t x }
/-- The state with a grid changed. -/
def State.setGrid (s : State) (id : Nat) (x : Grid) : State := { s with grids := s.grids.set id x }
/-- The state with a listed group changed by a function. -/
def State.modGroup (s : State) (gid : Nat) (f : Group → Group) : State := { s with groups := s.groups.modify gid f }
/-- The state with a listed team changed by a function. -/
def State.modTeam (s : State) (t : Nat) (f : Team → Team) : State := { s with teams := s.teams.modify t f }
/-- The state with a listed grid changed by a function. -/
def State.modGrid (s : State) (id : Nat) (f : Grid → Grid) : State := { s with grids := s.grids.modify id f }

/-- The groups of a team that still hold live lanes or a slot. -/
def State.members (s : State) (t : Nat) : List (Nat × Group) :=
  s.groups.filter (fun e => e.2.kind == .team && e.2.team == t)
/-- The number of T × tickets: teams of a grid (08 R144). -/
def Grid.teams (g : Grid) : Nat := g.r.x * g.r.y * g.r.z
/-- The budget of a role (02 R35). -/
def Grid.budget (g : Grid) : Role → Nat | .loader => g.r.budL | .compute => g.r.budC | .storer => g.r.budS
/-- The largest budget among the roles a team declares: B of 02 R21, R35. -/
def Grid.maxBudget (g : Grid) : Nat := if g.h.roles then max g.r.budL (max g.r.budC g.r.budS) else g.r.budC
/-- The size of the set of a team (02 R20). -/
def Grid.setSize (g : Grid) (team : Nat) : Nat := min g.r.cset (g.teams - team / g.r.cset * g.r.cset)
/-- The team of a set that stands on a core: its number (02 R20, 05 R88). -/
def State.setTeamOn (s : State) (grid set core : Nat) : Option Nat :=
  (s.teams.find? (fun e => e.2.grid == grid && e.2.index / ((s.grids.get? grid).getD noGrid).r.cset == set &&
    e.2.core == core && !e.2.saved)).map (·.1)

/-- Who translates for a group (05 R97, R101, R102). -/
def State.accOf (s : State) (g : Group) : Acc :=
  let gr := s.gridOf g
  { place := g.core, core := g.core, asid := gr.asid, root := gr.root, part := gr.part, strict := g.strict,
    task := g.kind == .task, owner := if g.kind = .task then g.task else g.grid, req := g.core }
/-- The same for a unit of the base die beside the group's core, with its requester number: the engine TLB translates (05 R97). -/
def State.engineAcc (s : State) (g : Group) (req : Nat) : Acc :=
  { s.accOf g with
    place := 192 + sliceOfCore g.core
    req := req }
/-- The copy engine of a group's core (06 R108, 22 R319). -/
def State.copyAcc (s : State) (g : Group) : Acc := s.engineAcc g (448 + copyEngineOf g.core)
/-- Who translates for a write the T9 makes later for a grid (12 R387). No TLB is used. -/
def Grid.acc (g : Grid) (id : Nat) : Acc :=
  { place := 204, core := 4096, asid := g.asid, root := g.root, part := g.part, strict := false, task := false, owner := id }
/-- The same for a task of a grid, through the task's holds. -/
def Grid.taskAcc (g : Grid) (addr : Nat) : Acc := { g.acc 0 with task := true, owner := addr }

/-! ## Checked addresses (05 R85 to R88) -/

/-- The bound of 05 R85 and where a window's bytes lie, after checks 1 to 3 of 05 R86. -/
def State.windowLoc (s : State) (g : Group) (lane a n : Nat) : Except FaultInfo Nat :=
  let t := s.teamOf g
  let range : FaultInfo := { code := cRange, addr := a, detail := 0 }
  let foreign : FaultInfo := { code := cForeign, addr := a, detail := g.core }
  let off := bits a 23 0
  match windowOf a with
  | .prv => if bits a 55 24 ≠ 0 ∨ g.priv < off + n then .error range else .ok (prvKey g.win g.stride lane off)
  | .clu =>
    if bits a 55 26 ≠ 0 then .error range else
    if g.kind ≠ .team then .error foreign else
    match s.setTeamOn g.grid (t.index / (s.gridOf g).r.cset) (g.core / 4 * 4 + bits a 25 24) with
    | none => .error foreign
    | some u =>
      let t' := (s.teams.get? u).getD noTeam
      if t'.scr < off + n then .error range else .ok (scrKey t'.scrId off)
  | .scr =>
    if bits a 55 32 ≠ 0 then .error range
    else if bits a 31 24 ≠ g.core then .error foreign
    else if t.scr < off + n then .error range
    else .ok (scrKey t.scrId off)
  | .glb => .error range

/-- Checks 1 to 6 of 05 R86 for an access of `n` bytes that must be a multiple of `align`, translated by a unit for a group. -/
def State.checkAddrBy (s : State) (by' : Acc) (g : Group) (lane a n align : Nat) (k : AKind) : Except FaultInfo Loc :=
  let mis : FaultInfo := { code := cMisaligned, addr := a, detail := n }
  if windowOf a = .glb then
    if !canonical a then .error { code := cNoncanonical, addr := a, detail := 0 }
    else if a % align ≠ 0 then .error mis
    else s.translate by' k a
  else
    match s.windowLoc g lane a n with
    | .error f => .error f
    | .ok key => if a % align ≠ 0 then .error mis else .ok (.here key)

/-- The checks of an access that a core makes for a group. -/
def State.checkAddr (s : State) (g : Group) (lane a n align : Nat) (k : AKind) : Except FaultInfo Loc :=
  s.checkAddrBy (s.accOf g) g lane a n align k

/-- The pieces of `n` bytes from a global address that lie in one 4 KiB page each: address and length. -/
def pagePieces : Nat → Nat → Nat → List (Nat × Nat)
  | 0, _, _ => []
  | f + 1, a, n =>
    if n = 0 then [] else
    let k := min n (4096 - a % 4096)
    (a, k) :: pagePieces f (add64 a k) (n - k)

/-- `n` bytes from a generic address on, checked and translated page by page (05 R86 checks 1 to 4 and 6), as pieces.
A range of no bytes is not accessed and not checked. -/
def State.checkRangeBy (s : State) (by' : Acc) (g : Group) (lane a n : Nat) (k : AKind) : Except FaultInfo (List (Loc × Nat)) :=
  if n = 0 then .ok [] else
  if windowOf a = .glb then
    if !canonical a then .error { code := cNoncanonical, addr := a, detail := 0 } else
    (pagePieces (n / 4096 + 2) a n).mapM (fun q =>
      if !canonical q.1 then .error { code := cNoncanonical, addr := q.1, detail := 0 } else
      match s.translate by' k q.1 with
      | .error f => .error f
      | .ok l => .ok (l, q.2))
  else
    match s.windowLoc g lane a n with
    | .error f => .error f
    | .ok key => .ok [(.here key, n)]

/-- The same for a core. -/
def State.checkRange (s : State) (g : Group) (lane a n : Nat) (k : AKind) : Except FaultInfo (List (Loc × Nat)) :=
  s.checkRangeBy (s.accOf g) g lane a n k

/-- A key that stands for a byte of another part. A read of it gives a free value, a new one for each salt (log 16). -/
def awayKey (salt part pa : Nat) : Nat := physKey ((1 + salt * 4096 + part) * 2 ^ 52 + pa)
/-- A key stands for another part's byte. -/
def isAway (k : Nat) : Bool := k % 4 == 0 && decide (2 ^ 52 ≤ k / 4)
/-- The part such a key names. -/
def awayPart (k : Nat) : Nat := (k / 4 / 2 ^ 52 - 1) % 4096
/-- The physical address such a key names. -/
def awayPa (k : Nat) : Nat := k / 4 % 2 ^ 52
/-- The location that a key names. -/
def locOf (k : Nat) : Loc := if isAway k then .away (awayPart k) (awayPa k) else .here k
/-- A location as a key. -/
def Loc.key (salt : Nat) : Loc → Nat
  | .here k => k
  | .away p pa => awayKey salt p pa
/-- The location a number of bytes further on. -/
def Loc.add : Loc → Nat → Loc
  | .here k, n => .here (keyAdd k n)
  | .away p pa, n => .away p (pa + n)
/-- Pieces as segments. -/
def segsOf (salt : Nat) (l : List (Loc × Nat)) : List Seg := l.map (fun q => { key := q.1.key salt, len := q.2 })

/-- The state after the T9 has translated a global address for a group. -/
def State.touch (s : State) (g : Group) (a : Nat) : State := if windowOf a = .glb then s.noteAccess (s.accOf g) a else s

/-- What a unit asks of the memory system for a group at an address: the class of the group's grid with its stamp, the FAMILY of the
page, and for private memory the stack of the group's slice (05 R87, 06 R104). -/
def State.askFor (s : State) (by' : Acc) (g : Group) (a : Nat) (write : Bool) (serves : Option Nat) : Ask :=
  let gr := s.gridOf g
  { part := gr.part, requester := by'.req, cls := gr.r.cls, stamp := s.stampOf gr.part gr.r.cls, write := write,
    carried := if windowOf a = .glb then (s.leafFor by' a).map (fun l => bits l.pte 11 9) else none,
    serves := serves, home := if windowOf a = .prv then some (sliceOfCore g.core) else none,
    cached := windowOf a != .glb || (s.leafFor by' a).any (fun l => homeF l.pte != 1) }

/-- A load of a core reloads the line of a hardware-coherent page whose lease has run out; when leases run out is open (07 R127, R143;
log 14). -/
def State.leaseLoad (s : State) (by' : Acc) (a : Nat) (write : Bool) : State :=
  if !write && decide (by'.place < 192) && (s.leafFor by' a).any (fun l => coh l.pte == 0) then
    s.count .cohLeaseRenew (dieOfCore by'.core) (Config.leaseOut s.freshId).toNat
  else s

/-- The state after an access of `n` bytes by a unit for a group has reached memory: translated, and queued at its pseudo-channels. A
scratchpad lies in core SRAM (06 R104, R116). -/
def State.accessBy (s : State) (by' : Acc) (g : Group) (a n : Nat) (l : Loc) (write : Bool) (serves : Option Nat) : State :=
  let ask := s.askFor by' g a write serves
  let s1 := if windowOf a = .glb then (s.noteAccess by' a).leaseLoad by' a write else s
  match l with
  | .here k => if k % 4 = 0 then s1.requests ask (k / 4) n else s1
  | .away _ _ => s1

/-- An access of a core for a group. -/
def State.access (s : State) (g : Group) (a n : Nat) (l : Loc) (write : Bool) : State :=
  s.accessBy (s.accOf g) g a n l write none

/-- The requester and deadline of each request of an access that brings data; a remote page's is one request (06 R108, 14 R252). -/
def State.dueFor (s : State) (by' : Acc) (g : Group) (a n : Nat) (l : Loc) (write : Bool) : List (Nat × Nat) :=
  let ask := s.askFor by' g a write none
  match l with
  | .here k => if k % 4 = 0 then s.dues ask (k / 4) n else []
  | .away _ _ => ((s.deadline ask.stamp).map (fun d => (ask.requester, d))).toList

/-! ## Pinned bytes (04 R75) -/

/-- The k-step of a format pair and accumulator; none where 04 R71 lists none. -/
def kStep (fa fb facc : Nat) : Option Nat :=
  if facc = 0 then
    if (fa = 0 ∧ fb = 0) ∨ (fa = 1 ∧ fb = 1) then some 32
    else if (fa = 2 ∨ fa = 3) ∧ (fb = 2 ∨ fb = 3) then some 64
    else none
  else if fa = 4 ∧ fb = 4 then some 64
  else if fa = 5 ∧ fb = 5 then some 128
  else none

/-- An accepted instruction has completed: only an MXISSUE whose k-steps have all committed is still listed. -/
def MxOp.complete (o : MxOp) : Bool :=
  match o.kind with
  | .issue fa fb facc _ k _ _ _ _ _ _ done => decide (k / (kStep fa fb facc).getD 1 ≤ done)
  | _ => false

/-- Operand bytes that an accepted issue has still to read. The engine reads a k-step's as it commits it: 64 of each row along which k
runs, or a row for each k (04 R72, R75; log 98). -/
def MxOp.unread (o : MxOp) : List Seg :=
  match o.kind with
  | .issue fa fb facc _ _ _ _ _ _ _ _ done =>
    (o.rows.map (fun q => (if q.1 then q.2.map (fun r => subSegs r (64 * done) 8192)
      else q.2.drop (done * (kStep fa fb facc).getD 1)).flatten)).flatten
  | _ => []

/-- The L2 lines of 128 bytes that hold bytes of this part's memory (04 R75). -/
def linesOf (l : List Seg) : List Seg :=
  l.filterMap (fun q =>
    if isAway q.key || q.key % 4 != 0 then none
    else some { key := physKey (q.key / 4 / 128 * 128), len := (q.key / 4 + q.len + 127) / 128 * 128 - q.key / 4 / 128 * 128 })

/-- What an accepted issue holds back writes to: the L2 lines with bytes it has still to read, or under the pin flag every line of its
operands, and the scratchpad bytes it has still to read (04 R75). -/
def MxOp.pins (o : MxOp) : List Seg :=
  match o.kind with
  | .issue .. =>
    linesOf (if o.pinFlag then (o.rows.map (fun q => q.2.flatten)).flatten else o.unread) ++ o.unread.filter (fun q => q.key % 4 != 0)
  | _ => []

/-- A core's matrix engine has work to complete. -/
def Eng.working (e : Eng) (core : Nat) : Bool := e.ops.any (fun o => o.core == core && !o.complete)

/-- An accepted issue whose operand has become poisoned in one sector, before it was read, is tainted (04 R84). -/
def MxOp.taint (o : MxOp) (k : Nat) : MxOp :=
  match o.kind with
  | .issue .. => if o.unread.any (fun p => overlaps (k / 4 / 64 * 64 * 4 + k % 4) 64 p.key p.len) then { o with tainted := true } else o
  | _ => o

/-- Bytes that the matrix engine has pinned or has still to read. -/
def State.pinned (s : State) (k n : Nat) : Bool := s.eng.ops.any (fun o => o.pins.any (fun p => overlaps k n p.key p.len))

/-! ## Accesses that the T9 makes for itself -/

/-- What a dispatcher, a Turret or Campanile asks of the memory system: 06 R104 and R108 give them no class and no number (log 95). -/
def ownAsk (part : Nat) (write : Bool) : Ask :=
  { part := part, requester := 506, cls := 3, stamp := 0xFFF, write := write, carried := none }

/-- What a later write asks: the class and stamp of the work that it belongs to, and what its page's entry carries (06 R104, R111). -/
def Acc.ask (a : Acc) (write : Bool) (l : Option Leaf) : Ask :=
  { (ownAsk a.part write).tagged (l.map (fun l => pteTag l.pte)) with
    requester := a.req
    cls := a.cls
    stamp := a.stamp
    cached := false }

/-- The state after an access of `n` bytes at a key has reached memory: queued, and partials there combined. -/
def State.askedOwn (s : State) (ask : Ask) (k n : Nat) : State :=
  (if k % 4 = 0 then s.requests ask (k / 4) n else s).combine k n

/-- The same for a unit without a class of its own. -/
def State.ownAccess (s : State) (part k n : Nat) (write : Bool) : State := s.askedOwn (ownAsk part write) k n

/-- A write, or an addition, that the T9 makes for itself waits while a matrix engine pins its line, or while an earlier one to those bytes
waits (04 R75). -/
def State.lateHeld (s : State) (k n : Nat) : Bool := s.pinned k n || s.msys.late.any (fun e => overlaps k n e.key e.n)

/-- A write of `n` bytes made by the T9 for itself, an addition, or an unsigned maximum. -/
def State.lateDo (s : State) (e : LateW) : State :=
  let old := s.readMem e.key e.n
  s.writeMem e.key e.n (if e.add then (old + e.w) % 2 ^ (8 * e.n) else if e.most then max old e.w else e.w)

/-- The same, once the line is free. -/
def State.lateStore (s : State) (ask : Ask) (e : LateW) : State :=
  if s.lateHeld e.key e.n then { s with msys := { s.msys with late := s.msys.late ++ [e] } }
  else (s.askedOwn ask e.key e.n).lateDo e

/-- What the T9 reads of bytes that such writes are to reach. -/
def State.ownView (s : State) (k n : Nat) : Nat :=
  if s.msys.late.isEmpty then s.readMem k n
  else ((s.msys.late.filter (fun e => overlaps k n e.key e.n)).foldl (fun t e => t.lateDo e) s).readMem k n

/-- The same, byte by byte. -/
def State.viewBytes (s : State) (k n : Nat) : List Byte := toLe n (s.ownView k n)

/-- What it reads of runs of bytes in order. -/
def State.segView (s : State) (l : List Seg) : Nat := l.foldr (fun q x => s.ownView q.key q.len + x * 2 ^ (8 * q.len)) 0

/-- Waiting writes of the T9 whose lines are free are made, in order. -/
def State.drainLate (s : State) : State :=
  s.msys.late.foldl (fun t e => t.lateStore (ownAsk e.part true) e) { s with msys := { s.msys with late := [] } }

/-! ## Messages to other endpoints (14 R250) -/

/-- The flits of a message: a header, and its data in units of 64 bytes (14 R250). -/
def Msg.flits (m : Msg) : Nat := 1 + ceilDiv (m.data.getD (8 * m.words.length)) 64

/-- The state with a message's flits counted at the port by which it leaves: the lowest whose link is up where none is named
(log 34). -/
def State.countFlits (s : State) (m : Msg) : State :=
  s.count .fabTxFlits (m.port.getD (((List.range 18).find? (fun p => s.fab.links.getLsbD p)).getD 0)) m.flits

/-- The state with a message counted as received at a port, with `n` bytes of data: the lowest whose link is up where none is named
(14 R250, R264; log 34). -/
def State.countRx (s : State) (port : Option Nat) (n : Nat) : State :=
  s.count .fabRxFlits (port.getD (((List.range 18).find? (fun p => s.fab.links.getLsbD p)).getD 0)) (1 + ceilDiv n 64)

/-- A virtual channel takes a message at once: none waits on it, and it has a send permit (01 R16; log 97). -/
def State.channelOpen (s : State) (vc : Nat) : Bool :=
  s.fab.stalled.getD vc 0 == 0 && Config.channelRoom vc s.fab.sent.length s.env.cycle

/-- The state with a message handed to its virtual channel. On a full channel it waits, and with it what is sent there after it; no other
channel is held up (01 R16). -/
def State.send (s : State) (m : Msg) : State :=
  let m1 := { m with src := s.self }
  if s.channelOpen m.vc then { s with fab := { s.fab with sent := s.fab.sent ++ [m1] } }.countFlits m1
  else { s with fab := { s.fab with
    sent := s.fab.sent ++ [m1]
    stalled := s.fab.stalled.set m.vc (s.fab.stalled.getD m.vc 0 + 1) } }

/-- The messages that wait on a virtual channel, the oldest first. -/
def State.stalledMsgs (s : State) (vc : Nat) : List Msg :=
  let l := s.fab.sent.filter (fun m => m.vc == vc)
  l.drop (l.length - s.fab.stalled.getD vc 0)

/-- A request that a lane, a copy or a drain has sent still waits for its channel: its sender is stalled (01 R16; log 97). -/
def State.stalledBy (s : State) (gid lane : Nat) : Bool := (s.stalledMsgs 0).any (fun m => m.owner == some (gid, lane))

/-- The request that was the last of so many messages has left the part. -/
def State.hasLeft (s : State) (msg : Nat) : Bool :=
  msg == 0 || decide (s.fab.stalled.getD 0 0 ≤ ((s.fab.sent.drop msg).filter (fun m => m.vc == 0)).length)

/-- The oldest message that waits on a virtual channel leaves, once a permit has come back (01 R16). -/
def State.drainChannel (s : State) (vc : Nat) : State :=
  if !Config.channelRoom vc s.fab.sent.length s.env.cycle then s else
  match s.stalledMsgs vc with
  | m :: _ => { s with fab := { s.fab with stalled := s.fab.stalled.set vc (s.fab.stalled.getD vc 0 - 1) } }.countFlits m
  | [] => s

/-- A request to another part on virtual channel 0, with the class and stamp of what asks (14 R250, R252). -/
def Ask.msg (k : Ask) (dest op data : Nat) (words : List Nat) (owner : Option (Nat × Nat) := none) : Msg :=
  { dest := dest, vc := 0, op := op, words := words, data := some data, cls := k.cls, stamp := k.stamp, owner := owner }

/-! ## Events (13 R239) -/

/-- The key of a word of an event ring: ring 0 is the system's, ring k + 1 that of the address space of key k. -/
def State.ringKey (s : State) (ring off : Nat) : Option Nat :=
  if ring = 0 then some (physKey (0x04000000C000 + off)) else
  match s.mmu.spaces.get? (ring - 1) with
  | none => none
  | some sp =>
    match s.translate { place := 204, core := 4096, asid := (ring - 1) % 65536, root := sp.root, part := sp.part, strict := false,
                        task := false, owner := 0 } .store (add64 sp.ring off) with
    | .ok (.here k) => some k
    | _ => none

/-- A 64-bit word of an event ring; 0 where it cannot be read. -/
def State.ringWord (s : State) (ring off : Nat) : Nat :=
  match s.ringKey ring off with
  | some k => s.ownView k 8
  | none => 0

/-- The partition for which an event ring is written. -/
def ringPart (ring : Nat) : Nat := (ring - 1) / 65536

/-- The state with a word of an event ring written. -/
def State.setRingWord (s : State) (ring off w : Nat) : State :=
  match s.ringKey ring off with
  | some k => s.lateStore (ownAsk (ringPart ring) true) { part := ringPart ring, key := k, n := 8, w := w, add := false }
  | none => s

/-- The state after the header of an event ring has been read. -/
def State.ringSeen (s : State) (ring : Nat) : State :=
  match s.ringKey ring 0 with
  | some k => s.ownAccess (ringPart ring) k 24 false
  | none => s

/-- Where the next entry of a ring goes. -/
def State.ringNext (s : State) (ring : Nat) : Nat := 64 + 32 * (s.ringWord ring 8 % bits (s.ringWord ring 0) 31 0)

/-- A ring can take an entry: it has a free one, and its pages are at hand. -/
def State.ringHasRoom (s : State) (ring : Nat) : Bool :=
  (s.ringKey ring 0).isSome && decide (s.ringWord ring 8 - s.ringWord ring 16 < bits (s.ringWord ring 0) 31 0) &&
  (s.ringKey ring (s.ringNext ring)).isSome

/-- The entry of an event written and the put count raised. -/
def State.writeEvent (s : State) (e : Event) : State :=
  let put := s.ringWord e.ring 8
  let off := s.ringNext e.ring
  (((((s.ringSeen e.ring).setRingWord e.ring off (e.code + e.part * 2 ^ 16 + e.w % 2 ^ 32 * 2 ^ 32)).setRingWord e.ring (off + 8) e.x).setRingWord
    e.ring (off + 16) e.y).setRingWord e.ring (off + 24) e.z).setRingWord e.ring 8 (put + 1)

/-- Events written while their rings have room, in order; an event whose ring is full, or follows one held back, is held. -/
def State.drainEvents (s : State) : List Event → List Event → State
  | [], held => { s with ctrl := { s.ctrl with events := held } }
  | e :: t, held =>
    if held.any (fun h => h.ring == e.ring) || !s.ringHasRoom e.ring then State.drainEvents s t (held ++ [e])
    else State.drainEvents (s.writeEvent e) t held

/-- An event posted (13 R239). -/
def State.post (s : State) (e : Event) : State := s.drainEvents (s.ctrl.events ++ [e]) []

/-! ## Reads and writes that the T9 makes for itself (12 R387) -/

/-- The write is dropped: counted and reported. -/
def State.dropLate (s : State) (part asid va : Nat) : State :=
  (s.count .lateWriteDropped part 1).post { ring := 0, code := 9, part := part, w := 0, x := va, y := asid % 65536, z := 0 }

/-- A write of `n` bytes at a global address made later; dropped when its translation fails. -/
def State.lateWrite (s : State) (a : Acc) (va n w : Nat) : State :=
  match s.translate a .store va with
  | .ok (.here k) => s.lateStore (a.ask true (s.leafFor a va)) { part := a.part, key := k, n := n, w := w, add := false }
  | .ok (.away p pa) =>
    if s.fab.unreachable.contains p then s.dropLate a.part a.asid va
    else s.send ((a.ask true none).msg p 1 n [pa, n, w])
  | .error _ => s.dropLate a.part a.asid va

/-- The bytes of a list written later, 8 at a time. -/
def State.lateWords (s : State) (a : Acc) (va : Nat) : List Nat → State
  | [] => s
  | w :: t => State.lateWords (s.lateWrite a va 8 w) a (add64 va 8) t

/-- A 64-bit word raised later by an amount, with an atomic addition at its home (07 R133). -/
def State.lateAdd (s : State) (a : Acc) (va x : Nat) : State :=
  match s.translate a .store va with
  | .ok (.here k) => s.lateStore (a.ask true (s.leafFor a va)) { part := a.part, key := k, n := 8, w := x, add := true }
  | .ok (.away p pa) =>
    if s.fab.unreachable.contains p then s.dropLate a.part a.asid va
    else s.send ((a.ask true none).msg p 3 8 [pa, 8, 0x39, x])
  | .error _ => s.dropLate a.part a.asid va

/-- The state after the T9 has read `n` bytes of one page for itself: requested, and partials there combined; of another part, asked for
there, whose answer is counted with it (07 R133, 14 R252, R264; log 16). A walk of the page table made for it counts on no die (05 R103;
log 104). -/
def State.ownSaw (s : State) (a : Acc) (va n : Nat) : State :=
  match s.translate a .load va with
  | .ok (.here k) => s.askedOwn (a.ask false (s.leafFor a va)) k n
  | .ok (.away p pa) => ((s.send ((a.ask false none).msg p 0 0 [pa, n])).countRx none n).useFree 1
  | .error _ => s

/-- The state after the T9 has read runs of bytes for itself, given as physical addresses and lengths. -/
def State.sawPhys (s : State) (part : Nat) (l : List (Nat × Nat)) : State :=
  l.foldl (fun t q => t.ownAccess part (physKey q.1) q.2 false) s

/-- A read of `n` bytes the T9 makes for itself, that lie in one page; none when it faults or is poisoned. `State.ownSaw` says what it
leaves behind. -/
def State.ownRead (s : State) (a : Acc) (va n : Nat) : Option Nat :=
  match s.translate a .load va with
  | .ok (.here k) => if (s.mem.poisonAt k n).isSome then none else some (s.ownView k n)
  | .ok (.away p pa) => some (s.readMem (awayKey s.env.freeCtr p pa) n)
  | .error _ => none

/-! ## Cancels (08 R156, R158) -/

/-- The named parts of a grid but this one. -/
def State.otherParts (s : State) (g : Grid) : List Nat :=
  if g.r.pod then ((List.range g.r.partCount).map (g.r.firstPart + ·)).filter (· != s.self) else []

/-- This part is one of a grid's named parts. -/
def State.namedHere (s : State) (g : Grid) : Bool :=
  !g.r.pod || (decide (g.r.firstPart ≤ s.self) && decide (s.self < g.r.firstPart + g.r.partCount))

/-- A cancel of a grid sent to some parts; 0 stands for no address space to be checked. -/
def State.sendCancel (s : State) (id : Nat) (kill : Bool) (to' : List Nat) : State :=
  to'.foldl (fun s' p => s'.send { dest := p, vc := 4, op := 11, words := [id, if kill then 1 else 0, 0] }) s

/-- A cancel set out for the launching part of a grid: it takes effect when it reaches that part by CANCEL_REACHES_PART, and from there
goes to the grid's other parts (08 R158, 23 R327). -/
def State.cancelGrid (s : State) (id : Nat) (kill : Bool) : State :=
  match s.grids.get? id with
  | none => s
  | some g =>
    if g.status ≠ 0 then s
    else if g.launcher then { s with disp := { s.disp with cancels := s.disp.cancels ++ [{ grid := id, kill := kill }] } }
    else s.sendCancel id kill [id / 2 ^ 52]

/-! ## Fault records (12 R216, 08 R155) -/

/-- The four words of a fault record. -/
def FRec.words (r : FRec) : List Nat :=
  [r.code + r.kind * 32 + (r.lane % 32 + r.group % 8 * 32) * 256 + r.team % 2 ^ 48 * 2 ^ 16, r.launch, r.addr,
   r.pc + r.detail % 2 ^ 32 * 2 ^ 32]

/-- A record kept in the part's log, which holds the first 64, and counted. -/
def State.logRecord (s : State) (part : Nat) (r : FRec) : State :=
  ({ s with log := if s.log.length < 64 then s.log ++ [r] else s.log }).count .faultRecords part 1

/-- A record counted for a grid; the launching part writes it to the fault area, which holds the first 64, another part sends it
there (08 R155). The area's reserved bytes are written 0 (00 R5). -/
def State.noteFault (s : State) (id : Nat) (g : Grid) (r : FRec) : State :=
  let g1 := { g with faults := g.faults + 1, faulted := g.faulted || decide (r.kind < 3),
                     recs := if g.recs.length < 64 then g.recs ++ [r] else g.recs }
  let s2 := s.setGrid id g1
  let s3 :=
    if g.launcher then
      let a := g.acc id
      let s4 := if g.recs.length < 64 then s2.lateWords a (add64 g.r.fa (0x40 + 32 * g.recs.length)) r.words else s2
      s4.lateWords a g.r.fa [g1.faults, g1.recs.length, 0, 0, 0, 0, 0, 0]
    else s2.send { dest := id / 2 ^ 52, vc := 4, op := 14, words := id :: r.words }
  if g.r.cancelOnFault && g.faults == 0 && !g.cancelled then s3.cancelGrid id false else s3

/-- A record written for a grid, and to the part's log. -/
def State.recordFault (s : State) (id : Nat) (r : FRec) : State :=
  match s.grids.get? id with
  | none => s.logRecord 0 r
  | some g => (s.logRecord g.part r).noteFault id g r

/-- The record of a fault of a group's path (12 R216). -/
def State.recOf (s : State) (g : Group) (lane pc : Nat) (f : FaultInfo) : FRec :=
  { code := f.code, kind := match g.kind with | .team => 0 | .task => 1 | .callout => 2
    lane := lane
    group := if g.kind = .team then g.index else 0
    team := match g.kind with | .team => (s.teamOf g).index | .task => g.task / 64 | .callout => 0
    launch := g.grid, addr := f.addr, pc := pc, detail := f.detail }

/-! ## Ticket counters (08 R152, R153) -/

/-- Tickets that a counter [next, end) still holds. -/
def remaining (c : Nat × Nat) : Nat := c.2 - c.1

/-- The counter with the most remaining tickets but one die's; ties go to the lower die. None when all are empty. -/
def richest (cs : List (Nat × Nat)) (but : Nat) : Option Nat :=
  let r := (List.range cs.length).foldl (fun b d =>
    if d = but then b else
    match b with
    | none => if remaining (cs.getD d (0, 0)) = 0 then none else some d
    | some e => if remaining (cs.getD e (0, 0)) < remaining (cs.getD d (0, 0)) then some d else some e) none
  r

/-- A counter split for a thief: what the victim keeps and what is given (08 R164). -/
def splitCounter (c : Nat × Nat) : (Nat × Nat) × (Nat × Nat) :=
  let mid := c.1 + (c.2 - c.1) / 2
  ((c.1, mid), (mid, c.2))

/-- A draw at a die: from its own counter, or after a steal from a sibling; the counters after it, whether it stole, and the
ticket. None when the part holds none. -/
def drawTicket (cs : List (Nat × Nat)) (die : Nat) : Option (List (Nat × Nat) × Bool × Nat) :=
  let own := cs.getD die (0, 0)
  if remaining own ≠ 0 then some (cs.set die (own.1 + 1, own.2), false, own.1) else
  match richest cs die with
  | none => none
  | some v =>
    let sp := splitCounter (cs.getD v (0, 0))
    some ((cs.set v sp.1).set die (sp.2.1 + 1, sp.2.2), true, sp.2.1)

/-! ## Tasks (09 R168 to R173) -/

/-- An item enters the ready pool of a die. -/
def State.enterPool (s : State) (die : Nat) (f : Nat → Ready) : State :=
  { s with disp := { s.disp with pools := s.disp.pools ++ [(die, f s.disp.order)], order := s.disp.order + 1 } }

/-- A task becomes ready: STATE 1, the pool link at +0x38 reads as a free value, and it enters a die's pool (09 R168, R172). -/
def State.readyTask (s : State) (grid addr die : Nat) : State :=
  let g := (s.grids.get? grid).getD noGrid
  let a := g.taskAcc addr
  let s1 := (s.lateWrite a (addr + 0x20) 1 1).lateWrite a (addr + 0x38) 8 (Config.freeWord64 s.env.freeCtr).toNat
  (s1.useFree 1).enterPool die (fun o => .task addr grid g.r.prio o)

/-- A later write at a global address would be made, not dropped. -/
def State.lateOk (s : State) (a : Acc) (va : Nat) : Bool :=
  match s.translate a .store va with
  | .ok (.here _) => true
  | .ok (.away p _) => !s.fab.unreachable.contains p
  | .error _ => false

/-- The successor's pending count lowered in one step (09 R171): ready when it reaches 0 and is spawned and not started. A decrement
that is dropped changes nothing else (12 R387). The die whose pool the successor enters and that counts an underflow is the caller's;
09 R171 names none (log 110). -/
def State.decSuccessor (s : State) (grid from' die succ : Nat) (fault : Bool) : State :=
  if succ = 0 then s else
  let g := (s.grids.get? grid).getD noGrid
  let a := g.taskAcc from'
  if !s.lateOk a succ then s.dropLate g.part g.asid succ else
  match s.ownRead a succ 8 with
  | none => s.dropLate g.part g.asid succ
  | some w =>
    let w1 := if fault then setBits w 32 32 1 else w
    if bits w 31 0 = 0 then (s.lateWrite a succ 8 w1).count .taskCountUnderflow die 1
    else
      let addr := succ - 0x28
      let s1 := (s.lateWrite a succ 8 (w1 - 1)).ownSaw a (addr + 0x20) 8
      match s1.ownRead a (addr + 0x20) 8 with
      | none => s1
      | some c =>
        let owner := ((s.grids.find? (fun e => e.2.asid == g.asid && e.2.part == g.part && e.2.tasks.contains addr)).map (·.1)).getD grid
        if bits w 31 0 = 1 ∧ bits c 7 0 = 0 ∧ bits c 63 32 ≠ 0 then s1.readyTask owner addr die else s1

/-- Holds of a task, or of a grid on this part, released, their maps given back to their contexts' pools (05 R101). A task is known by
its record's address in a space of a partition. What the TLBs hold of them goes with them. -/
def State.releaseHolds (s : State) (task : Bool) (owner part asid : Nat) : State :=
  let mine (h : Held) : Bool := h.task == task && h.owner == owner && (!task || (h.part == part && h.asid == asid))
  let freed (h : Held) (ctxs : Store Ctx) : Store Ctx :=
    ctxs.modify (h.part * 2 + h.ctx) (fun c => { c with hold := { c.hold with used := c.hold.used - 8 } })
  let rest := s.mmu.held.filter (fun h => !mine h)
  let still (e : TlbEntry) : Bool :=
    !e.held || rest.any (fun h => h.part == e.part && h.asid == e.asid && h.page == e.leaf.base / 4096)
  { s with
    mmu := { s.mmu with held := rest, tlb := s.mmu.tlb.filter still, asked := s.mmu.asked.filter (fun q =>
      !(q.task == task && q.owner == owner && (!task || (q.part == part && q.asid == asid)))) }
    disp := { s.disp with ctxs := (s.mmu.held.filter mine).foldl (fun m h => freed h m) s.disp.ctxs } }

/-- The steps of 09 R173 after the release: future word, STATE, successor, holds. `code` is none when the task retired;
fault code 0 stands for a cancel. -/
def State.taskDone (s : State) (grid addr die : Nat) (code : Option Nat) : State :=
  let g := (s.grids.get? grid).getD noGrid
  let a := g.taskAcc addr
  let ctl := (s.ownRead a (addr + 0x20) 8).getD 0
  let argp := (s.ownRead a (addr + 8) 8).getD 0
  let succ := (s.ownRead a (addr + 0x18) 8).getD 0
  let s0 := s.ownSaw a addr 64
  let s1 :=
    if bit ctl 17 then
      match code with
      | none => s0.lateWrite a argp 8 (2 ^ 62)
      | some c => (s0.lateWrite a (add64 argp 8) 8 c).lateWrite a argp 8 (2 ^ 63)
    else s0
  let s2 := match code with
    | none => (s1.lateWrite a (addr + 0x20) 1 4).count .taskRetired die 1
    | some c => ((s1.lateWrite a (addr + 0x38) 8 c).lateWrite a (addr + 0x20) 1 5).count .taskFaulted die 1
  let s3 := s2.decSuccessor grid addr die succ code.isSome
  (s3.releaseHolds true addr g.part g.asid).modGrid grid (fun x => { x with tasks := x.tasks.erase addr })

/-! ## Barriers (08 R159, R160) -/

/-- Where a grid keeps a barrier of level 1 (by set), 2 or 3. -/
def barKey (level owner n : Nat) : Nat := (owner * 4 + level) * 8 + n
/-- A barrier in phase 0 without arrivals. -/
def newBar : Bar := { phase := 0, begun := 0, came := false, arr := [], tokens := [], got := [] }

/-- A barrier: of a team (level 0, its owner), of a set (level 1), or of a grid on this part. -/
def State.getBar (s : State) (level grid owner n : Nat) : Bar :=
  if level = 0 then ((s.teams.get? owner).getD noTeam).bars.getD n newBar
  else ((s.grids.get? grid).getD noGrid).bars.getD (barKey level owner n) newBar

/-- The state with a barrier set. -/
def State.setBar (s : State) (level grid owner n : Nat) (b : Bar) : State :=
  if level = 0 then s.modTeam owner (fun t => { t with bars := t.bars.set n b })
  else s.modGrid grid (fun g => { g with bars := g.bars.set (barKey level owner n) b })

/-- The owner of a group's barrier of a level. -/
def State.barOwner (s : State) (g : Group) (level : Nat) : Nat :=
  match level with
  | 0 => g.team
  | 1 => (s.teamOf g).index / (s.gridOf g).r.cset
  | _ => 0

/-- The member groups of a barrier that have not retired (08 R159). -/
def State.barMembers (s : State) (level grid owner : Nat) : List (Nat × Group) :=
  s.groups.filter (fun e => e.2.kind == .team && e.2.grid == grid &&
    (match level with | 0 => e.2.team == owner | 1 => s.barOwner e.2 1 == owner | _ => true))

/-- Members that have still to be placed: membership is fixed at launch. -/
def State.barPending (s : State) (level grid owner : Nat) : Bool :=
  let g := (s.grids.get? grid).getD noGrid
  match level with
  | 0 => false
  | 1 => s.disp.admits.any (fun q => q.2.1 == grid && q.2.2 / g.r.cset == owner) ||
      g.reserved.any (fun q => q.1 / g.r.cset == owner)
  | _ => s.disp.admits.any (fun q => q.2.1 == grid) || !g.reserved.isEmpty || g.tickets.any (fun c => remaining c != 0)

/-- Every member group on this part has arrived in the current phase or has retired. -/
def State.barLocal (s : State) (level grid owner n : Nat) : Bool :=
  let b := s.getBar level grid owner n
  !s.barPending level grid owner && (s.barMembers level grid owner).all (fun e => b.arr.any (fun a => a.1 == e.1))

/-- A part has arrived in the current phase. -/
def Bar.hasToken (b : Bar) (part : Nat) : Bool := b.tokens.any (fun t => t.1 == part && t.2.1 == b.phase)

/-- How many parts have arrived in the current phase: those that the tokens received count, and this one (14 R261). -/
def Bar.partsHere (b : Bar) (self : Nat) : Nat :=
  ((b.got.filter (fun q => q.1 == b.phase)).map (·.2)).foldl (· + ·) 0 + (if b.hasToken self then 1 else 0)

/-- A phase completes: every member has arrived or retired, on every part for GRID, and one has arrived in this phase: a barrier that
no group uses completes no phase (08 R160; log 37). -/
def State.barDone (s : State) (level grid owner n : Nat) : Bool :=
  let b := s.getBar level grid owner n
  let g := (s.grids.get? grid).getD noGrid
  s.barLocal level grid owner n && (b.came || b.tokens.any (fun t => t.2.1 == b.phase) || b.got.any (fun t => t.1 == b.phase)) &&
  (level != 3 || !g.r.pod || g.r.partCount ≤ b.partsHere s.self)

/-- The endpoint that stands for the switches, in a message. -/
def switches : Nat := 4096

/-- The tokens of GRID barriers that this named part now owes are sent: one to the switches for each, which add the counts of a phase
and forward the sum to the parts. A token counts the parts that have arrived (08 R160, 14 R261; log 96). -/
def State.pushTokens (s : State) (grid : Nat) : State :=
  let g := (s.grids.get? grid).getD noGrid
  if !g.r.pod || !s.namedHere g then s else
  (List.range 4).foldl (fun s1 n =>
    let b := s1.getBar 3 grid 0 n
    if s1.barLocal 3 grid 0 n && (b.came || b.tokens.any (fun t => t.2.1 == b.phase) || b.got.any (fun t => t.1 == b.phase)) &&
        !b.hasToken s1.self then
      let t := maxOf (b.arr.map (·.2.2))
      (s1.setBar 3 grid 0 n { b with tokens := b.tokens ++ [(s1.self, b.phase, t)] }).send
        { dest := switches, vc := 4, op := 12, words := [grid, 3, n, b.phase, 1, s1.self, t] }
    else s1) s

/-- A group arrives in the current phase of a barrier, at most once (08 R160). -/
def State.arriveBar (s : State) (gid : Nat) (g : Group) (level n : Nat) : State :=
  let o := s.barOwner g level
  let b := s.getBar level g.grid o n
  let s1 := if b.arr.any (fun a => a.1 == gid) then s else s.setBar level g.grid o n { b with
    came := true
    arr := b.arr ++ [(gid, dieOfCore g.core, s.podTime)] }
  let s2 := s1.modGroup gid (fun x => { x with
    arrivals := x.arrivals.filter (fun a => !(a.1 == level && a.2.1 == n)) ++ [(level, n, b.phase)] })
  if level = 3 then s2.pushTokens g.grid else s2

/-- A group retires from the PART and GRID barriers of its grid: its time counts in the phases that run (08 R162). -/
def State.retireBars (s : State) (gid : Nat) (g : Group) : State :=
  (s.modGrid g.grid (fun x => { x with bars := x.bars.map (fun e =>
    if e.1 / 8 % 4 < 2 || e.2.arr.any (fun a => a.1 == gid) then e
    else (e.1, { e.2 with arr := e.2.arr ++ [(gid, dieOfCore g.core, s.podTime)] })) })).pushTokens g.grid

/-- The phase of a group's last arrival at a barrier, when it is not complete yet (08 R161). -/
def State.openArrival (s : State) (g : Group) (level n : Nat) : Option Nat :=
  match g.arrivals.find? (fun a => a.1 == level && a.2.1 == n) with
  | some a => if (s.getBar level g.grid (s.barOwner g level) n).phase ≤ a.2.2 then some a.2.2 else none
  | none => none

/-! ## Pre-emption: what is taken (12 R225, R226) -/

/-- Every group of a grid has been taken or parked, and every ray of it has parked. -/
def State.still (s : State) (id : Nat) : Bool :=
  s.groups.all (fun e => e.2.grid != id || e.2.place == .parked || e.2.place == .taken) &&
  s.spire.rays.all (fun e => e.2.grid != id || e.2.st == .parked)

/-- A pre-emption request completes, and PREEMPTED is posted. -/
def State.settlePreempt (s : State) (id : Nat) : State :=
  match s.grids.get? id with
  | none => s
  | some g =>
    if g.pre = .pending ∧ s.still id then
      (s.setGrid id { g with pre := .complete }).post { ring := 0, code := 2, part := g.part, w := 0, x := id, y := 0, z := 0 }
    else s

/-- A team of which every group has been taken is saved: its slots, scratchpad and tiles are freed; the baton, ring counters and
cursor stay with it (12 R225). -/
def State.saveTeam (s : State) (team : Nat) : State :=
  match s.teams.get? team with
  | none => s
  | some t =>
    if t.saved || !(s.members team).all (fun e => e.2.place == .taken) then s else
    { (s.setTeam team { t with saved := true }) with
      mem := s.mem.drop (fun k => (k % 4 == 1 && k / 4 / 2 ^ 24 == t.scrId) || (k % 4 == 3 && k / 4 / 4 / 16384 == t.tileId)) }

/-! ## Poison that the part makes (12 R231, R232) -/

/-- The sectors that runs of bytes reach: keys of their first bytes. -/
def sectorsOf (l : List Seg) : List Nat :=
  ((l.map (fun q => (List.range ((q.key / 4 + q.len + 63) / 64 - q.key / 4 / 64)).map (fun i =>
    (q.key / 4 / 64 + i) * 64 * 4 + q.key % 4))).flatten).eraseDups

/-- Sectors poisoned, all four units of each, and counted: in L2, or in core SRAM for a scratchpad (12 R217, R231, R232). Accepted issues
that have still to read operands there are tainted (04 R84). -/
def State.poisonSectors (s : State) (part : Nat) (l : List Nat) : State :=
  l.foldl (fun t k => { t with mem := (List.range 4).foldl (fun (m : Memory) i => m.poisonUnit (unitOf (keyAdd k (16 * i)))
    (if k % 4 = 1 then 3 else 2)) t.mem, eng := { t.eng with ops := t.eng.ops.map (fun (o : MxOp) => o.taint k) } }.count .eccPoisoned part 1) s

/-! ## Ending a work unit (12 R218 to R221, 02 R40) -/

/-- A ray whose call-out fails ends; RAY_END writes its record (10 R195, R198). A call-out whose ray has ended already is
discarded. -/
def State.failCallout (s : State) (slot pend code : Nat) : State :=
  { s with spire := { s.spire with rays := s.spire.rays.modify slot (fun r =>
      if r.pend = pend ∧ r.cand.isSome then { r with
        st := .ended 2 cCallout code 0
        cand := none }
      else r) } }

/-- The waiter whose frame an adopted task ran in is restored: its TWAIT tests its word again, or the waiter ends there under
a KILL (09 R176). -/
def State.unframe (s : State) (g : Group) : State :=
  match g.parent with
  | none => s
  | some p => s.modGroup p (fun w => { w with
      place := .resident
      quarter := g.quarter
      waits := w.waits.map (fun x => match x.why with | .twait k _ o => { x with why := .twait k (2 ^ 64) o } | _ => x) })

/-- A team without a group's hold on its baton or wait for it. -/
def Team.freeBaton (t : Team) (gid : Nat) : Team :=
  { t with
    batonQ := t.batonQ.filter (· != gid)
    holder := if t.holder = some gid then none else t.holder
    fed := if t.holder = some gid then false else t.fed }

/-- A unit whose started work is done: its record is written, then it counts as ended and leaves. A task or call-out group gives
its private memory back, unless it ran in a waiter's (09 R176). -/
def State.finishUnit (s : State) (gid : Nat) (g : Group) (fault : Option FRec) : State :=
  let s0 := { s with
    groups := s.groups.erase gid
    mem := if g.ownWin then s.mem.dropRange g.win (32 * g.stride) else s.mem }
  let s1 := match fault with | some r => s0.recordFault g.grid r | none => s0
  let s2 : State := match g.kind with
    | .team => (s1.retireBars gid g).modTeam g.team (fun t => { t.freeBaton gid with
        gone := t.gone ++ [(g.index, if fault.isSome then 4 else g.quarter)] })
    | .task => (s1.taskDone g.grid g.task (dieOfCore g.core) (fault.map (·.code))).unframe g
    | .callout => g.rays.foldl (fun s' q => s'.failCallout q.2.1 q.2.2 ((fault.map (·.code)).getD 0)) s1
  let s3 := if g.kind = .team ∧ !(s2.members g.team).isEmpty then s2.saveTeam g.team else s2
  s3.settlePreempt g.grid

/-- Work that a unit started and that must end before the unit counts: copies, and for a fault the engine's drains and the hit records of
its rays but those that have parked (12 R219, R221, R225). -/
def State.busyUnit (s : State) (gid : Nat) (fault : Bool) : Bool :=
  s.eng.copies.any (fun c => c.gid == gid) ||
  (fault && (s.spire.rays.any (fun e => e.2.gid == gid && e.2.st != .parked) ||
    s.eng.ops.any (fun o => o.gid == gid && (match o.kind with | .drain .. | .sent .. => true | _ => false))))

/-- A pending result is the old value of an atomic at another part. -/
def Pend.atHome (p : Pend) : Bool := p.atom && (match p.src with | .remote .. => true | _ => false)

/-- A unit that has ended leaves as soon as its started work is done and its writes and atomics at other parts are performed there, for its
end releases at POD scope (07 R130, 12 R221); a save routine that has ended leaves its slot then
(22 R319). -/
def State.settleUnit (s : State) (gid : Nat) : State :=
  match s.groups.get? gid with
  | some g =>
    match g.place with
    | .ending f => if s.busyUnit gid f.isSome ∨ g.unacked ≠ [] ∨ g.pend ≠ [] then s else s.finishUnit gid g f
    | .saving =>
      if g.live ≠ 0 ∨ s.busyUnit gid true ∨ s.eng.ops.any (fun x => x.gid == gid && !x.complete) then s else
      let s1 := s.setGroup gid { g with place := .taken }
      (if g.kind = .team then s1.saveTeam g.team else s1).settlePreempt g.grid
    | _ => s
  | none => s

/-- Grants that an instruction of a group asked for or holds before its copy was accepted are given up. -/
def Eng.forget (e : Eng) (gid : Nat) : Eng :=
  { e with
    asking := e.asking.filter (fun q => match q.2.1 with | .copy i _ => i != gid | _ => true)
    grants := e.grants.filter (fun q => match q.2 with | .copy i _ => i != gid | _ => true) }

/-- The state with the answers counted that other parts have still to send to a unit that has ended (14 R264). -/
def State.answersDue (s : State) (l : List Pend) : State :=
  l.foldl (fun t p => match p.src with | .remote _ _ n _ => if p.atom then t else t.countRx none n | _ => t) s

/-- The register that counts how long lanes wait for such a reason, its unit, and how often the time counts (07 R143, 08 R167, 10 R202,
22 R320). -/
def Wait.meter (w : Wait) (core : Nat) : Option (CtlReg × Nat × Nat) :=
  match w.why, w.i with
  | .launch, _ => some (.dispLaunchWaitNs, 0, 1)
  | .room, _ => some (.copyEntryWaitNs, copyEngineOf core, 1)
  | .grant, _ => some (.copyGrantNs, copyEngineOf core, 1)
  | .raySlot k, _ => some (.spireSlotWaitNs, k, laneCount w.lanes)
  | .fence _, .fence .. => some (.cohFenceNs, dieOfCore core, laneCount w.lanes)
  | _, _ => none

/-- The state with the time of a wait that ends now counted. -/
def State.metered (s : State) (core : Nat) (w : Wait) : State :=
  match w.meter core with
  | some (r, u, k) => s.count r u (k * nsOf (s.env.cycle - w.since))
  | none => s

/-- A unit ends, by its last EXIT (no fault) or by a fault: no lane is live, pending results but those of atomics at other parts, and the
monitor, are dropped, the open batch is sealed, the baton is freed. -/
def State.endUnit (s : State) (gid : Nat) (fault : Option FRec) : State :=
  match s.groups.get? gid with
  | none => s
  | some g =>
    let g1 := { g with live := 0, pend := g.pend.filter Pend.atHome, waits := [], monitor := none, place := .ending fault, sealSeq := g.sealSeq + 1,
                       halted := false }
    let s0 := g.waits.foldl (fun t w => t.metered g.core w) s
    let s1 := { (s0.setGroup gid g1).answersDue g.pend with eng := s.eng.forget gid }
    let s2 := if g.kind = .team then s1.modTeam g.team (fun t => t.freeBaton gid) else s1
    s2.settleUnit gid

/-- A fault that translation raises at a global address, for which a walk may have been made; SPACE_FOREIGN is one where the page is
another core's (05 R95, R96, R103). -/
def State.ofWalk (s : State) (by' : Acc) (f : FaultInfo) : Bool :=
  windowOf f.addr == .glb && ([cNotPresent, cWriteProtect, cExecProtect, cRemote].contains f.code ||
    (f.code == cForeign && (s.leafFor by' f.addr).any (fun l => coh l.pte == 2)))

/-- The walks made before a translation failed, at the addresses translated before it, in their order (05 R93, R103). -/
def State.walksBefore (s : State) (by' : Acc) (f : FaultInfo) (l : List Nat) : State :=
  if s.ofWalk by' f then ((l.takeWhile (· != f.addr)).filter (fun a => windowOf a = .glb)).foldl (fun t a => t.noteAccess by' a) s else s

/-- TAKING A FAULT (12 R216 to R221): the one operation every fault of a work unit goes through. The walk of a faulting translation is
counted where the unit `by'` that made it translates (05 R103); the unit ends; its record names the code, the lane, the PC, the address
and the detail. -/
def State.takeFaultBy (s : State) (by' : Acc) (gid lane pc : Nat) (f : FaultInfo) : State :=
  match s.groups.get? gid with
  | none => s
  | some g => (if s.ofWalk by' f then s.noteAccess by' f.addr else s).endUnit gid (some (s.recOf g lane pc f))
/-- The fault of an access that the group's core makes, or of no access. -/
def State.takeFault (s : State) (gid lane pc : Nat) (f : FaultInfo) : State :=
  match s.groups.get? gid with
  | none => s
  | some g => s.takeFaultBy (s.accOf g) gid lane pc f

/-! ## The issue of an instruction (15 R281) -/

/-- What an instruction knows as it acts: its group, its PC, its path's live lanes, the instruction, and the
wait that its lanes end, if they waited at it: it has issued already then (15 R279 to R281). -/
structure ICtx where
  gid : Nat
  g : Group
  pc : Nat
  lanes : Mask
  i : Instr
  prev : Option Wait
deriving DecidableEq, Repr

/-- The lane a fault of the whole path names: the lowest participating lane, or the lowest live lane (12 R216). -/
def ICtx.pathLane (c : ICtx) (part : Mask) : Nat := if part = 0 then lowLane c.lanes else lowLane part

/-- A fault of the whole path. -/
def ICtx.fail (c : ICtx) (s : State) (part : Mask) (f : FaultInfo) : State := s.takeFault c.gid (c.pathLane part) c.pc f
/-- A fault of one lane. -/
def ICtx.failLane (c : ICtx) (s : State) (lane : Nat) (f : FaultInfo) : State := s.takeFault c.gid lane c.pc f

/-- A fault of an access that another unit makes for a lane of the path. -/
def ICtx.failBy (c : ICtx) (by' : Acc) (s : State) (lane : Nat) (f : FaultInfo) : State := s.takeFaultBy by' c.gid lane c.pc f

/-- The instruction word, for the detail of ILLEGAL_INSTRUCTION (15 R281). -/
def ICtx.word (c : ICtx) : Nat := (encode c.i).getD 0
/-- ILLEGAL_INSTRUCTION for the path. -/
def ICtx.illegal (c : ICtx) (s : State) (part : Mask) : State :=
  c.fail s part { code := cIllegal, addr := 0, detail := c.word }

/-- The PC after the instruction (15 R265). -/
def ICtx.next (c : ICtx) : Nat := c.pc + c.i.size

/-- The lanes that take part (00 R8, 15 R267): those that the guard selected at issue. -/
def ICtx.part (c : ICtx) : Mask := if c.prev.isSome then c.lanes else c.g.guarded c.lanes (guardOf c.i)

/-- The state after the lanes below one have passed their checks at the addresses that they name: they have been translated. -/
def ICtx.lanesBelow (c : ICtx) (by' : Acc) (lane : Nat) (f : Nat → List Nat) (s : State) : State :=
  ((((lanesOf c.part).filter (· < lane)).map f).flatten.filter (fun a => windowOf a = .glb)).foldl (fun t a => t.noteAccess by' a) s

/-- A fault of a lane's access at the address that each lane names, after the lanes below it. -/
def ICtx.failAt (c : ICtx) (s : State) (lane : Nat) (f : FaultInfo) (addr : Nat → Nat) : State :=
  c.failLane (c.lanesBelow (s.accOf c.g) lane (fun l => [addr l]) s) lane f

/-- sN as the instruction reads it: once, at issue (15 R279). -/
def ICtx.sget (c : ICtx) (n : Nat) : W64 :=
  match c.prev with
  | some w => if n = 0 then 0 else w.snap.getD n 0
  | none => c.g.sget n

/-- A wait for acceptance by the matrix engine. -/
def Why.isMx : Why → Bool | .mxAccept _ => true | _ => false

/-- The wait of a number. -/
def Group.waitOf (g : Group) (seq : Nat) : Option Wait := if seq = 0 then none else g.waits.find? (fun w => w.seq == seq)

/-- Lanes leave any wait they were in at this PC. -/
def Group.unwait (g : Group) (lanes : Mask) : Group :=
  { g with waits := (g.waits.map (fun w => { w with lanes := w.lanes &&& ~~~lanes })).filter (fun w => w.lanes != 0) }

/-- A pre-emption request is pending for a group. -/
def State.preempting (s : State) (g : Group) : Bool := (s.gridOf g).pre == .pending

/-- Lanes of a group that wait for a reason leave the wait and go on after their 32-bit instruction. -/
def Group.release (g : Group) (p : Wait → Bool) : Group :=
  (g.waits.filter p).foldl (fun x w => x.setPc w.lanes (w.pc + 4)) { g with waits := g.waits.filter (fun w => !p w) }

/-- Every live lane of the path goes on at the next instruction, with a change to the group's registers. -/
def ICtx.step (c : ICtx) (s : State) (f : Group → Group) : State :=
  s.setGroup c.gid ((f c.g).setPc c.lanes c.next)

/-- The same, where the group may have changed already in the state. -/
def ICtx.advance (c : ICtx) (s : State) : State := s.modGroup c.gid (fun g => g.setPc c.lanes c.next)

/-- The cycle at which lanes began to wait for this reason; now when they did not wait for it yet. -/
def ICtx.sinceFor (c : ICtx) (why : Why) (now : Nat) : Nat :=
  match c.prev with
  | some w => if w.why = why then w.since else now
  | none => now

/-- The state with the time of the wait that the lanes have ended counted, unless they wait on for the same. -/
def ICtx.metered (c : ICtx) (s : State) (again : Why → Bool) : State :=
  match c.prev with
  | some w => if again w.why then s else s.metered c.g.core w
  | none => s

/-- The number of a wait: the one before's, where the lanes waited already; else a new one. -/
def ICtx.seqFor (c : ICtx) (s : State) : Nat := (c.prev.map (·.seq)).getD s.freshId

/-- The lanes did not wait for this reason before. -/
def ICtx.firstWait (c : ICtx) (why : Why) : Bool :=
  match c.prev with
  | some w => w.why != why
  | none => true

/-- The wait of some of the path's lanes for a reason. What the instruction read and found when it issued is kept from one wait to the
next. -/
def ICtx.mkWait (c : ICtx) (s : State) (part : Mask) (why : Why) : Wait :=
  { pc := c.pc, lanes := part, why := why, since := c.sinceFor why s.env.cycle, seq := c.seqFor s, i := c.i,
    snap := (c.prev.map (·.snap)).getD c.g.s, found := (c.prev.map (·.found)).getD [], plans := (c.prev.map (·.plans)).getD [],
    tried := (c.prev.map (·.tried)).getD [], met := false }

/-- Participating lanes wait at the instruction, which keeps something by `f`; the others go on (02 R24). -/
def ICtx.waitWith (c : ICtx) (s : State) (part : Mask) (why : Why) (f : Wait → Wait) : State :=
  (s.modGroup c.gid (fun g => { g.setPc (c.lanes &&& ~~~part) c.next with waits := g.waits ++ [f (c.mkWait s part why)] })).useIds 1

/-- The whole path waits at an instruction that acts once for it (22 R315, R319). -/
def ICtx.waitAll (c : ICtx) (s : State) (why : Why) (f : Wait → Wait) : State := c.waitWith s c.lanes why f

/-- Participating lanes wait at the instruction; the others go on (02 R24). -/
def ICtx.waitFor (c : ICtx) (s : State) (part : Mask) (why : Why) : State := c.waitWith s part why id

/-- Participating lanes wait with the locations that their checks found. -/
def ICtx.waitAt (c : ICtx) (s : State) (part : Mask) (why : Why) (found : List (Nat × Nat × Loc)) : State :=
  c.waitWith s part why (fun w => { w with found := found.map (fun q => (q.1, q.2.1, q.2.2.key 0)) })

/-- A register that the form reads is poisoned (12 R231). -/
def ICtx.poisoned (c : ICtx) : Bool := c.g.readsPoison c.i c.part
/-- ECC_UNCORRECTABLE of a register of the group (12 R217, R231). -/
def ICtx.failPoison (c : ICtx) (s : State) : State := c.fail s c.part { code := cEcc, addr := 0, detail := 4 }

/-- THE FRAME OF EVERY ISSUE (15 R281): the path is found; the fields and the guard are checked, then the registers, then
poison; then the form's own effect. Nothing happens when no path is being issued. Lanes whose wait at the instruction is over leave it,
and only the form's own effect is left to come: the checks were made once, at issue. MXISSUE and MXWR look for poison once they have
found the baton (04 R68). -/
def issue (i : Instr) (s : State) (k : ICtx → State → State) : Out State :=
  match s.cur with
  | none => .next s
  | some q =>
    match s.groups.get? q.gid with
    | none => .next s
    | some g0 =>
      let lanes := q.lanes &&& g0.live
      if lanes = 0 then .next s else
      let g := g0.unwait lanes
      let s1 := s.setGroup q.gid g
      let c : ICtx := { gid := q.gid, g := g, pc := q.pc, lanes := lanes, i := i, prev := g0.waitOf q.wait }
      if c.prev.isSome then .next (k c s1) else
      if !i.wf then .next (c.illegal s1 c.part) else
      match regsFail g.budget (if g.kind = .team then some (s.teamOf g).tiles else none) (regsOf i) with
      | some u => .next (c.fail s1 c.part { code := cRegister, addr := 0, detail := u.detail })
      | none =>
        if c.g.guardPoison i || !wantsBaton i && c.poisoned then .next (c.failPoison s1) else .next (k c s1)

/-- An instruction that changes only registers of its group: participating lanes take the effect, every live lane of the path
goes on (23 R306, 22 R308). -/
def regOp (i : Instr) (s : State) (f : Mask → Group → Group) : Out State :=
  issue i s (fun c s1 => c.step s1 (f c.part))

/-- The state with a pending result of the path, which goes on (02 R29). -/
def ICtx.pending (c : ICtx) (s : State) (q : Pend) : State :=
  (s.modGroup c.gid (fun g => { g.setPc c.lanes c.next with pend := g.pend ++ [q] })).useIds 1

/-- A pending result of vector registers; none when no lane takes part. -/
def ICtx.pendV (c : ICtx) (s : State) (src : PSrc) (lanes : Mask) (regs : List Nat) (writes : List (Nat × Nat × W32))
    (bad : List (FaultInfo × Nat)) : State :=
  if lanes = 0 then c.advance s else
  c.pending s { id := s.freshId, src := src, pc := c.pc, lanes := lanes, regs := regs, sreg := none, writes := writes,
                swrite := 0, bad := bad }

/-- A pending result of sN, for the whole group; s0 is never pending and discards it. -/
def ICtx.pendS (c : ICtx) (s : State) (src : PSrc) (n : Nat) (x : W64) (bad : List (FaultInfo × Nat)) : State :=
  c.pending s { id := s.freshId, src := src, pc := c.pc, lanes := BitVec.allOnes 32, regs := [], sreg := (if n = 0 then none else some n), writes := [],
                swrite := x, bad := bad }

/-- A write to sN checked when N is 62 (02 R34). -/
def Group.stackOk (g : Group) (n : Nat) (x : W64) : Bool :=
  n != 62 || (bits x.toNat 63 24 == 0xFC00000000 && decide (g.floor ≤ bits x.toNat 23 0) && decide (bits x.toNat 23 0 ≤ g.priv))

/-- An instruction that writes one scalar register once for its path when a lane takes part (15 R280). -/
def scalarOp (i : Instr) (d : Nat) (s : State) (f : Mask → Group → W64) : Out State :=
  issue i s (fun c s1 =>
    if c.part = 0 then c.advance s1 else
    let x := f c.part c.g
    if c.g.stackOk d x then c.step s1 (fun g => g.sset d x)
    else c.fail s1 c.part { code := cStack, addr := x.toNat, detail := 0 })

end Sys2Proof.Machine
end

