-- ==== Sys2Proof/Machine/Access.lean ====
section
/-! DEFINITION. How lanes reach memory: checks of every lane first, pins, loads, stores, atomics, reductions, and the
read-only path (05 R86; 07 R125 to R135; 12 R231; 14 R252, R253; 22 R310; 24 R347 to R349; 25 R366, R380). -/
namespace Sys2Proof.Machine

/-! ## Checks -/

/-- Checks made lane by lane in ascending order: the first lane that fails, or what each lane gives. -/
def perLane {α : Type} (f : Nat → Except FaultInfo α) : List Nat → Except (Nat × FaultInfo) (List (Nat × α))
  | [] => .ok []
  | l :: t =>
    match f l with
    | .error e => .error (l, e)
    | .ok x =>
      match perLane f t with
      | .error e => .error e
      | .ok xs => .ok ((l, x) :: xs)

/-- The locations that an access of each participating lane goes to: checked once, at issue (15 R281). -/
def ICtx.checkedOnce (c : ICtx) (f : Nat → Except FaultInfo (Nat × Loc)) : Except (Nat × FaultInfo) (List (Nat × Nat × Loc)) :=
  match c.prev with
  | some w => .ok ((w.found.filter (fun q => c.lanes.getLsbD q.1)).map (fun q => (q.1, q.2.1, locOf q.2.2)))
  | none => perLane f (lanesOf c.part)

/-- The home part of a page cannot be reached (14 R253). -/
def unreachableAt (a : Nat) : FaultInfo := { code := cNotPresent, addr := a, detail := pfDetail 6 0 }
/-- A poisoned unit is consumed (12 R217, R231). -/
def eccAt (a place : Nat) : FaultInfo := { code := cEcc, addr := a, detail := place }

/-- A location that lanes must not write yet. -/
def State.pinnedAt (s : State) (l : Loc) (n : Nat) : Bool :=
  match l with
  | .here k => s.pinned k n
  | .away _ _ => false

/-- Locations of this part as segments of `n` bytes. -/
def segsAt (n : Nat) (l : List Loc) : List Seg :=
  l.filterMap (fun x => match x with | .here k => some { key := k, len := n } | .away _ _ => none)

/-! ## Loads -/

/-- What a lane's load finds: a location; or a fault that is raised only when the data should arrive (24 R348). -/
abbrev Found := Except FaultInfo Loc

/-- The checks of a load of one lane; an unreachable home is deferred. -/
def State.checkLoad (s : State) (g : Group) (lane a n : Nat) : Except FaultInfo Found :=
  match s.checkAddr g lane a n n .load with
  | .ok l => .ok (.ok l)
  | .error f => if f = unreachableAt a then .ok (.error f) else .error f

/-- The fault that a load's data brings, if any (24 R348). -/
def State.badLoad (s : State) (a n : Nat) : Found → Option FaultInfo
  | .error f => some f
  | .ok (.here k) => (s.mem.poisonAt k n).map (eccAt a)
  | .ok (.away _ _) => none

/-- The 32-bit words of a load's result (24 R346). -/
def loadWords (n : Nat) (signed : Bool) (x : Nat) : List W32 :=
  if n < 4 then [BitVec.ofNat 32 (if signed then sext64 (8 * n) x else x)]
  else (List.range (n / 4)).map (fun j => BitVec.ofNat 32 (x / 2 ^ (32 * j)))
/-- The registers a load of `n` bytes writes. -/
def loadRegs (d n : Nat) : List Nat := (List.range ((n + 3) / 4)).map (d + ·)
/-- The writes of a lane's result. -/
def laneWrites (d l : Nat) (ws : List W32) : List (Nat × Nat × W32) := ws.zipIdx.map (fun q => (d + q.2, l, q.1))

/-- The address of an FL form in a lane (15 R269). -/
def Group.flAddr (g : Group) (a l : Nat) (off : BitVec 7) (n : Nat) : Nat := add64 (g.wget a l).toNat (sext64 7 off.toNat * n)

/-- Where a load's data comes from. -/
def srcOf (a n : Nat) (signed : Bool) : Found → PSrc
  | .ok (.away p _) => .remote p a n signed
  | _ => .ready

/-- A load of a lane sends its request to a remote home. -/
def State.askRemote (s : State) (k : Ask) (n : Nat) (owner : Nat × Nat) : Found → State
  | .ok (.away p pa) => s.send (k.msg p 0 0 [pa, n] (some owner))
  | _ => s

/-- The value a load reads at issue; a remote read's comes later. -/
def State.loadValue (s : State) (n : Nat) : Found → Nat
  | .ok (.here k) => s.readMem k n
  | _ => 0

/-- One lane's load after its checks: translation and request, partials combined, and a pending result. -/
def ICtx.loadLane (c : ICtx) (n d : Nat) (signed : Bool) (bad : List (FaultInfo × Nat)) (s : State) (q : Nat × Nat × Found) :
    State :=
  let s0 := s.useIds 1
  let s1 := match q.2.2 with
    | .ok l => (s0.accessBy (s0.accOf c.g) c.g q.2.1 n l false (some s.freshId)).askRemote (s.askFor (s.accOf c.g) c.g q.2.1 false none) n
        (c.gid, q.1) q.2.2
    | .error _ => s0
  let s2 := match q.2.2 with | .ok (.here k) => s1.combine k n | _ => s1
  let p : Pend := { id := s.freshId, src := srcOf q.2.1 n signed q.2.2, pc := c.pc, lanes := laneBit q.1, regs := loadRegs d n,
                    sreg := none, writes := laneWrites d q.1 (loadWords n signed (s.loadValue n q.2.2)), swrite := 0,
                    bad := bad
                    due := match q.2.2 with | .ok l => s.dueFor (s.accOf c.g) c.g q.2.1 n l false | .error _ => []
                    msg := if s2.fab.sent.length = s.fab.sent.length then 0 else s2.fab.sent.length }
  s2.modGroup c.gid (fun g => { g with pend := g.pend ++ [p] })

/-- The faults that lanes' data bring, each with its lane, the lowest first: the landing of any of them raises the first whose lane is
live (24 R348). -/
def State.badLoads (s : State) (n : Nat) (xs : List (Nat × Nat × Found)) : List (FaultInfo × Nat) :=
  xs.filterMap (fun q => (s.badLoad q.2.1 n q.2.2).map (fun f => (f, q.1)))

/-- Registers that an instruction with all 32 lanes writes whole lose their poison (12 R231). They are pending until the results land. -/
def ICtx.cures (c : ICtx) (rs : List Nat) (s : State) : State :=
  if c.part = BitVec.allOnes 32 ∧ !c.g.poison.isEmpty then
    s.modGroup c.gid (fun g => { g with poison := g.poison.filter (fun r => !rs.contains r) })
  else s

/-- A load of `n` bytes in each participating lane (24 R347). -/
def loadOp (i : Instr) (d a : Nat) (off : BitVec 7) (g : Nat) (signed : Bool) (s : State) : Out State :=
  issue i s (fun c s1 =>
    match perLane (fun l => (s1.checkLoad c.g l (c.g.flAddr a l off g) g).map (fun x => (c.g.flAddr a l off g, x))) (lanesOf c.part) with
    | .error (l, f) => c.failAt s1 l f (fun l => c.g.flAddr a l off g)
    | .ok xs => c.advance (xs.foldl (c.loadLane g d signed (s1.badLoads g xs)) (c.cures (loadRegs d g) s1)))

/-! ## Stores -/

/-- The state with a remote write of a lane sent; one to an unreachable home is discarded and counted (14 R252, R253). -/
def State.writeAway (s : State) (gid lane a p : Nat) (m : Msg) : State :=
  if s.fab.unreachable.contains p then
    (s.count .fabDroppedWrites 0 1).modGroup gid (fun g => { g with dropped := g.dropped ++ [(lane, a)] })
  else (s.send { m with owner := some (gid, lane) }).modGroup gid (fun g => { g with unacked := g.unacked ++ [(lane, a, p)] })

/-- The lines of 128 bytes that one core's L1 can hold: its SRAM has 1 MiB (01 R11, log 105). -/
def l1Lines : Nat := 8192

/-- A core's L1 holds bytes of a line that it may still have to write back: a store to a cached page that is not hardware-coherent has
reached it. Where the L1 is full of such lines, the oldest is written back (07 R136; log 105). -/
def State.markDirty (s : State) (by' : Acc) (a k : Nat) : State :=
  if windowOf a = .glb ∧ (s.leafFor by' a).any (fun l => coh l.pte != 0 && homeF l.pte != 1) then
    let e := (by'.core, k / 4 / 128)
    let mine := (s.mmu.dirty.filter (fun q => q.1 == e.1 && q != e)).take (l1Lines - 1)
    { s with mmu := { s.mmu with dirty := e :: mine ++ s.mmu.dirty.filter (fun q => q.1 != e.1) } }
  else s

/-- The state with `n` bytes stored by a lane (25 R380). -/
def ICtx.storeLane (c : ICtx) (n : Nat) (s : State) (q : Nat × Nat × Loc × Nat) : State :=
  let a := q.2.1
  let s1 := s.access c.g a n q.2.2.1 true
  match q.2.2.1 with
  | .here k => ((s1.markDirty (s.accOf c.g) a k).combine k n).writeMem k n q.2.2.2
  | .away p pa => s1.writeAway c.gid q.1 a p ((s.askFor (s.accOf c.g) c.g a true none).msg p 1 n [pa, n, q.2.2.2])

/-! ## Fences (07 R130, R131) -/

/-- Accesses of the lanes of a mask that a fence waits for: remote loads and atomics not landed, and for scope POD writes not
acknowledged (07 R131). -/
def Group.unperformed (g : Group) (lanes : Mask) (pod : Bool) : Bool :=
  g.pend.any (fun q => q.lanes &&& lanes != 0 && (match q.src with | .remote .. => true | _ => false)) ||
  (pod && g.unacked.any (fun q => lanes.getLsbD q.1))

/-- The fence that a release form places before its signal: the lanes wait for their earlier accesses, at POD scope for the
acknowledgements too (07 R130, R131). -/
def ICtx.released (c : ICtx) (s : State) (part : Mask) (pod : Bool) (k : State) : State :=
  if c.g.unperformed part pod then c.waitFor s part (.fence pod) else k

/-! ## GO words (14 R256) -/

/-- The entries whose GO word an 8-byte store to a location writes: joined entries with that window. -/
def State.goEntry (s : State) (l : Loc) (n : Nat) : Option Nat :=
  match l with
  | .here k =>
    if n ≠ 8 ∨ k % 4 ≠ 0 ∨ k / 4 % 4096 ≠ 256 then none
    else (List.range 64).find? (fun e => bit (s.ctlN .fabGrpCtl e) 63 && bits (s.ctlN .fabGrpWin e) 51 12 == k / 4 / 4096)
  | .away _ _ => none

/-- A group entry before its first round. -/
def noRound : GrpRound :=
  { asked := false, live := false, round := 0, busy := false, go := none, data := [], since := 0, late := none }
/-- The round state of a group entry. -/
def State.grpRound (s : State) (e : Nat) : GrpRound := s.fab.groups.getD e noRound
/-- The state with a group entry's round state set. -/
def State.setGrpRound (s : State) (e : Nat) (r : GrpRound) : State :=
  { s with fab := { s.fab with groups := s.fab.groups.put e r noRound } }

/-- A store has been made to a location: at a GO word, the member's next round begins. -/
def State.goStored (s : State) (gid lane : Nat) (l : Loc) (n : Nat) : State :=
  match s.goEntry l n with
  | none => s
  | some e =>
    let r := s.grpRound e
    s.setGrpRound e { r with
      round := r.round + 1
      busy := true
      go := some (gid, lane) }

/-- A store to a location must wait for the round before. -/
def State.goBusy (s : State) (l : Loc) (n : Nat) : Option Nat := (s.goEntry l n).filter (fun e => (s.grpRound e).busy)

/-- A later lane of a list names the location of an earlier entry: only the highest lane's data is written (25 R380). -/
def overwritten (xs : List (Nat × Nat × Loc × Nat)) (q : Nat × Nat × Loc × Nat) : Bool :=
  xs.any (fun r => decide (q.1 < r.1) && r.2.2.1 == q.2.2.1)

/-- One lane's store, unless the round of its GO word is incomplete: then it is left, with its lane and entry. A lane whose location a
higher lane names is translated, and writes nothing; where that lane's store is left, it waits with it. -/
def ICtx.storeStep (c : ICtx) (n : Nat) (xs : List (Nat × Nat × Loc × Nat)) (r : State × Mask × List Nat) (q : Nat × Nat × Loc × Nat) :
    State × Mask × List Nat :=
  match r.1.goBusy q.2.2.1 n with
  | some e => (r.1, r.2.1 ||| laneBit q.1, r.2.2 ++ [e])
  | none =>
    if overwritten xs q then (r.1.touch c.g q.2.1, r.2.1, r.2.2)
    else ((c.storeLane n r.1 q).goStored c.gid q.1 q.2.2.1 n, r.2.1, r.2.2)

/-- Stores made lane by lane. -/
def ICtx.storeLanes (c : ICtx) (n : Nat) (xs : List (Nat × Nat × Loc × Nat)) (s : State) : State × Mask × List Nat :=
  xs.foldl (c.storeStep n xs) (s, 0, [])

/-- The path goes on after its stores; lanes whose store is left wait (14 R256). -/
def ICtx.stored (c : ICtx) (found : List (Nat × Nat × Loc)) (r : State × Mask × List Nat) : State :=
  if r.2.1 = 0 then c.advance r.1 else c.waitAt r.1 r.2.1 (.go r.2.2) found

/-- The data a store of `n` bytes takes from registers (25 R379). -/
def Group.storeData (g : Group) (d l n : Nat) : Nat :=
  (List.range ((n + 3) / 4)).foldl (fun x j => x + (g.vget (d + j) l).toNat * 2 ^ (32 * j)) 0 % 2 ^ (8 * n)

/-- A store of `n` bytes in each participating lane: every lane is checked, pins hold it back, the highest lane of a location
writes last (25 R380). -/
def storeOp (i : Instr) (d a : Nat) (off : BitVec 7) (n : Nat) (s : State) : Out State :=
  issue i s (fun c s1 =>
    match c.checkedOnce (fun l => (s1.checkAddr c.g l (c.g.flAddr a l off n) n n .store).map (fun x => (c.g.flAddr a l off n, x))) with
    | .error (l, f) => c.failAt s1 l f (fun l => c.g.flAddr a l off n)
    | .ok xs =>
      if xs.any (fun q => s1.pinnedAt q.2.2 n) then c.waitAt s1 c.part (.pin (segsAt n (xs.map (·.2.2)))) xs
      else c.stored xs (c.storeLanes n (xs.map (fun q => (q.1, q.2.1, q.2.2, c.g.storeData d q.1 n))) s1))

/-! ## Atomics and reductions -/

/-- The operations of ATOM by their number (22 R309), on `n`-byte values. -/
def atomNew (op n o x : Nat) : Nat :=
  let lessS (a b : Nat) : Bool := (BitVec.ofNat (8 * n) a).slt (BitVec.ofNat (8 * n) b)
  match op with
  | 0 => (o + x) % 2 ^ (8 * n)
  | 1 => if lessS x o then x else o
  | 2 => if lessS o x then x else o
  | 3 => min o x
  | 4 => max o x
  | 5 => o &&& x
  | 6 => o ||| x
  | 7 => o ^^^ x
  | _ => x

/-- The checks of an atomic of one lane: as a store, then the home's reach and poison (22 R310, R312). -/
def State.checkAtom (s : State) (g : Group) (lane a n : Nat) : Except FaultInfo Loc :=
  match s.checkAddr g lane a n n .store with
  | .error f => .error f
  | .ok (.away p pa) => if s.fab.unreachable.contains p then .error (unreachableAt a) else .ok (.away p pa)
  | .ok (.here k) => match s.mem.poisonAt k n with
    | some pl => .error (eccAt a pl)
    | none => .ok (.here k)

/-- An atomic or a reduction has written a word: what it then holds is kept for the monitors that wait on it (07 R141). -/
def State.noteWord (s : State) (k : Nat) : State :=
  let w := k / 4 / 8 * 32 + k % 4
  { s with msys := { s.msys with wrote := s.msys.wrote ++ [(w, s.readMem w 8)] } }

/-- One lane's atomic: the new value written at the home, the old one pending. `f` gives the new value from the old. -/
def ICtx.atomLane (c : ICtx) (n d op : Nat) (f : Nat → Nat → Nat) (args : Nat → List Nat) (s : State) (q : Nat × Nat × Loc) : State :=
  let l := q.1
  let s1 := (s.useIds 1).accessBy (s.accOf c.g) c.g q.2.1 n q.2.2 true (some s.freshId)
  let mk (src : PSrc) (o : Nat) (s' : State) : State :=
    let p : Pend := { id := s.freshId, src := src, pc := c.pc, lanes := laneBit l, regs := loadRegs d n, sreg := none,
                      writes := laneWrites d l (loadWords n false o), swrite := 0, bad := []
                      due := s.dueFor (s.accOf c.g) c.g q.2.1 n q.2.2 true, atom := true
                      msg := if s'.fab.sent.length = s.fab.sent.length then 0 else s'.fab.sent.length }
    s'.modGroup c.gid (fun g => { g with pend := g.pend ++ [p] })
  match q.2.2 with
  | .here k =>
    let s2 := s1.combine k n
    let o := s2.readMem k n
    mk .ready o (if f l o = o then s2 else (s2.writeMem k n (f l o)).noteWord k)
  | .away p pa => mk (.remote p q.2.1 n false) 0 (s1.send ((s.askFor (s.accOf c.g) c.g q.2.1 true none).msg p 2 (n * (args l).length)
      ([pa, n, op] ++ args l) (some (c.gid, l))))

/-- An atomic in each participating lane, in ascending lane order (22 R310). -/
def atomOp (i : Instr) (d a n op : Nat) (f : Group → Nat → Nat → Nat) (args : Group → Nat → List Nat) (s : State) : Out State :=
  issue i s (fun c s1 =>
    match c.checkedOnce (fun l => (s1.checkAtom c.g l (c.g.wget a l).toNat n).map (fun x => ((c.g.wget a l).toNat, x))) with
    | .error (l, e) => c.failAt s1 l e (fun l => (c.g.wget a l).toNat)
    | .ok xs =>
      if xs.any (fun q => s1.pinnedAt q.2.2 n) then c.waitAt s1 c.part (.pin (segsAt n (xs.map (·.2.2)))) xs
      else c.advance (xs.foldl (c.atomLane n d op (f c.g) (args c.g)) (c.cures (loadRegs d n) s1)))

/-- The operand of a lane: a register or a pair. -/
def Group.operand (g : Group) (d l n : Nat) : Nat := g.storeData d l n

/-- An ATOM form (22 R309). -/
def atomForm (i : Instr) (d a : Nat) (w : BitVec 1) (op : Nat) (s : State) : Out State :=
  let n := if w = 0 then 4 else 8
  atomOp i d a n op (fun g l o => atomNew op n o (g.operand d l n)) (fun g l => [g.operand d l n]) s

/-- The state with a value reduced into a location, where partials are combined first; poison stays (07 R133, 25 R366, 12 R231). -/
def State.reduceAt (s : State) (k n w : Nat) : State :=
  { s.combine k n with mem := (s.combine k n).mem.write k n w }

/-- RED.FADD.F32 at a location: the addend joins the partials there (07 R133, log 13). -/
def State.redFadd (s : State) (k : Nat) (x : W32) : State :=
  let log : RedLog := match s.mem.red.get? k with
    | some l => { l with xs := l.xs ++ [x] }
    | none => { base := BitVec.ofNat 32 (s.readMem k 4), xs := [x] }
  let v := redValue s.env.freeCtr log
  { s with mem := { ((s.mem.settle k 4).write k 4 v.toNat) with red := (s.mem.settle k 4).red.set k log } }.useFree 1

/-- One lane's reduction. -/
def ICtx.redLane (c : ICtx) (n d op : Nat) (f : State → Nat → Nat → State) (s : State) (q : Nat × Nat × Loc) : State :=
  let x := c.g.operand d q.1 n
  let s1 := s.access c.g q.2.1 n q.2.2 true
  match q.2.2 with
  | .here k => (f s1 k x).noteWord k
  | .away p pa => s1.writeAway c.gid q.1 q.2.1 p ((s.askFor (s.accOf c.g) c.g q.2.1 true none).msg p 3 n [pa, n, op, x])

/-- A reduction in each participating lane (25 R366). -/
def redOp (i : Instr) (d a n op : Nat) (f : State → Nat → Nat → State) (s : State) : Out State :=
  issue i s (fun c s1 =>
    match c.checkedOnce (fun l => (s1.checkAddr c.g l (c.g.wget a l).toNat n n .store).map (fun x => ((c.g.wget a l).toNat, x))) with
    | .error (l, e) => c.failAt s1 l e (fun l => (c.g.wget a l).toNat)
    | .ok xs =>
      if xs.any (fun q => s1.pinnedAt q.2.2 n) then c.waitAt s1 c.part (.pin (segsAt n (xs.map (·.2.2)))) xs
      else c.advance (xs.foldl (c.redLane n d op f) s1))

/-- A reduction whose combining order does not matter. -/
def redExact (n : Nat) (f : Nat → Nat → Nat) (s : State) (k x : Nat) : State := s.reduceAt k n (f (s.readMem k n) x)

/-! ## The read-only path (07 R134, R135)

A core's read-only cache holds units of 16 bytes, each as it stood when it was brought in, so that an aligned read of up to 16 bytes takes
all of them from one moment (07 R125, log 11). -/

/-- The key of a 16-byte unit in a core's read-only cache. -/
def roKey (core pa : Nat) : Nat := core * 2 ^ 52 + pa / 16

/-- The bytes the read-only cache holds, when it holds their unit; `n` bytes that lie in one unit of 16. -/
def State.roBytes (s : State) (core pa n : Nat) : Option (List Byte) :=
  (s.mmu.ro.get? (roKey core pa)).map (fun u => (u.drop (pa % 16)).take n)

/-- Whether a read through the read-only cache returns the cache's bytes; open where memory has changed or is poisoned (log 11). -/
def State.roHit (s : State) (core pa n : Nat) : Option (List Byte) :=
  match s.roBytes core pa n with
  | none => none
  | some bs => if bs = s.mem.bytes (physKey pa) n ∧ s.mem.poisonAt (physKey pa) n = none then some bs else bif Config.roKeeps s.env.freeCtr then some bs else none

/-- The bytes a read through the read-only cache returns. -/
def State.roRead (s : State) (core pa n : Nat) : List Byte := (s.roHit core pa n).getD (s.mem.bytes (physKey pa) n)

/-- The state after a read that memory served: its unit is cached, unless it is poisoned. -/
def State.roFill (s : State) (core pa : Nat) : State :=
  if (s.mem.poisonAt (physKey (pa / 16 * 16)) 16).isSome then s else
  { s with mmu := { s.mmu with ro := s.mmu.ro.set (roKey core pa) (s.mem.bytes (physKey (pa / 16 * 16)) 16) } }

/-- A core's read-only cache and fetched code dropped (07 R135). -/
def State.roDrop (s : State) (core : Nat) : State :=
  { s with mmu := { s.mmu with ro := s.mmu.ro.filter (fun e => e.1 / 2 ^ 52 != core) } }

/-- One lane's LDRO at a global address of this part. Only a read that memory serves brings a fault. -/
def ICtx.roLane (c : ICtx) (n d : Nat) (s : State) (q : Nat × Nat × Found) : State :=
  let bad := ((s.badLoad q.2.1 n q.2.2).map (fun f => (f, q.1))).toList
  match q.2.2 with
  | .ok (.here k) =>
    if windowOf q.2.1 = .glb then
      let s1 := (s.useIds 1).accessBy (s.accOf c.g) c.g q.2.1 n (.here k) false (some s.freshId)
      let hit := s1.roHit c.g.core (k / 4) n
      let bs := s1.roRead c.g.core (k / 4) n
      let s3 := (if hit.isSome then s1 else (s1.combine k n).roFill c.g.core (k / 4)).useFree 1
      let p : Pend := { id := s.freshId, src := .ready, pc := c.pc, lanes := laneBit q.1, regs := loadRegs d n, sreg := none,
                        writes := laneWrites d q.1 (loadWords n false (fromLe bs)), swrite := 0,
                        bad := if hit.isSome then [] else bad
                        due := s.dueFor (s.accOf c.g) c.g q.2.1 n (.here k) false }
      s3.modGroup c.gid (fun g => { g with pend := g.pend ++ [p] })
    else c.loadLane n d false bad s q
  | _ => c.loadLane n d false bad s q

/-- The results that an instruction has made pending bring the faults of all of them (24 R348, R349). -/
def ICtx.shareBad (c : ICtx) (s : State) : State :=
  s.modGroup c.gid (fun g =>
    let mine := g.pend.drop c.g.pend.length
    let all := (mine.map (·.bad)).flatten
    { g with pend := g.pend.take c.g.pend.length ++ mine.map (fun p => { p with bad := all }) })

/-- LDRO (24 R349). -/
def ldroOp (i : Instr) (d a : Nat) (off : BitVec 7) (n : Nat) (s : State) : Out State :=
  issue i s (fun c s1 =>
    match perLane (fun l => (s1.checkLoad c.g l (c.g.flAddr a l off n) n).map (fun x => (c.g.flAddr a l off n, x))) (lanesOf c.part) with
    | .error (l, f) => c.failAt s1 l f (fun l => c.g.flAddr a l off n)
    | .ok xs => c.advance (c.shareBad (xs.foldl (c.roLane n d) (c.cures (loadRegs d n) s1))))

end Sys2Proof.Machine
end

