-- ==== Sys2Proof/Machine/Copies.lean ====
section
/-! DEFINITION. Copies and power grants: LDA, BCOPY, BCAST, STAGE, chunks and chunk bits (07 R138 to R142; 09 R180, R181;
13 R249; 22 R316 to R320; 24 R350). -/
namespace Sys2Proof.Machine

/-! ## Checks of ranges -/

/-- Checks 1 to 5 of 05 R86 for an access. -/
def State.precheck (s : State) (g : Group) (lane a n align : Nat) : Option FaultInfo :=
  let mis : FaultInfo := { code := cMisaligned, addr := a, detail := n }
  if windowOf a = .glb then
    if !canonical a then some { code := cNoncanonical, addr := a, detail := 0 }
    else if a % align ≠ 0 then some mis else none
  else match s.windowLoc g lane a n with
    | .error f => some f
    | .ok _ => if a % align ≠ 0 then some mis else none

/-- Checks 1 to 4 of 05 R86 over `n` bytes. -/
def State.precheckRange (s : State) (g : Group) (lane a n : Nat) : Option FaultInfo :=
  if windowOf a = .glb then
    (pagePieces (n / 4096 + 2) a n).findSome? (fun q =>
      if canonical q.1 then none else some { code := cNoncanonical, addr := q.1, detail := 0 })
  else match s.windowLoc g lane a n with
    | .error f => some f
    | .ok _ => none

/-- A private or cluster address (07 R138, 22 R317). -/
def notLocal (a : Nat) : Bool := decide (windowOf a = .prv) || decide (windowOf a = .clu)

/-- A block that an instruction reads at issue as an ordinary load: its bytes' places, or the fault, poison last. -/
def State.readBlock (s : State) (g : Group) (lane a n : Nat) : Except FaultInfo (List Seg) :=
  match s.checkRange g lane a n .load with
  | .error f => .error f
  | .ok ps =>
    let segs := segsOf s.env.freeCtr ps
    match segs.findSome? (fun q => s.mem.poisonAt q.key q.len) with
    | some p => .error (eccAt a p)
    | none => .ok segs

/-- Partials on runs of bytes combined for good (07 R133). -/
def State.combineRuns (s : State) (l : List Seg) : State := l.foldl (fun t q => if isAway q.key then t else t.combine q.key q.len) s

/-- The state after such a block has been accessed by a unit: its pages translated, its requests made, here or at the home that holds it,
its partials combined; what another part answers is counted with it, or as a pending result lands (14 R252, R264; log 16). -/
def State.accessRangeBy (s : State) (by' : Acc) (g : Group) (a n : Nat) (ps : List (Loc × Nat)) (write : Bool) (serves : Option Nat) :
    State :=
  let s1 := ((pagePieces (n / 4096 + 2) a n).zip ps).foldl (fun s' q =>
    let s2 := s'.accessBy by' g q.1.1 q.2.2 q.2.1 write serves
    match q.2.1 with
    | .here _ => s2
    | .away p pa => if write then s2 else
      (s2.send ((s.askFor by' g q.1.1 false none).msg p 0 0 [pa, q.2.2])).countRx none (if serves.isSome then 0 else q.2.2)) s
  ps.foldl (fun s' q => match q.1 with | .here k => s'.combine k q.2 | .away _ _ => s') s1

/-- A block that the group's core reads as an instruction issues. -/
def State.accessRange (s : State) (g : Group) (a n : Nat) (ps : List (Loc × Nat)) (write : Bool) : State :=
  s.accessRangeBy (s.accOf g) g a n ps write none

/-- A descriptor of `n` bytes that a group's core reads as an instruction issues, at an address that has passed its checks. -/
def State.noteRead (s : State) (g : Group) (a n : Nat) : State :=
  match s.checkRange g 0 a n .load with
  | .ok ps => s.accessRange g a n ps false
  | .error _ => s.touch g a

/-- What the requests for `n` bytes of a copy carry: the FAMILY and HOME of their pages' entries, by page and side (06 R111). -/
def State.runTags (s : State) (by' : Acc) (a n side : Nat) (ps : List (Loc × Nat)) : List (Nat × Nat) :=
  if windowOf a ≠ .glb then [] else
  ((pagePieces (n / 4096 + 2) a n).zip ps).filterMap (fun q =>
    match q.2.1 with
    | .here k => (s.leafFor by' q.1.1).map (fun l => (k / 4 / 4096 * 2 + side, pteTag l.pte))
    | .away _ _ => none)

/-- The pages of `n` bytes translated by a copy engine, whose requests come with the chunks. -/
def State.touchRange (s : State) (g : Group) (a n : Nat) : State :=
  if windowOf a = .glb then (pagePieces (n / 4096 + 2) a n).foldl (fun t q => t.noteAccess (s.copyAcc g) q.1) s else s

/-! ## What a copy is to do (22 R316) -/

/-- The bytes of a chunk bitmap (22 R316). -/
def bitmapBytes (n : Nat) : Nat := 8 * ceilDiv (ceilDiv n 512) 64

/-- The checks of a chunk bitmap at an offset of a team's scratchpad. -/
def checkBitmap (t : Team) (n bm : Nat) : Except FaultInfo (Option Nat) :=
  if bm = 0xFFFFFFFF then .ok none
  else if bm % 8 ≠ 0 then .error { code := cMisaligned, addr := bm, detail := 8 }
  else if t.scr < bm + bitmapBytes n then .error { code := cRange, addr := bm, detail := 0 }
  else .ok (some (scrKey t.scrId bm))

/-- The team whose scratchpad a destination lies in, or the issuing team (22 R318). -/
def State.copyOwner (s : State) (g : Group) (dst : Nat) : Team :=
  if windowOf dst = .clu then
    match s.setTeamOn g.grid ((s.teamOf g).index / (s.gridOf g).r.cset) (g.core / 4 * 4 + bits dst 25 24) with
    | some u => (s.teams.get? u).getD noTeam
    | none => s.teamOf g
  else s.teamOf g

/-- BCOPY's checks after the descriptor is read, in their order (22 R318). -/
def State.checkCopy (s : State) (g : Group) (lane src dst n bm : Nat) : Except FaultInfo CopyPlan :=
  if src % 16 ≠ 0 then .error { code := cMisaligned, addr := src, detail := 16 }
  else if dst % 16 ≠ 0 then .error { code := cMisaligned, addr := dst, detail := 16 }
  else if notLocal src then .error { code := cRange, addr := src, detail := 0 }
  else if windowOf dst = .prv then .error { code := cRange, addr := dst, detail := 0 }
  else match (s.precheckRange g lane src n).or (s.precheckRange g lane dst n) with
  | some f => .error f
  | none =>
    match s.checkRangeBy (s.copyAcc g) g lane src n .load, s.checkRangeBy (s.copyAcc g) g lane dst n .store with
    | .error f, _ => .error f
    | _, .error f => .error f
    | .ok ps, .ok pd =>
      match checkBitmap (s.copyOwner g dst) n bm with
      | .error f => .error f
      | .ok b => .ok { src := segsOf s.env.freeCtr ps, dst := segsOf s.env.freeCtr pd, bitmap := b,
                       tags := s.runTags (s.copyAcc g) src n 0 ps ++ s.runTags (s.copyAcc g) dst n 1 pd }

/-- The teams of a group's set, the group's own included (02 R20). -/
def State.setTeams (s : State) (g : Group) : List Team :=
  (s.teams.filter (fun e => e.2.grid == g.grid && !e.2.saved &&
    e.2.index / (s.gridOf g).r.cset == (s.teamOf g).index / (s.gridOf g).r.cset)).map (·.2)

/-- BCAST's checks after the descriptor is read, in their order; one plan for each target (22 R317). -/
def State.checkCast (s : State) (g : Group) (lane src off n bm : Nat) : Except FaultInfo (List CopyPlan) :=
  let t := s.teamOf g
  if src % 16 ≠ 0 then .error { code := cMisaligned, addr := src, detail := 16 }
  else if off % 16 ≠ 0 then .error { code := cMisaligned, addr := off, detail := 16 }
  else if notLocal src then .error { code := cRange, addr := src, detail := 0 }
  else match s.precheckRange g lane src n with
  | some f => .error f
  | none =>
    match s.checkRangeBy (s.copyAcc g) g lane src n .load with
    | .error f => .error f
    | .ok ps =>
      if t.scr < off + n then .error { code := cRange, addr := off, detail := 0 } else
      match checkBitmap t n bm with
      | .error f => .error f
      | .ok b => .ok ((s.setTeams g).map (fun u =>
          { src := segsOf s.env.freeCtr ps, dst := [{ key := scrKey u.scrId off, len := n }], bitmap := b.map (fun _ => scrKey u.scrId bm),
            tags := s.runTags (s.copyAcc g) src n 0 ps }))

/-! ## Entries and grants (22 R319, 13 R249) -/

/-- The copy entries of a core that are held. -/
def Eng.entries (e : Eng) (core : Nat) : List Nat :=
  ((e.copies.filter (fun c => c.core == core && c.ent != 0)).map (·.ent)).eraseDups

/-- A core has a free copy entry. -/
def State.copyRoom (s : State) (core : Nat) : Bool := decide ((s.eng.entries core).length < 32)

/-- A holder has a grant of a die. -/
def State.hasGrant (s : State) (die : Nat) (h : Holder) : Bool := s.eng.grants.contains (die, h)

/-- The state in which a holder has asked its die's power controller for a grant; one request stands for each holder. -/
def State.askGrant (s : State) (die : Nat) (h : Holder) : State :=
  if s.eng.asking.any (fun q => q.1 == die && q.2.1 == h) || s.hasGrant die h then s
  else { s with eng := { s.eng with asking := s.eng.asking ++ [(die, h, s.env.cycle)] } }

/-- The state without a holder's grant and request. -/
def State.dropGrant (s : State) (h : Holder) : State :=
  { s with eng := { s.eng with
      grants := s.eng.grants.filter (fun q => q.2 != h)
      asking := s.eng.asking.filter (fun q => q.2.1 != h) } }

/-- The most grants a die holds at once; 0 is read as 1 (13 R249). -/
def State.grantLimit (s : State) (die : Nat) : Nat := max 1 (min 48 (bits (s.ctlN .pwrGrants die) 7 0))

/-- The matrix instructions of a core that wait keep the cycle of their engine's grant, beside that of their request (04 R83). -/
def State.grantSeen (s : State) (h : Holder) : State :=
  match h with
  | .engine core => { s with groups := s.groups.map (fun e => if e.2.core != core || e.2.waits.isEmpty then e else
      (e.1, { e.2 with waits := e.2.waits.map (fun w => if w.why.isMx && w.tried.length == 1 then
        { w with tried := w.tried ++ [s.env.cycle] } else w) })) }
  | _ => s

/-- POWER_GRANT: the die's controller gives the oldest request a grant, within its limit (13 R249). -/
def execPowerGrant (die : Nat) (s : State) : Out State :=
  if s.grantLimit die ≤ (s.eng.grants.filter (fun q => q.1 == die)).length then .next s else
  match s.eng.asking.find? (fun q => q.1 == die) with
  | none => .next s
  | some q =>
    let e := { s.eng with
      asking := s.eng.asking.erase q
      grants := s.eng.grants ++ [(die, q.2.1)]
      idle := match q.2.1 with | .engine c => s.eng.idle.set c s.env.cycle | _ => s.eng.idle }
    .next (({ s with eng := e } : State).grantSeen q.2.1)

/-- POWER_GRANT_RETURN: an engine idle for 2 us gives its grant back (04 R83). It is not idle while an instruction of its core waits for
acceptance, which R83 leaves open (DESIGN CHOICE, log 107). -/
def execPowerGrantReturn (core : Nat) (s : State) : Out State :=
  let waits := s.groups.any (fun e => e.2.core == core && e.2.waits.any (fun w => w.why.isMx))
  if s.hasGrant (dieOfCore core) (.engine core) && !s.eng.working core && !waits &&
      decide (usCycles 2 ≤ s.env.cycle - s.eng.idle.getD core s.env.cycle)
  then .next { s.dropGrant (.engine core) with eng := { (s.dropGrant (.engine core)).eng with idle := s.eng.idle.erase core } }
  else .next s

/-! ## Acceptance -/

/-- The source's bytes, kept where source and destination overlap (log 20). -/
def State.capture (s : State) (src dst : List Seg) : Option (List Byte) :=
  if src.any (fun a => dst.any (fun b => overlaps a.key a.len b.key b.len)) then some (s.segBytes src) else none

/-- One target's copy joins the group's open batch (07 R138). LDA, which takes no entry, copies its unit whole, also onto itself
(24 R350). -/
def ICtx.addCopy (c : ICtx) (ent n : Nat) (s : State) (p : CopyPlan) : State :=
  let k : Copy := { id := s.freshId, gid := c.gid, core := c.g.core, ent := ent, src := p.src, dst := p.dst,
                    cap := if ent = 0 then none else s.capture p.src p.dst, n := n, left := List.range (ceilDiv n 512), sent := [], bits := [], bitmap := p.bitmap,
                    batch := c.g.sealSeq, cls := (s.gridOf c.g).r.cls, tags := p.tags }
  ({ s with eng := { s.eng with copies := s.eng.copies ++ [k] } }.useIds 1).useFree 1

/-- A copy with an entry is accepted: it is counted, takes its entry and its grant, and the path goes on (22 R319, R320). -/
def ICtx.acceptCopies (c : ICtx) (s : State) (n src : Nat) (ps : List CopyPlan) : State :=
  let ce := copyEngineOf c.g.core
  let ent := s.freshId
  let s1 := (s.useIds 1).count .copyIssued ce 1
  let s2 := s1.touchRange c.g src n
  let s3 := { s2 with eng := { s2.eng with grants := s2.eng.grants.map (fun q => if q.2 = .copy c.gid c.pc then (q.1, .entry ent) else q) } }
  c.advance (ps.foldl (c.addCopy ent n) s3)

/-- The waits of a copy for an entry and a grant, of the whole path, with their counts; then acceptance (22 R319, R320). A wait keeps the
copies, their size, the source's and destination's addresses, and whether the copy has been counted as one that waited for a grant; `dst`
is 0 for a destination that no page table maps. A copy that has its grant and finds no free entry waits for one. -/
def ICtx.tryCopies (c : ICtx) (s : State) (n src dst : Nat) (ps : List CopyPlan) (counted : State → State) : State :=
  let ce := copyEngineOf c.g.core
  let die := dieOfCore c.g.core
  let asked : Nat := match c.prev with | some w => if w.plans.isEmpty then 0 else w.tried.getD 3 0 | none => 0
  let keep (asked : Nat) (w : Wait) : Wait := { w with
    plans := ps
    tried := [n, src, dst, asked] }
  let room : Bool := s.copyRoom c.g.core
  let needs : Bool := decide (65536 < n) && !s.hasGrant die (.copy c.gid c.pc)
  let s1 := c.metered s (fun y => if !room then y == .room else needs && y == .grant)
  if !room then c.waitAll s1 .room (keep asked)
  else if needs then
    let s2 := if asked = 0 then s1.count .copyGrantWaits ce 1 else s1
    c.waitAll (s2.askGrant die (.copy c.gid c.pc)) .grant (keep 1)
  else
    let s2 := counted s1
    c.acceptCopies (if dst = 0 then s2 else s2.touchRange c.g dst n) n src ps

/-- A copy that has waited: what its checks found at issue goes on (15 R281). -/
def ICtx.retryCopies (c : ICtx) (s : State) (w : Wait) (counted : State → State) : State :=
  c.tryCopies s (w.tried.getD 0 0) (w.tried.getD 1 0) (w.tried.getD 2 0) w.plans counted

/-- The checks of the address of a descriptor of BCOPY and BCAST (22 R316, R317). -/
def State.checkDesc (s : State) (g : Group) (lane d : Nat) : Option FaultInfo :=
  if notLocal d then some { code := cRange, addr := d, detail := 0 } else
  (s.precheck g lane d 32 32).or (match s.checkRange g lane d 32 .load with | .error f => some f | .ok _ => none)

/-- A descriptor read: its four doublewords, or the fault (22 R316, R317). -/
def State.copyDesc (s : State) (g : Group) (lane d : Nat) : Except FaultInfo (Nat × Nat × Nat × Nat) :=
  (s.readBlock g lane d 32).map (fun segs =>
    let w := fromLe (s.segBytes segs)
    (bits w 63 0, bits w 127 64, bits w 191 128, bits w 255 192))

/-- The earlier stores and reductions of a group that still wait at a pin or a GO word: copies, and what a descriptor holds, are read after
them (07 R138; 14 R256; 22 R316). -/
def State.storesBefore (s : State) (gid seq : Nat) : Bool :=
  match s.groups.get? gid with
  | some g => g.waits.any (fun w => decide (w.seq < seq) && (match w.why with | .pin _ | .go _ => true | _ => false))
  | none => false

/-- What an instruction that reads a descriptor at an address does: the path waits for the group's earlier stores, and keeps the lane that
reads and a number; then the descriptor is read, and `k` goes on with that lane (22 R316). -/
def ICtx.readDesc (c : ICtx) (s : State) (d num : Nat) (check : State → Nat → Option FaultInfo) (k : State → Nat → State) : State :=
  let lane := match c.prev with | some w => w.tried.headD 0 | none => lowLane c.part
  match if c.prev.isSome then none else check s lane with
  | some f => c.failLane s lane f
  | none =>
    if s.storesBefore c.gid (c.seqFor s) then c.waitAll s (.pin []) (fun w => { w with tried := [lane, num] })
    else k (s.noteRead c.g d 32) lane

/-- ILLEGAL_INSTRUCTION named at a lane. -/
def ICtx.illegalLane (c : ICtx) (s : State) (lane : Nat) : State := c.failLane s lane { code := cIllegal, addr := 0, detail := c.word }

/-- A wait of a copy that has passed its checks. -/
def ICtx.copyWait (c : ICtx) : Option Wait := c.prev.filter (fun w => !w.plans.isEmpty)

/-- The fault of a copy's checks: the pages of the source, and then of the destination, before the one that fails have been walked
(05 R93, R103). -/
def ICtx.failCopy (c : ICtx) (s : State) (lane src dst n : Nat) (f : FaultInfo) : State :=
  let pages (a : Nat) : List Nat := if windowOf a = .glb then (pagePieces (n / 4096 + 2) a n).map (·.1) else []
  c.failBy (s.copyAcc c.g) (s.walksBefore (s.copyAcc c.g) f (pages src ++ pages dst)) lane f

/-- A byte count a descriptor may hold (22 R317, R318). -/
def copySizeOk (n : Nat) : Bool := n != 0 && n % 16 == 0 && decide (n ≤ 2 ^ 30)

/-- BCOPY (22 R318). -/
def execBcopy (a : BitVec 6) (g : BitVec 4) (s : State) : Out State :=
  issue (.bcopy a g) s (fun c s1 =>
    let d := (c.sget a.toNat).toNat
    if c.part = 0 then c.advance s1 else
    match c.copyWait with
    | some w => c.retryCopies s1 w id
    | none => c.readDesc s1 d 0 (fun t l => t.checkDesc c.g l d) (fun s2 lane =>
    match s1.copyDesc c.g lane d with
    | .error f => c.failLane s2 lane f
    | .ok (src, dst, w, rsv) =>
      let n := bits w 31 0
      if rsv ≠ 0 ∨ !copySizeOk n then c.illegalLane s2 lane else
      match s1.checkCopy c.g lane src dst n (bits w 63 32) with
      | .error f => c.failCopy s2 lane src dst n f
      | .ok p => c.tryCopies (s2.useFree 1) n src dst [p] id))

/-- The generic address of an offset of a core's scratchpad (05 R85). -/
def scrBase (g : Group) (off : Nat) : Nat := 0xFE00000000000000 + g.core * 2 ^ 24 + off

/-- BCAST (22 R317). A task or a call-out group has no scratchpad for its targets: SPACE_RANGE. -/
def execBcast (a : BitVec 6) (g : BitVec 4) (s : State) : Out State :=
  issue (.bcast a g) s (fun c s1 =>
    let d := (c.sget a.toNat).toNat
    if c.part = 0 then c.advance s1 else
    match c.copyWait with
    | some w => c.retryCopies s1 w id
    | none => c.readDesc s1 d 0 (fun t l => t.checkDesc c.g l d) (fun s2 lane =>
    match s1.copyDesc c.g lane d with
    | .error f => c.failLane s2 lane f
    | .ok (src, off, w, rsv) =>
      let n := bits w 31 0
      if rsv ≠ 0 ∨ bits off 63 24 ≠ 0 ∨ !copySizeOk n then c.illegalLane s2 lane else
      match s1.checkCast c.g lane src off n (bits w 63 32) with
      | .error f => c.failCopy s2 lane src (scrBase c.g off) n f
      | .ok ps => c.tryCopies (s2.useFree 1) n src 0 ps id))

/-- STAGE (09 R180, R181). -/
def execStage (g : BitVec 4) (s : State) : Out State :=
  issue (.stage g) s (fun c s1 =>
    let gr := s1.gridOf c.g
    let t := s1.teamOf c.g
    if c.part = 0 then c.advance s1
    else if c.g.kind ≠ .team ∨ gr.r.schedp = 0 then c.illegal s1 c.part else
    let counted (s3 : State) : State := s3.count .stageIssued (dieOfCore c.g.core) 1
    match c.copyWait with
    | some w => c.retryCopies s1 w counted
    | none =>
    let k := match c.prev with | some w => w.tried.getD 1 0 | none => t.cursor
    let s2 := if c.prev.isSome then s1 else s1.modTeam c.g.team (fun x => { x with cursor := x.cursor + 1 })
    let ea := add64 gr.r.schedp (0x20 + 32 * (k % gr.cs.n))
    c.readDesc s2 ea k (fun t l => (t.precheckRange c.g l ea 32).or (match t.checkRange c.g l ea 32 .load with
        | .error f => some f | .ok _ => none)) (fun s3 lane =>
      match s2.readBlock c.g lane ea 32 with
      | .error f => c.failLane s3 lane f
      | .ok segs =>
        let w := fromLe (s2.segBytes segs)
        let n := bits w 127 96
        let off := bits w 95 64
        let src := (bits w 63 0 + t.index * gr.cs.teamStride + k / gr.cs.n * gr.cs.roundStride) % 2 ^ 64
        if bits w 255 160 ≠ 0 ∨ !copySizeOk n ∨ 786432 < n then c.illegalLane s3 lane
        else if src % 16 = 0 ∧ off % 16 = 0 ∧ !notLocal src ∧ t.scr < off + n ∧ (s2.precheckRange c.g lane src n).isNone then
          c.failLane s3 lane { code := cRange, addr := off, detail := 0 }
        else match s2.checkCopy c.g lane src (scrBase c.g off) n (bits w 159 128) with
          | .error f => c.failCopy s3 lane src (scrBase c.g off) n f
          | .ok p => c.tryCopies (s3.useFree 1) n src 0 [p] counted))

/-- LDA's checks of a lane (24 R350). -/
def State.checkLda (s : State) (g : Group) (lane dst src : Nat) : Except FaultInfo CopyPlan :=
  if windowOf dst = .prv then .error { code := cRange, addr := dst, detail := 0 }
  else if notLocal src then .error { code := cRange, addr := src, detail := 0 }
  else match (s.precheck g lane src 16 16).or (s.precheck g lane dst 16 16) with
  | some f => .error f
  | none =>
    match s.checkAddrBy (s.copyAcc g) g lane src 16 16 .load, s.checkAddrBy (s.copyAcc g) g lane dst 16 16 .store with
    | .error f, _ => .error f
    | _, .error f => .error f
    | .ok ls, .ok ld => .ok { src := segsOf s.env.freeCtr [(ls, 16)], dst := segsOf s.env.freeCtr [(ld, 16)], bitmap := none,
                              tags := s.runTags (s.copyAcc g) src 16 0 [(ls, 16)] ++ s.runTags (s.copyAcc g) dst 16 1 [(ld, 16)] }

/-- LDA: one copy of 16 bytes for each participating lane, without an entry or a grant (24 R350). -/
def execLda (d a : BitVec 7) (g : BitVec 4) (s : State) : Out State :=
  issue (.lda d a g) s (fun c s1 =>
    match perLane (fun l => s1.checkLda c.g l (c.g.wget d.toNat l).toNat (c.g.wget a.toNat l).toNat) (lanesOf c.part) with
    | .error (l, f) =>
      let s2 := c.lanesBelow (s1.copyAcc c.g) l (fun x => [(c.g.wget a.toNat x).toNat, (c.g.wget d.toNat x).toNat]) s1
      c.failCopy s2 l (c.g.wget a.toNat l).toNat (c.g.wget d.toNat l).toNat 16 f
    | .ok xs =>
      c.advance (xs.foldl (fun s2 q =>
        let s3 := (s2.touchRange c.g (c.g.wget a.toNat q.1).toNat 16).touchRange c.g (c.g.wget d.toNat q.1).toNat 16
        c.addCopy 0 16 s3 q.2) s1))

/-! ## Chunks (07 R140) -/

/-- The bytes a chunk writes: the source's now, or those kept; a destination byte that is a source byte too is undefined
(22 R318, log 20). -/
def State.chunkBytes (s : State) (c : Copy) (off n : Nat) : List Byte :=
  match c.cap with
  | none => s.segBytes (subSegs c.src off n)
  | some bs =>
    let keys := ((subSegs c.dst off n).map (fun q => (List.range q.len).map (keyAdd q.key))).flatten
    (keys.zip ((bs.drop off).take n)).zipIdx.map (fun q =>
      if c.src.any (fun a => overlaps a.key a.len q.1.1 1) then (Config.freeWord (s.env.freeCtr + q.2)).setWidth 8 else q.1.2)

/-- The sectors of `dst` that are written from poisoned bytes of `src`, piece for piece; poison as it stood in `old` (12 R231). -/
def taintedSectors (old : Memory) (src dst : List Seg) : List Nat :=
  let bytesOf (l : List Seg) : List Nat := (l.map (fun q => (List.range (q.len / 16)).map (fun i => keyAdd q.key (16 * i)))).flatten
  if old.poison.isEmpty then [] else
  sectorsOf (((bytesOf src).zip (bytesOf dst)).filterMap (fun q =>
    if (old.poisonAt q.1 16).isSome && !isAway q.2 then some { key := q.2, len := 16 } else none))

/-- Bytes written to segments for a copy or a drain: here, or sent to another part; a write to an unreachable part is discarded and
counted. -/
def State.writeRuns (s : State) (k : Ask) (owner : Nat × Nat) : List Seg → List Byte → State
  | [], _ => s
  | g :: t, bs =>
    let s1 :=
      if isAway g.key then
        if s.fab.unreachable.contains (awayPart g.key) then s.count .fabDroppedWrites 0 1
        else s.send (k.msg (awayPart g.key) 1 g.len [awayPa g.key, g.len, fromLe (bs.take g.len)] (some owner))
      else s.writeBytes g.key (bs.take g.len)
    State.writeRuns s1 k owner t (bs.drop g.len)

/-- The state with a copy changed; a copy of which nothing is left leaves (07 R138). -/
def State.setCopy (s : State) (c : Copy) : State :=
  let l := if c.left.isEmpty ∧ c.sent.isEmpty ∧ c.bits.isEmpty then s.eng.copies.filter (fun x => x.id != c.id)
    else s.eng.copies.map (fun x => if x.id = c.id then c else x)
  { s with eng := { s.eng with copies := l } }

/-- The state after an entry's last copy: its grant is given back; and its unit may now leave. -/
def State.closeEntry (s : State) (c : Copy) : State :=
  let s1 := if s.eng.copies.any (fun x => x.ent == c.ent) then s else s.dropGrant (.entry c.ent)
  s1.settleUnit c.gid

/-- The word of a chunk's bit. -/
def chunkWord (k chunk : Nat) : Nat := keyAdd k (8 * (chunk / 64))

/-- A chunk whose bytes have all been written: its bit is set by an OR, or kept back while the word is pinned; a copy that is done closes
its entry (04 R75, 07 R140). -/
def State.chunkDone (s : State) (c : Copy) (chunk : Nat) : State :=
  let held := match c.bitmap with | some k => s.pinned (chunkWord k chunk) 8 | none => false
  let c1 := { c with bits := if held then c.bits ++ [chunk] else c.bits.erase chunk }
  let s1 := match c.bitmap with
    | some k => if held then s else
      let w := chunkWord k chunk
      (s.combine w 8).writeMem w 8 (s.readMem w 8 ||| 2 ^ (chunk % 64))
    | none => s
  let s2 := s1.setCopy c1
  if s2.eng.copies.any (fun x => x.id == c.id) then s2 else s2.closeEntry c

/-- What a copy's engine asks of the memory system: the class of the copy's group (06 R104). -/
def State.copyAsk (s : State) (c : Copy) (write : Bool) : Ask :=
  let part := s.partOfCore c.core
  { part := part, requester := 448 + copyEngineOf c.core, cls := c.cls, stamp := s.stampOf part c.cls, write := write, carried := none }

/-- The requests of a unit for runs of memory, of this part and of others, whose answers are counted with them; each carries what the
entry of its page gives (06 R104, R111, R116; 14 R252, R264; log 16). -/
def State.askRuns (s : State) (k : Ask) (tags : List (Nat × Nat)) (l : List Seg) : State :=
  l.foldl (fun t q =>
    if isAway q.key then
      (if k.write then t else (t.send (k.msg (awayPart q.key) 0 0 [awayPa q.key, q.len])).countRx none q.len)
    else if q.key % 4 = 0 then
      t.requests (k.tagged ((tags.find? (fun e => e.1 == q.key / 4 / 4096 * 2 + k.write.toNat)).map (·.2))) (q.key / 4) q.len
    else t) s

/-- The pieces of runs that leave for other parts that can be reached. -/
def State.awayPieces (s : State) (l : List Seg) : List Nat :=
  (l.filter (fun q => isAway q.key && !s.fab.unreachable.contains (awayPart q.key))).map (fun q => awayPart q.key)

/-- COPY_CHUNK_WRITTEN: a chunk of up to 512 bytes is read and written, and its bit set once every byte has been written at its home; pinned
bytes hold it back, and so does a full channel to another part (01 R16; 04 R75; 07 R138, R140). -/
def execCopyChunkWritten (copy chunk : Nat) (s : State) : Out State :=
  match s.eng.copies.find? (fun c => c.id == copy) with
  | none => .next s
  | some c =>
    let off := 512 * chunk
    let n := min 512 (c.n - off)
    let src := subSegs c.src off n
    let dst := subSegs c.dst off n
    let held := match s.groups.get? c.gid with | some g => !s.active (s.gridOf g) | none => false
    if held then .next s
    else if c.bits.contains chunk then .next (s.chunkDone c chunk)
    else if !c.left.contains chunk || s.storesBefore c.gid c.id || dst.any (fun q => s.pinned q.key q.len) then .next s
    else if (src ++ dst).any (fun q => isAway q.key) && (!s.channelOpen 0 || s.stalledBy c.id 32) then .next s else
    let s0 := ((s.combineRuns src).combineRuns dst).askRuns (s.copyAsk c false) c.tags src
    let s1 := ((s0.askRuns (s.copyAsk c true) c.tags dst).writeRuns (s.copyAsk c true) (c.id, 32) dst (s0.chunkBytes c off n)).useFree
      (if c.cap.isSome then n else 0)
    let s2 := s1.poisonSectors (s.partOfCore c.core) (taintedSectors s.mem src dst)
    let s3 := if c.ent = 0 then s2 else s2.count .copyBytes (copyEngineOf c.core) n
    let out := s.awayPieces dst
    let c1 := { c with
      left := c.left.erase chunk
      sent := c.sent ++ out.map (fun p => (chunk, p)) }
    .next (if out.isEmpty then s3.chunkDone c1 chunk else s3.setCopy c1)

/-- Every piece of a group's copies that other parts still have to acknowledge: copy, chunk, part. -/
def State.copyPieces (s : State) (gid : Nat) : List (Nat × Nat × Nat) :=
  ((s.eng.copies.filter (fun c => c.gid == gid)).map (fun c => c.sent.map (fun q => (c.id, q.1, q.2)))).flatten

/-- A piece of a copy has been written at its home, or discarded: after a chunk's last, the chunk is written (07 R138, R140). -/
def State.pieceDone (s : State) (q : Nat × Nat × Nat) : State :=
  match s.eng.copies.find? (fun c => c.id == q.1) with
  | none => s
  | some c =>
    let c1 := { c with sent := c.sent.erase q.2 }
    if c1.sent.any (fun x => x.1 == q.2.1) then s.setCopy c1 else s.chunkDone c1 q.2.1

end Sys2Proof.Machine
end

