-- ==== Sys2Proof/Machine/Sync.lean ====
section
/-! DEFINITION. Barriers, monitors, batches, chunk words, the baton, roles, safe points and rings (02 R35 to R38, R44;
07 R139 to R141; 08 R159 to R163; 09 R177, R178; 22 R314; 24 R354; 25 R362, R370, R371, R374). -/
namespace Sys2Proof.Machine

/-! ## Waiting for every lane -/

/-- Every live lane of the group is at this instruction: those issuing now, and those that wait at it. -/
def ICtx.allHere (c : ICtx) : Bool :=
  let here := c.g.waits.foldl (fun m w => if w.pc = c.pc ∧ w.why = .gather then m ||| w.lanes else m) c.lanes
  c.g.live &&& ~~~here == 0

/-- An instruction for the whole group: its lanes wait until every live lane is at it; the last issue acts for all. -/
def ICtx.whole (c : ICtx) (s : State) (k : ICtx → State → State) : State :=
  if c.lanes = c.g.live then k c s
  else if c.allHere then
    let g := { c.g with waits := c.g.waits.filter (fun w => !(w.pc == c.pc && w.why == .gather)) }
    k { c with g := g, lanes := c.g.live } (s.setGroup c.gid g)
  else c.waitFor s c.lanes .gather

/-! ## Barriers (08 R161) -/

/-- The checks of 22 R314 on a barrier form of a level. -/
def ICtx.barCheck (c : ICtx) (s : State) (level n : Nat) (k : State) : State :=
  if level ≠ 0 ∧ c.g.kind ≠ .team then c.illegal s c.lanes
  else if 2 ≤ level ∧ (s.gridOf c.g).r.coRes = false then
    c.fail s c.lanes { code := cGridBar, addr := 0, detail := level + 4 * n }
  else k

/-- The scope of a barrier's release is POD: BAR.GRID of a grid of several parts (07 R130). -/
def State.barPod (s : State) (g : Group) (level : Nat) : Bool := level == 3 && (s.gridOf g).r.pod

/-- BAR: releases, arrives and waits for its phase; in a task or call-out group the phase completes at once (22 R314). -/
def execBar (l : BitVec 2) (n : BitVec 3) (s : State) : Out State :=
  issue (.bar l n) s (fun c s1 => c.barCheck s1 l.toNat n.toNat (c.whole s1 (fun d s2 =>
    d.released s2 d.lanes (s2.barPod d.g l.toNat) (
      if d.g.kind ≠ .team then d.advance s2 else
      let p := (s2.getBar l.toNat d.g.grid (s2.barOwner d.g l.toNat) n.toNat).phase
      (d.waitFor s2 d.lanes (.barDepart l.toNat n.toNat p)).arriveBar d.gid d.g l.toNat n.toNat))))

/-- BARARR: releases and arrives without waiting for its phase; waits only for its own previous phase. -/
def execBararr (l : BitVec 2) (n : BitVec 3) (s : State) : Out State :=
  issue (.bararr l n) s (fun c s1 => c.barCheck s1 l.toNat n.toNat (c.whole s1 (fun d s2 =>
    if d.g.kind ≠ .team then d.released s2 d.lanes false (d.advance s2) else
    match s2.openArrival d.g l.toNat n.toNat with
    | some p => d.waitFor s2 d.lanes (.barArr l.toNat n.toNat p)
    | none => d.released s2 d.lanes (s2.barPod d.g l.toNat) ((d.advance s2).arriveBar d.gid d.g l.toNat n.toNat))))

/-- BARWT: waits for the phase of the group's last arrival. -/
def execBarwt (l : BitVec 2) (n : BitVec 3) (s : State) : Out State :=
  issue (.barwt l n) s (fun c s1 => c.barCheck s1 l.toNat n.toNat (
    match s1.openArrival c.g l.toNat n.toNat with
    | some p => c.waitFor s1 c.lanes (.barwt l.toNat n.toNat p)
    | none => c.advance s1))

/-- BARWT.REMOTE: waits for set size - 1 arrivals and takes them. -/
def execBarwtRemote (n : BitVec 2) (s : State) : Out State :=
  issue (.barwtRemote n) s (fun c s1 =>
    if c.g.kind ≠ .team then c.illegal s1 c.lanes else
    let t := s1.teamOf c.g
    let k := (s1.gridOf c.g).setSize t.index - 1
    if k ≤ t.remote.getD n.toNat 0 then
      c.advance (s1.modTeam c.g.team (fun x => { x with remote := x.remote.set n.toNat (x.remote.getD n.toNat 0 - k) }))
    else c.waitFor s1 c.lanes (.remote n.toNat))

/-- RARRIVE: raises a remote count of the set's team on a core of the cluster; SPACE_FOREIGN when there is none (25 R362). -/
def execRarrive (k n : BitVec 2) (s : State) : Out State :=
  issue (.rarrive k n) s (fun c s1 =>
    if c.g.kind ≠ .team then c.illegal s1 c.lanes else
    match s1.setTeamOn c.g.grid (s1.barOwner c.g 1) (c.g.core / 4 * 4 + k.toNat) with
    | none => if c.prev.isSome then c.advance s1 else c.fail s1 c.lanes { code := cForeign, addr := 0, detail := c.g.core }
    | some u =>
      if ((s1.teams.get? u).getD noTeam).remote.getD n.toNat 0 = 65535 then c.waitFor s1 c.lanes (.full u n.toNat)
      else c.released s1 c.lanes false <| c.advance (s1.modTeam u (fun x => { x with remote := x.remote.set n.toNat (x.remote.getD n.toNat 0 + 1) })))

/-! ## Monitors (07 R141, 24 R354) -/

/-- MONITOR: arms the group's monitor on a local word. -/
def execMonitor (a : BitVec 6) (g : BitVec 4) (s : State) : Out State :=
  issue (.monitor a g) s (fun c s1 =>
    let va := (c.sget a.toNat).toNat
    let lane := lowLane c.part
    let remote : Bool := match s1.leafFor (s1.accOf c.g) va with
      | some l => decide (windowOf va = .glb) && canonical va && va % 8 == 0 && isRemote l.pte && coh l.pte == 1 && decide (homeF l.pte ≤ 1)
      | none => false
    if c.part = 0 then c.advance s1
    else if windowOf va = .prv then c.fail s1 c.part { code := cRange, addr := va, detail := 0 }
    else if remote then
      c.fail s1 c.part { code := cRemote, addr := va, detail := ((s1.leafFor (s1.accOf c.g) va).map (fun (l : Leaf) => bits l.pte 63 52)).getD 0 }
    else match s1.checkAddr c.g lane va 8 8 .load with
      | .ok (.here k) =>
        match s1.mem.poisonAt k 8 with
        | some p => c.fail s1 c.part (eccAt va p)
        | none =>
          let s2 := (s1.access c.g va 8 (.here k) false).combine k 8
          (c.advance s2).modGroup c.gid (fun r => { r with monitor := some (va, k, BitVec.ofNat 64 (s1.readMem k 8)) })
      | .ok (.away _ _) => c.advance s1
      | .error f => c.fail s1 c.part f)

/-- A value of the monitored word ends an MWAIT with a mask: it differs from the one armed, or it has every bit of the mask (07 R141). -/
def wordMeets (armed m x : Nat) : Bool := if m = 0 then x != armed else x &&& m == m

/-- The condition of MWAIT with a mask (07 R141). -/
def State.monitorMet (s : State) (g : Group) (m : Nat) : Bool :=
  match g.monitor with
  | none => true
  | some (_, k, armed) =>
    wordMeets armed.toNat m (s.readMem k 8)

/-- The state after the monitored word has been read: partials there are combined (07 R133). -/
def State.readMonitor (s : State) (g : Group) : State :=
  match g.monitor with
  | some (_, k, _) => s.combine k 8
  | none => s

/-- MWAIT: returns when no monitor is set, its condition holds or a pre-emption request is pending; else waits. -/
def execMwait (d : BitVec 6) (g : BitVec 4) (s : State) : Out State :=
  issue (.mwait d g) s (fun c s1 =>
    let m := (c.sget d.toNat).toNat
    if c.part = 0 then c.advance s1
    else if s1.monitorMet c.g m ∨ s1.preempting c.g then c.advance (s1.readMonitor c.g)
    else c.waitFor (s1.readMonitor c.g) c.part (.mwait m))

/-! ## Batches and chunk words (07 R138 to R141) -/

/-- Bytes of a copy have still to be written at their home (07 R138). -/
def Copy.unwritten (c : Copy) : Bool := !c.left.isEmpty || !c.sent.isEmpty

/-- The sealed batches of a group that are not complete. -/
def State.openBatches (s : State) (gid : Nat) (g : Group) : List Nat :=
  ((s.eng.copies.filter (fun c => c.gid == gid && decide (c.batch < g.sealSeq) && c.unwritten)).map (·.batch)).eraseDups

/-- The number after a batch number (07 R138). -/
def nextBatch (n : Nat) : Nat := if n + 1 = 2 ^ 32 then 1 else n + 1

/-- BATSEAL: closes the open batch and returns its number; a wait for one of the 16 holds the whole path (07 R139, 22 R315). -/
def execBatseal (d : BitVec 6) (g : BitVec 4) (s : State) : Out State :=
  issue (.batseal d g) s (fun c s1 =>
    if c.part = 0 then c.advance s1
    else if 16 ≤ (s1.openBatches c.gid c.g).length then
      let s2 := if c.firstWait (.batch 0) then s1.count .copyBatchStall (dieOfCore c.g.core) 1 else s1
      c.waitAll s2 (.batch 0) id
    else
      let n := nextBatch c.g.lastBatch
      if c.g.stackOk d.toNat (BitVec.ofNat 64 n) then
        c.step s1 (fun r => { r.sset d.toNat (BitVec.ofNat 64 n) with lastBatch := n, sealSeq := r.sealSeq + 1 })
      else c.fail s1 c.part { code := cStack, addr := n, detail := 0 })

/-- How many seals of a group a BATWAIT of a number waits for: every batch sealed before this count (07 R139). -/
def Group.waitSeals (g : Group) (n : Nat) : Nat :=
  if n = 0 ∨ g.lastBatch = 0 then 0 else
  let k := (g.lastBatch + (2 ^ 32 - 1) - n % (2 ^ 32 - 1)) % (2 ^ 32 - 1)
  g.sealSeq - (if 2 ^ 31 ≤ k then 0 else k)

/-- Every batch of a group sealed before a count is complete. -/
def State.batchesDone (s : State) (gid upTo : Nat) : Bool := s.eng.copies.all (fun c => c.gid != gid || decide (upTo ≤ c.batch) || !c.unwritten)

/-- BATWAIT: the whole path waits (07 R139, 22 R315). -/
def execBatwait (a : BitVec 6) (g : BitVec 4) (s : State) : Out State :=
  issue (.batwait a g) s (fun c s1 =>
    let k := c.g.waitSeals (bits (c.sget a.toNat).toNat 31 0)
    if c.part = 0 ∨ c.prev.isSome ∨ s1.batchesDone c.gid k then c.advance s1 else c.waitAll s1 (.batch k) id)

/-- CHWAIT: bits of a scratchpad word; a wait ends once they have all stood there together (07 R141). -/
def execChwait (d a : BitVec 6) (g : BitVec 4) (s : State) : Out State :=
  issue (.chwait d a g) s (fun c s1 =>
    let va := (c.sget a.toNat).toNat
    let m := (c.sget d.toNat).toNat
    if c.part = 0 ∨ c.prev.isSome then c.advance s1
    else if windowOf va ≠ .scr then c.fail s1 c.part { code := cRange, addr := va, detail := 0 }
    else match s1.checkAddr c.g (lowLane c.part) va 8 8 .load with
      | .error f => c.fail s1 c.part f
      | .ok l =>
        let k := l.key 0
        match s1.mem.poisonAt k 8 with
        | some p => c.fail s1 c.part (eccAt va p)
        | none =>
          if s1.readMem k 8 &&& m = m then c.advance (s1.combine k 8) else c.waitFor (s1.combine k 8) c.part (.words k m))

/-! ## The baton, roles and safe points (02 R35 to R38, R44) -/

/-- BTAKE: takes the free baton, or waits in the team's order. -/
def execBtake (s : State) : Out State :=
  issue .btake s (fun c s1 =>
    let t := s1.teamOf c.g
    if c.g.kind ≠ .team then c.illegal s1 c.lanes
    else if t.holder = some c.gid then c.advance s1
    else if t.holder = none ∧ t.batonQ = [] then c.advance (s1.modTeam c.g.team (fun x => { x with holder := some c.gid }))
    else
      (c.waitFor s1 c.lanes .btake).modTeam c.g.team (fun x =>
        if x.batonQ.contains c.gid then x else { x with batonQ := x.batonQ ++ [c.gid] }))

/-- The group does not hold its team's baton; a task or call-out group never does (24 R357). -/
def State.noBaton (s : State) (gid : Nat) (g : Group) : Bool := g.kind != .team || (s.teamOf g).holder != some gid

/-- BGIVE: frees the baton once the group's earlier engine work is accepted. That the group holds it is checked once, before the wait;
where another path of the group has freed it meanwhile, nothing is left to free (02 R37). -/
def execBgive (s : State) : Out State :=
  issue .bgive s (fun c s1 =>
    if c.prev.isNone ∧ s1.noBaton c.gid c.g then c.fail s1 c.lanes { code := cBaton, addr := 0, detail := 0x3C }
    else if c.g.waits.any (fun w => w.why.isMx && decide (w.seq < c.seqFor s1))
    then c.waitFor s1 c.lanes .given
    else c.advance (s1.modTeam c.g.team (fun x => { x with
      holder := if x.holder = some c.gid then none else x.holder
      fed := if x.holder = some c.gid then false else x.fed })))

/-- The entry of a role (02 R42). -/
def Hdr.entry (h : Hdr) : Role → Nat | .loader => h.eL | .compute => h.eC | .storer => h.eS

/-- A ring's counters. -/
def Team.ring (t : Team) (n : Nat) : Ring := t.rings.getD n { put := 0, get := 0 }
/-- Occupancy, modulo 2^32. -/
def Ring.occ (r : Ring) : Nat := (r.put + 2 ^ 32 - r.get) % 2 ^ 32

/-- The occupancy of a team's watched ring is below LOW (09 R179). -/
def Grid.ringLow (g : Grid) (t : Team) : Bool := decide ((t.ring (bits g.r.ring 2 0)).occ < bits g.r.ring 15 8)
/-- It is at or above HIGH. Where HIGH lies below LOW, both hold at once. -/
def Grid.ringHigh (g : Grid) (t : Team) : Bool := decide (bits g.r.ring 23 16 ≤ (t.ring (bits g.r.ring 2 0)).occ)

/-- Since when a condition has held, at a time at which it holds or not. -/
def holdsSince (holds : Bool) (since : Option Nat) (now : Nat) : Option Nat := if holds then some (since.getD now) else none

/-- A team's windows after its rings have changed: since when the watched ring has met each condition (09 R179). -/
def Team.watch (t : Team) (g : Grid) (now : Nat) : Team :=
  { t with
    lowSince := holdsSince (g.ringLow t) t.lowSince now
    highSince := holdsSince (g.ringHigh t) t.highSince now }

/-- A team's windows begin again, when a posted change takes effect. -/
def Team.rewatch (t : Team) (now : Nat) : Team :=
  { t with
    lowSince := t.lowSince.map (fun _ => now)
    highSince := t.highSince.map (fun _ => now) }

/-- A group after a role change: v8 up and p1 to p7 become 0, whole, so that their poison is gone too (02 R36, 12 R231). FPMODE, SCENE and
the monitor, of which no rule speaks here, stay as they are (DESIGN CHOICE, log 106). -/
def Group.toRole (g : Group) (gr : Grid) (r : Role) : Group :=
  { g with
    role := r
    budget := gr.budget r
    v := g.v.filter (fun e => decide (e.1 < 256))
    p := []
    poison := g.poison.filter (fun r => decide (r < 8) || (decide (256 ≤ r) && decide (r < 320)))
    pcs := (lanesOf g.live).foldl (fun m l => m.put l (gr.h.entry r % 2 ^ 32) 0) g.pcs }

/-- ROLE and ROLE.OFFER after the waits: the role asked for, or the posted one (02 R37). -/
def ICtx.changeRole (c : ICtx) (s : State) (want : Option Role) (offer : Bool) : State :=
  match want with
  | none => c.advance s
  | some r =>
    let s1 := if offer then
        (s.modGroup c.gid (fun g => { g with posted := none })).modTeam c.g.team (fun t => t.rewatch s.env.cycle)
      else s
    if r = c.g.role then c.advance s1 else s1.modGroup c.gid (fun g => g.toRole (s.gridOf c.g) r)

/-- The role a ROLE field names (02 R37). -/
def roleOf (n : Nat) : Role := match n with | 1 => .loader | 2 => .compute | _ => .storer

/-- ROLE.OFFER: takes a posted role change (02 R36, R37). -/
def execRoleOffer (s : State) : Out State :=
  issue .roleOffer s (fun c s1 =>
    if c.g.kind ≠ .team then c.illegal s1 c.lanes else
    c.whole s1 (fun d s2 =>
      if d.g.pend.isEmpty then d.changeRole s2 d.g.posted true else d.waitFor s2 d.lanes .landed))

/-- ROLE: changes to the named role; a team without roles has COMPUTE alone (02 R35, R37). -/
def execRole (r : BitVec 2) (s : State) : Out State :=
  issue (.role r) s (fun c s1 =>
    if c.g.kind ≠ .team ∨ ((s1.gridOf c.g).h.roles = false ∧ r ≠ 2) then c.illegal s1 c.lanes else
    c.whole s1 (fun d s2 =>
      if d.g.pend.isEmpty then d.changeRole s2 (some (roleOf r.toNat)) false else d.waitFor s2 d.lanes .landed))

/-- SAFEPT: a killed grid's group ends; under a pending request the lanes wait; else no effect (02 R37, R44, 08 R158). -/
def execSafept (n : BitVec 7) (s : State) : Out State :=
  issue (.safept n) s (fun c s1 =>
    if (s1.gridOf c.g).killed then s1.endUnit c.gid none
    else if s1.preempting c.g ∧ c.g.place = .resident then c.waitFor s1 c.lanes .site
    else c.advance s1)

/-! ## Rings (09 R177, R178) -/

/-- A ring's descriptor: BASE and COUNT (09 R177). -/
def State.ringDesc (s : State) (t : Team) (n : Nat) : Nat × Nat :=
  (s.readMem (scrKey t.scrId (16 * n)) 4, s.readMem (scrKey t.scrId (16 * n + 4)) 2)

/-- The checks of RINGPUT and RINGGET, then their wait; `k` acts when the ring allows it (09 R178, 25 R370). -/
def ringOp (i : Instr) (put : Bool) (d p n : Nat) (s : State) (k : ICtx → State → Nat → Nat → Ring → State) : Out State :=
  let _ := d
  issue i s (fun c s1 =>
    let t := s1.teamOf c.g
    let q := match c.prev with
      | some w => (w.tried.getD 0 0, w.tried.getD 1 0)
      | none => s1.ringDesc t n
    let again := c.prev.isSome
    let s2 := if again then s1 else s1.combine (scrKey t.scrId (16 * n)) 8
    if c.part = 0 then c.advance s1
    else if c.g.kind ≠ .team then c.illegal s1 c.part
    else match if again then none else s1.mem.poisonAt (scrKey t.scrId (16 * n)) 8 with
    | some pl => c.fail s1 c.part (eccAt (0xFE00000000000000 + c.g.core * 2 ^ 24 + 16 * n) pl)
    | none =>
    if !again && (decide (q.2 < 2) || decide (1024 < q.2) || q.1 % 128 != 0) then c.illegal s2 c.part
    else if !again && decide (t.scr < q.1 + 128 * q.2) then c.fail s2 c.part { code := cRange, addr := q.1, detail := 0 }
    else if (if put then decide ((t.ring n).occ < q.2) else decide (0 < (t.ring n).occ)) then k c s2 q.1 q.2 (t.ring n)
    else if c.g.posted.isSome ∨ s2.preempting c.g then c.step s2 (fun r => r.pset p c.part 0)
    else c.waitWith s2 c.part (.ring n put) (fun w => { w with tried := [q.1, q.2] }))

/-- A team's ring counters set and mirrored into the descriptor (09 R177). -/
def State.setRing (s : State) (team : Nat) (n : Nat) (r : Ring) : State :=
  let t := (s.teams.get? team).getD noTeam
  (((s.setTeam team ({ t with rings := t.rings.set n r }.watch (s.teamGrid t) s.env.cycle)).combine (scrKey t.scrId (16 * n + 8)) 8).writeMem (scrKey t.scrId (16 * n + 8)) 4 r.put).writeMem
    (scrKey t.scrId (16 * n + 12)) 4 r.get

/-- RINGPUT (09 R178). -/
def execRingput (d : BitVec 7) (p n : BitVec 3) (g : BitVec 4) (s : State) : Out State :=
  ringOp (.ringput d p n g) true d.toNat p.toNat n.toNat s (fun c s1 base cnt r =>
    let t := s1.teamOf c.g
    let key := scrKey t.scrId (base + 128 * (r.put % cnt))
    let keep (w : Wait) : Wait := { w with tried := [base, cnt] }
    if s1.pinned key 128 then c.waitWith s1 c.part (.pin [{ key := key, len := 128 }]) keep
    else if c.g.unperformed c.part false then c.waitWith s1 c.part (.fence false) keep else
    let s2 := (List.range 32).foldl (fun s' l => s'.writeMem (keyAdd key (4 * l)) 4
      (if c.part.getLsbD l then (c.g.vget d.toNat l).toNat else 0)) (s1.combine key 128)
    c.step (s2.setRing c.g.team n.toNat { r with put := (r.put + 1) % 2 ^ 32 }) (fun x => x.pset p.toNat c.part (BitVec.allOnes 32)))

/-- RINGGET (09 R178). -/
def execRingget (d : BitVec 7) (p n : BitVec 3) (g : BitVec 4) (s : State) : Out State :=
  ringOp (.ringget d p n g) false d.toNat p.toNat n.toNat s (fun c s1 base cnt r =>
    let t := s1.teamOf c.g
    let key := scrKey t.scrId (base + 128 * (r.get % cnt))
    let s2 := s1.combine key 128
    match (lanesOf c.part).find? (fun l => (s1.mem.poisonAt (keyAdd key (4 * l)) 4).isSome) with
    | some l => c.failLane s2 l (eccAt (0xFE00000000000000 + c.g.core * 2 ^ 24 + base + 128 * (r.get % cnt) + 4 * l) 3)
    | none =>
    c.step (s2.setRing c.g.team n.toNat { r with get := (r.get + 1) % 2 ^ 32 }) (fun x =>
      (x.vsetBy c.part d.toNat (fun l => BitVec.ofNat 32 (s1.readMem (keyAdd key (4 * l)) 4))).pset p.toNat c.part (BitVec.allOnes 32)))

/-! ## Events of this family -/

/-- BATON_HANDOVER: the longest-waiting BTAKE of a team takes the free baton (02 R37). -/
def execBatonHandover (team : Nat) (s : State) : Out State :=
  match s.teams.get? team with
  | none => .next s
  | some t =>
    match t.holder, t.batonQ with
    | none, q :: rest =>
      .next ((s.setTeam team { t with holder := some q, batonQ := rest }).modGroup q (fun g => g.release (fun w => w.why == .btake)))
    | _, _ => .next s

/-- MWAIT_RETURN: a waiting group's condition holds, or a pre-emption request is pending (07 R141). -/
def execMwaitReturn (gid : Nat) (s : State) : Out State :=
  match s.groups.get? gid with
  | none => .next s
  | some g =>
    if g.place ≠ .resident then .next s else
    let met (w : Wait) : Bool := match w.why with | .mwait m => w.met || s.monitorMet g m || s.preempting g | _ => false
    .next (s.setGroup gid (g.release met))

/-- BARRIER_TOKEN: a token that the switches forward for a phase of a GRID barrier: the count of the parts that it stands for, and their
numbers with the times of their arrivals (08 R160, R162; 14 R261). -/
def execBarrierToken (id level n phase count : Nat) (times : List (Nat × Nat)) (s : State) : Out State :=
  if level ≠ 3 ∨ 4 ≤ n then .next s else
  match s.grids.get? id with
  | none => .next s
  | some g =>
    let b := s.getBar 3 id 0 n
    if !g.r.pod ∨ phase < b.phase ∨ count = 0 then .next s
    else .next (((s.countRx none 56).setBar 3 id 0 n { b with
      tokens := b.tokens ++ times.map (fun t => (t.1, phase, t.2))
      got := b.got ++ [(phase, count)] }).pushTokens id)

/-- Saturation of a count. -/
def satAt (m n : Nat) : Nat := if m < n then m else n

/-- The straggler entries of a level after a phase (08 R163): `arr` holds the arrival time of each member, in order. -/
def stragglers (old : Store Nat) (arr : List Nat) (streak lag : Nat) : Store Nat :=
  let first := arr.foldl min (arr.headD 0)
  let late := maxOf arr
  let z := (arr.findIdx? (· == late)).getD 0
  arr.zipIdx.foldl (fun m q =>
    let l := q.1 - first
    let st := if q.2 = z ∧ lag < l then satAt 0xFFFF (bits (old.getD q.2 0) 47 32 + 1) else 0
    m.set q.2 (satAt 0xFFFFFFFF l + st * 2 ^ 32 + (if streak ≠ 0 ∧ streak ≤ st then 2 ^ 48 else 0))) old

/-- The arrival time of a member: the last of its groups; the first arrival of a member for one without groups (08 R162). -/
def memberTime (ts : List Nat) (first : Nat) : Nat := if ts.isEmpty then first else maxOf ts

/-- The straggler data of a grid after a PART or GRID phase, written to its record when it has one (08 R162, R163). -/
def State.noteStraggler (s : State) (id level : Nat) (b : Bar) : State :=
  match s.grids.get? id with
  | none => s
  | some g =>
    let a := g.acc id
    let n := if g.r.pod then g.r.partCount else 1
    let own := b.arr.map (·.2.2)
    if level = 2 then
      let ofDie (d : Nat) : List Nat := (b.arr.filter (fun x => x.2.1 == d)).map (·.2.2)
      let there := ((List.range 4).filter (fun d => !(ofDie d).isEmpty)).map (fun d => maxOf (ofDie d))
      let first := there.foldl min (there.headD 0)
      let dies := (List.range 4).map (fun d => memberTime (ofDie d) first)
      let part := stragglers g.strag.part dies g.r.streak g.r.lag
      let s1 := s.modGrid id (fun x => { x with strag := { x.strag with part := part, partPhases := x.strag.partPhases + 1 } })
      if g.r.strag = 0 then s1 else
      let s2 := ((List.range 4).filter (fun d => s.weight g.part d != 0)).foldl (fun s' d =>
        s'.lateWrite a (add64 g.r.strag (0x40 + 8 * n + 8 * (4 * g.member + d))) 8 (part.getD d 0)) s1
      s2.lateAdd a (add64 g.r.strag 0x18) 1
    else
      let times := (List.range n).map (fun i =>
        let p := if g.r.pod then g.r.firstPart + i else s.self
        if p = s.self ∧ !b.arr.isEmpty then some (maxOf own)
        else ((b.tokens.find? (fun t => t.1 == p && t.2.1 == b.phase)).map (·.2.2)).bind (fun t => if t = 0 then none else some t))
      let first := (times.filterMap (fun x => x)).foldl min ((times.filterMap (fun x => x)).headD 0)
      let grid := stragglers g.strag.grid (times.map (·.getD first)) g.r.streak g.r.lag
      let s1 := s.modGrid id (fun x =>
        { x with
          strag := { x.strag with grid := grid, gridPhases := x.strag.gridPhases + 1, firstArr := first }
          spent := x.spent.filter (fun i => bit (grid.getD i 0) 48) })
      if g.r.strag = 0 ∨ !g.launcher then s1 else
      let s2 := (List.range n).foldl (fun s' i => s'.lateWrite a (add64 g.r.strag (0x40 + 8 * i)) 8 (grid.getD i 0)) s1
      (s2.lateWrite a (add64 g.r.strag 4) 4 (g.strag.gridPhases + 1)).lateWrite a (add64 g.r.strag 0x10) 8 first

/-- BARRIER_PHASE_COMPLETE: the waiting groups depart and the next phase begins (08 R160, R161). -/
def execBarrierPhaseComplete (level grid owner n : Nat) (s : State) : Out State :=
  if 4 ≤ level ∨ !s.barDone level grid owner n then .next s else
  let b := s.getBar level grid owner n
  let s1 := s.setBar level grid owner n
    { phase := b.phase + 1, begun := s.podTime, came := false, arr := [], tokens := b.tokens.filter (fun t => decide (b.phase < t.2.1)),
      got := b.got.filter (fun t => decide (b.phase < t.1)) }
  let s2 := (s.barMembers level grid owner).foldl (fun s' e =>
    s'.modGroup e.1 (fun g => g.release (fun w => w.why == .barDepart level n b.phase))) s1
  let s3 := if 2 ≤ level then s2.noteStraggler grid level b else s2
  .next (if level = 3 then s3.pushTokens grid else s3)

end Sys2Proof.Machine
end

