-- ==== Sys2Proof/Machine/Matrix.lean ====
section
/-! DEFINITION. The matrix engine: operands, exact sums, chains, the epilogue (03 R63 to R66; 04 R67 to R84; 21 R304; 24 R357). -/
namespace Sys2Proof.Machine

/-! ## Exact sums (03 R63 to R66) -/

/-- The format of a floating operand code (04 R71). -/
def mxFmt (code : Nat) : Fmt := match code with | 0 => .f16 | 1 => .bf16 | 2 => .e4m3 | _ => .e5m2

/-- The integer of an I8 or I4 element (03 R50). -/
def mxInt (code w : Nat) : Int := if code = 4 then (BitVec.ofNat 8 w).toInt else (BitVec.ofNat 4 w).toInt

/-- A product scaled by block scales; none stands for the scale 1 (03 R66). -/
def mxScale (p : FVal) (a b : Option Nat) : FVal :=
  if a.isNone && b.isNone then p
  else if a = some 0xFF ∨ b = some 0xFF then .nan
  else match p with
    | .fin s m e =>
      let e1 := e + ((a.getD 127 : Nat) : Int) + ((b.getD 127 : Nat) : Int) - 254
      if m = 0 then p
      else if 128 ≤ (Nat.log2 m : Int) + e1 then .inf s
      else if (Nat.log2 m : Int) + e1 < -126 then unpack .f32 (roundDy .f32 .rne s (sgn s m) e1)
      else .fin s m e1
    | q => q

/-- The exact sum of an accumulator element and the terms of a k-step, rounded once (03 R63, R64). -/
def mxSum (acc : FVal) (ts : List FVal) : W32 :=
  let all := acc :: ts
  let pos := all.any (· == .inf false)
  let neg := all.any (· == .inf true)
  if all.any (· == .nan) ∨ (pos ∧ neg) then BitVec.ofNat 32 Fmt.f32.nan
  else if pos then BitVec.ofNat 32 (infOf .f32 false)
  else if neg then BitVec.ofNat 32 (infOf .f32 true)
  else
    let r := all.foldl (fun x v => match v with | .fin s m e => dyAdd x (sgn s m, e) | _ => x) (0, 0)
    let nz := all.all (fun v => match v with | .fin s m _ => s && m == 0 | _ => false)
    BitVec.ofNat 32 (roundDy .f32 .rne nz r.1 r.2)

/-! ## Operands (04 R70 to R75) -/

/-- Bits of an element (04 R72). -/
def elemBits (code : Nat) : Nat := if code ≤ 1 then 16 else if code = 5 then 4 else 8

/-- The elements that bytes hold (04 R72, 03 R50). -/
def elemsOf (code : Nat) (bs : List Byte) : List Nat :=
  let w := fromLe bs
  (List.range (8 * bs.length / elemBits code)).map (fun x => w / 2 ^ (elemBits code * x) % 2 ^ elemBits code)

/-- Rows of bytes at a stride, checked and translated one by one. A fault names the start of its row, or of the row's piece in the page that
fails; 04 R73 names no address (DESIGN CHOICE, log 98). -/
def State.rowRuns (s : State) (g : Group) (lane addr stride rows n : Nat) (k : AKind) : Except FaultInfo (List (List Seg)) :=
  (List.range rows).mapM (fun r => (s.checkRange g lane (add64 addr (r * stride)) n k).map (segsOf s.env.freeCtr))

/-- The rows of an operand, each `per` elements. -/
def State.operandRows (s : State) (g : Group) (lane addr stride rows per code : Nat) : Except FaultInfo (List (List Seg)) :=
  s.rowRuns g lane addr stride rows (per * elemBits code / 8) .load

/-- Rows transposed: element [i][k] of rows by k. -/
def transposeRows (rows : List (List Nat)) : List (List Nat) := (List.range 32).map (fun i => rows.map (·.getD i 0))

/-- The first poisoned unit of rows, as a fault at an address. -/
def State.rowsPoison (s : State) (addr stride : Nat) (rows : List (List Seg)) : Option FaultInfo :=
  rows.zipIdx.findSome? (fun r => r.1.findSome? (fun q => (s.mem.poisonAt q.key q.len).map (eccAt (add64 addr (r.2 * stride)))))

/-- MX_PARAM with the block's address and an offset or code (04 R73). -/
def mxParam (blk detail : Nat) : FaultInfo := { code := cMxParam, addr := blk, detail := detail }

/-- The byte that holds the lowest set bit of a number at a byte offset. -/
def lowByte (off w : Nat) : Nat := off + ((List.range 64).find? (fun i => bit w i)).getD 0 / 8

/-- An address in the scratchpad or global window, aligned. -/
def mxAddrOk (a align : Nat) : Bool := (decide (windowOf a = .scr) || decide (windowOf a = .glb)) && a % align == 0

/-- Words of 64 bits that bytes hold. -/
def wordsIn (n : Nat) (bs : List Byte) : List Nat := (List.range n).map (fun i => fromLe bs / 2 ^ (64 * i) % 2 ^ 64)

/-- The parameter block read: its eight doublewords (04 R70). -/
def State.mxBlock (s : State) (g : Group) (lane d : Nat) : Except FaultInfo (List Nat) :=
  if notLocal d then .error { code := cRange, addr := d, detail := 0 } else
  match s.precheck g lane d 64 64 with
  | some f => .error f
  | none => (s.readBlock g lane d 64).map (fun segs => wordsIn 8 (s.segBytes segs))

/-- The rows of an operand in memory: how many, and the bytes of each; under the transposition bit a row for each k (04 R72). -/
def operandShape (trans : Bool) (k code : Nat) : Nat × Nat :=
  if trans then (k, 32 * elemBits code / 8) else (32, k * elemBits code / 8)

/-- The bytes of operands that an MXISSUE reads, by its block: addresses and lengths. -/
def mxIssueReads (b : List Nat) : List (Nat × Nat) :=
  let w := b.getD 0 0
  let k := bits w 47 32
  let rows (addr stride : Nat) (sh : Nat × Nat) : List (Nat × Nat) := (List.range sh.1).map (fun r => (add64 addr (r * stride), sh.2))
  rows (b.getD 1 0) (bits (b.getD 2 0) 31 0) (operandShape (bit w 12) k (bits w 3 0)) ++
    rows (b.getD 3 0) (bits (b.getD 2 0) 63 32) (operandShape (!bit w 13) k (bits w 7 4))

/-- A tile number fails the check of 04 R73: T or T + 1 of an RZ pair beyond the allotment, or an odd T of a pair. -/
def tileBad (tiles t facc : Nat) : Bool := decide (tiles ≤ t) || (facc == 1 && (decide (tiles ≤ t + 1) || t % 2 == 1))

/-! ## The queue (04 R69) -/

/-- The instructions of a team that the engine has still to complete, in order. -/
def State.mxQueue (s : State) (team : Nat) : List MxOp := s.eng.ops.filter (fun o => o.team == team && !o.complete)

/-- Every instruction of a team accepted before a count has completed. -/
def State.mxDone (s : State) (team upTo : Nat) : Bool := (s.mxQueue team).all (fun o => decide (upTo ≤ o.seq))

/-- The engine has a free place for a team's baton: fewer than two teams that stand on its core have fed it (02 R38). -/
def State.batonFed (s : State) (t : Team) : Bool :=
  t.fed || decide ((s.teams.filter (fun e => e.2.core == t.core && e.2.fed && !e.2.saved && s.current (s.teamGrid e.2))).length < 2)

/-- The state with an instruction queued for a group's team, which has now fed the engine. -/
def State.mxPush (s : State) (gid : Nat) (g : Group) (kind : MxKind) (rows : List (Bool × List (List Seg))) (flag : Bool) (chain : Nat)
    (tags : List (Nat × Nat) := []) : State :=
  let t := s.teamOf g
  let o : MxOp := { seq := t.mxSeq, team := g.team, gid := gid, core := g.core, kind := kind, rows := rows, pinFlag := flag,
                    chain := chain, tainted := false, tags := tags }
  ({ s with eng := { s.eng with ops := s.eng.ops ++ [o] } }).modTeam g.team (fun x => { x with
    mxSeq := x.mxSeq + 1
    fed := true })

/-- An engine left without work is idle from now (04 R83). -/
def State.noteIdle (s : State) (core : Nat) : State :=
  if s.eng.working core then s else { s with eng := { s.eng with idle := s.eng.idle.set core s.env.cycle } }

/-- The state without an instruction of a team. -/
def State.mxDrop (s : State) (o : MxOp) : State :=
  { s with eng := { s.eng with ops := s.eng.ops.filter (fun x => !(x.team == o.team && x.seq == o.seq)) } }

/-- An instruction of a team completes and leaves. -/
def State.mxPop (s : State) (o : MxOp) : State := (s.mxDrop o).noteIdle o.core

/-- A word of a tile. -/
def State.tileGet (s : State) (t : Team) (tile i j : Nat) : W32 := BitVec.ofNat 32 (s.readMem (tileKey t.tileId tile i j) 4)
/-- The state with words of a tile set. -/
def State.tileSet (s : State) (t : Team) (tile : Nat) (xs : List (Nat × Nat × W32)) : State :=
  { s with mem := xs.foldl (fun m x => m.write (tileKey t.tileId tile x.1 x.2.1) 4 x.2.2.toNat) s.mem }
/-- Every element's row and column. -/
def tileCells : List (Nat × Nat) := ((List.range 32).map (fun i => (List.range 32).map (fun j => (i, j)))).flatten
/-- The state with a tile zeroed and its poison cleared (04 R77, R84). -/
def State.tileZero (s : State) (team tile : Nat) : State :=
  match s.teams.get? team with
  | none => s
  | some t => (s.tileSet t tile (tileCells.map (fun q => (q.1, q.2, 0)))).setTeam team
      { t with poisonCols := t.poisonCols.filter (fun c => c / 4 != tile) }
/-- A tile's four column groups poisoned. -/
def Team.poisonTile (t : Team) (tile : Nat) : Team :=
  { t with poisonCols := (t.poisonCols ++ (List.range 4).map (4 * tile + ·)).eraseDups }
/-- The state with a team's tile poisoned and counted (04 R84, 12 R232). -/
def State.poisonTile (s : State) (team tile : Nat) : State :=
  match s.teams.get? team with
  | none => s
  | some t =>
    let s1 := s.setTeam team (t.poisonTile tile)
    if (List.range 4).all (fun c => t.poisonCols.contains (4 * tile + c)) then s1 else s1.count .eccPoisoned (s.partOfCore t.core) 1

/-- An MXRD reaches the head: its registers' values, landing poisoned if its columns are (04 R78, R84). -/
def State.mxRead (s : State) (t : Team) (gid tile c d pend : Nat) (lanes : Mask) : State :=
  let ws := ((lanesOf lanes).map (fun l => (List.range 8).map (fun m => (d + m, l, s.tileGet t tile l (8 * c + m))))).flatten
  let bad := t.poisonCols.contains (4 * tile + c)
  s.modGroup gid (fun g => { g with pend := g.pend.map (fun p => if p.id = pend then
    { p with
      src := (if bad then .poisoned else .ready)
      writes := ws } else p) })

/-- Instructions other than issues and drains act as they reach the head of their team's queue (04 R69). -/
def State.mxFlow (s : State) (team : Nat) : Nat → State
  | 0 => s
  | f + 1 =>
    match s.teams.get? team, s.mxQueue team with
    | some t, o :: _ =>
      match o.kind with
      | .zero tile => ((s.tileZero team tile).mxPop o).mxFlow team f
      | .rd tile c d lanes pend => ((s.mxRead t o.gid tile c d pend lanes).mxPop o).mxFlow team f
      | .wr tile c lanes vals =>
        let s1 := s.tileSet t tile (vals.map (fun v => (v.1, 8 * c + v.2.1, v.2.2)))
        let s2 := if lanes = BitVec.allOnes 32 then s1.modTeam team (fun x => { x with
          poisonCols := x.poisonCols.filter (· != 4 * tile + c) }) else s1
        (s2.mxPop o).mxFlow team f
      | _ => s
    | _, _ => s

/-- The same, with steps enough for the whole queue. -/
def State.mxRun (s : State) (team : Nat) : State := s.mxFlow team ((s.mxQueue team).length + 1)

/-- Issues of a team's completed chains leave, with what the pin flag held: a chain completes once it is closed and every k-step of it has
committed (04 R75, R76). -/
def State.mxSweep (s : State) (team : Nat) : State :=
  let t := (s.teams.get? team).getD noTeam
  let isOver (c : Nat) : Bool := t.chain != some c && !s.eng.ops.any (fun o => o.team == team && o.chain == c && !o.complete)
  let gone := s.eng.ops.filter (fun o => o.team == team && o.complete && isOver o.chain)
  gone.foldl (fun s' o => s'.mxDrop o) s

/-- Save routines of a team's groups that have ended leave their slots once the engine has done their work (02 R44). -/
def State.settleTeam (s : State) (team : Nat) : State :=
  ((s.members team).filter (fun e => e.2.place == .saving)).foldl (fun s' e => s'.settleUnit e.1) s

/-! ## Acceptance (04 R68, R73 to R82) -/

/-- MXISSUE's checks and capture (04 R73, R74): what it queues, the rows of its operands and its pin flag. Where 04 R73 gives several fields
one row of its table, the model takes A's address, A's stride, B's stride, B's address; of the rows of operands, A's before B's, and both
before poison (DESIGN CHOICE, log 107). -/
def State.mxIssueCheck (s : State) (g : Group) (lane d blk n : Nat) : Except FaultInfo (MxKind × List (Bool × List (List Seg)) × Bool) :=
  match s.mxBlock g lane blk with
  | .error f => .error f
  | .ok b =>
    let w := b.getD 0 0
    let fa := bits w 3 0
    let fb := bits w 7 4
    let facc := bits w 11 8
    let k := bits w 47 32
    let scA := bit w 15
    let scB := bit w 16
    let pa := b.getD 1 0
    let pb := b.getD 3 0
    let sa := bits (b.getD 2 0) 31 0
    let sb := bits (b.getD 2 0) 63 32
    let t := bits (b.getD 4 0) 3 0
    let bad (o : Nat) : Except FaultInfo (MxKind × List (Bool × List (List Seg)) × Bool) := .error (mxParam blk o)
    let rsv0 := w / 2 ^ 18 % 2 ^ 14 * 2 ^ 18 + w / 2 ^ 48 * 2 ^ 48
    let rsv4 := b.getD 4 0 / 16 * 16
    let reg (x file : Nat) : Except FaultInfo (MxKind × List (Bool × List (List Seg)) × Bool) :=
      .error { code := cRegister, addr := 0, detail := x + 256 * file }
    if 5 < fa ∨ 5 < fb then bad 0x00 else if 1 < facc then bad 0x01
    else if (kStep fa fb 0).isNone ∧ (kStep fa fb 1).isNone then bad 0x00
    else match kStep fa fb facc with
    | none => bad 0x01
    | some ks =>
      if k = 0 ∨ 4096 < k ∨ k % ks ≠ 0 then bad 0x04
      else if rsv0 ≠ 0 then bad (lowByte 0 rsv0)
      else if rsv4 ≠ 0 then bad (lowByte 0x20 rsv4)
      else if (scA ∨ scB) ∧ 32 * (4 - n) < k then bad 0x04
      else if (scA ∨ scB) ∧ facc = 1 ∨ (scA ∨ scB) ∧ fa < 2 then bad 0x00
      else if scA = false ∧ scB = false ∧ d ≠ 0 then bad 0x201
      else if !mxAddrOk pa 16 then bad 0x08
      else if sa % 16 ≠ 0 then bad 0x10
      else if sb % 16 ≠ 0 then bad 0x14
      else if !mxAddrOk pb 16 then bad 0x18
      else if d % 2 = 1 ∨ g.budget ≤ d + 1 then reg d 0
      else if tileBad (s.teamOf g).tiles t facc then reg t 3
      else
        let tA := bit w 12
        let tB := bit w 13
        let ra := if tA then s.operandRows g lane pa sa k 32 fa else s.operandRows g lane pa sa 32 k fa
        let rb := if tB then s.operandRows g lane pb sb 32 k fb else s.operandRows g lane pb sb k 32 fb
        match ra, rb with
        | .error f, _ => .error f
        | _, .error f => .error f
        | .ok xa, .ok xb =>
          match (s.rowsPoison pa sa xa).or (s.rowsPoison pb sb xb) with
          | some f => .error f
          | none =>
            let ea := xa.map (fun r => elemsOf fa (s.segBytes r))
            let eb := xb.map (fun r => elemsOf fb (s.segBytes r))
            let scale (on : Bool) (r : Nat) : Option (List W32) := if on then some ((List.range 32).map (g.vget r)) else none
            .ok (.issue fa fb facc t k (!bit w 14) n (scale scA d) (scale scB (d + 1))
                  (if tA then transposeRows ea else ea).flatten (if tB then eb else transposeRows eb).flatten 0,
                 [(!tA, xa), (tB, xb)], bit w 17)

/-- The states of the epilogue (04 R80): RZ, F32, or converted with a code. -/
inductive EpState where
  | rz | f32 | conv (f : Nat)
deriving DecidableEq, Repr

/-- Bytes of a stored element. -/
def EpState.size : EpState → Nat | .rz => 8 | .f32 => 4 | .conv f => if f ≤ 1 then 2 else 1

/-- The state after an instruction of the program (04 R80). -/
def EpState.after (st : EpState) (h : Nat) : EpState :=
  match bits h 15 12 with
  | 10 => .f32
  | 11 => .conv (bits h 7 0)
  | _ => st

/-- Bytes of a residual element (04 R80). -/
def resSize (f : Nat) : Nat := if f = 0 then 4 else 2

/-- What the check of an epilogue program carries from halfword to halfword. -/
structure EpCheck where
  st : EpState
  row : Bool
  col : Bool
deriving DecidableEq, Repr

/-- The check of one halfword before the first END (04 R81); none when it fails. -/
def epStep (c : EpCheck) (h : Nat) : Option EpCheck :=
  let op := bits h 15 12
  let k := bits h 7 0
  let f32 := c.st == .f32
  if bits h 11 8 ≠ 0 then none else
  match op with
  | 1 => some { c with row := true }
  | 2 => some { c with col := true }
  | 3 | 5 => if k = 0 ∧ f32 ∧ c.row then some c else none
  | 4 | 6 => if k = 0 ∧ f32 ∧ c.col then some c else none
  | 7 => if k = 0 ∧ f32 then some c else none
  | 8 => if f32 then some c else none
  | 9 => if f32 ∧ k ≤ 2 then some c else none
  | 10 => if k = 0 ∧ c.st = .rz then some { c with st := .f32 } else none
  | 11 => if f32 ∧ k ≤ 3 then some { c with st := .conv k } else none
  | 12 => if k = 0 then some c else none
  | _ => none

/-- The check of an epilogue program: the index that fails, or the halfwords before END with the state before each (04 R81). -/
def epCheck (c : EpCheck) (n : Nat) : List Nat → Except Nat (List (Nat × EpState))
  | [] => .error 16
  | h :: t =>
    if bits h 15 12 = 0 then if bits h 11 0 = 0 then .ok [] else .error n
    else match epStep c h with
      | none => .error n
      | some c1 =>
        match epCheck c1 (n + 1) t with
        | .error e => .error e
        | .ok r => .ok ((h, c.st) :: r)

/-- The check of the 16 halfwords of a program: index 16 where no END stands among them (04 R81). -/
def epProgram (c : EpCheck) (hs : List Nat) : Except Nat (List (Nat × EpState)) :=
  if hs.any (fun h => bits h 15 12 == 0) then epCheck c 0 hs else .error 16

/-- 32-bit words of bytes. -/
def wordsOf (bs : List Byte) : List W32 := (elemsOf 0 bs).zipIdx.filterMap (fun q =>
  if q.2 % 2 = 0 then some (BitVec.ofNat 32 (q.1 + 65536 * ((elemsOf 0 bs).getD (q.2 + 1) 0))) else none)

/-- The address of byte 0 of a slot number, in the scratchpad of a core. -/
def slotVa (core slot k : Nat) : Nat := (0xFE00000000000000 + core * 2 ^ 24 + (slot + 128 * k)) % 2 ^ 64

/-- The words that an epilogue instruction reads at acceptance: a slot or the residual (04 R80, R82). -/
def State.epData (s : State) (g : Group) (lane out stride slot : Nat) (h : Nat) : Except FaultInfo (List W32) :=
  let op := bits h 15 12
  let k := bits h 7 0
  let fromSlot (n : Nat) : Except FaultInfo (List W32) :=
    let t := s.teamOf g
    let off := slot + 128 * k
    let va := slotVa g.core slot k
    if t.scr < off + n then .error { code := cRange, addr := va, detail := 0 }
    else match s.mem.poisonAt (scrKey t.scrId off) n with
      | some p => .error (eccAt va p)
      | none => .ok (wordsOf (s.mem.bytes (scrKey t.scrId off) n))
  match op with
  | 1 | 2 => fromSlot 128
  | 8 => fromSlot 8
  | 9 =>
    match s.rowRuns g lane out stride 32 (32 * resSize k) .load with
    | .error f => .error f
    | .ok rows =>
      match s.rowsPoison out stride rows with
      | some f => .error f
      | none => .ok (rows.map (fun r =>
          let bs := s.segBytes r
          if k = 0 then wordsOf bs else (elemsOf 0 bs).map (fun w => cvt (if k = 1 then 6 else 7) (BitVec.ofNat 32 w)))).flatten
  | _ => .ok []

/-- The bytes that an MXDRAIN reads by its block and its program: addresses and lengths (04 R80, R82). -/
def mxDrainReads (core : Nat) (b prog : List Nat) : List (Nat × Nat) :=
  let slot := bits (b.getD 7 0) 63 32
  (b.getD 5 0, 32) :: (prog.map (fun h =>
    match bits h 15 12 with
    | 1 | 2 => [(slotVa core slot (bits h 7 0), 128)]
    | 8 => [(slotVa core slot (bits h 7 0), 8)]
    | 9 => (List.range 32).map (fun r => (add64 (b.getD 6 0) (r * bits (b.getD 7 0) 31 0), 32 * resSize (bits h 7 0)))
    | _ => [])).flatten

/-- MXDRAIN's checks and what it reads at acceptance (04 R73, R81, R82, 21 R304). The program's own bytes are checked first, then the
program, then slots and residual, then the output; the poison of the tile comes last. 04 gives these no order among themselves (DESIGN
CHOICE, log 98). -/
def State.mxDrainCheck (s : State) (g : Group) (lane blk : Nat) : Except FaultInfo MxKind :=
  match s.mxBlock g lane blk with
  | .error f => .error f
  | .ok b =>
    let facc := bits (b.getD 0 0) 11 8
    let t := bits (b.getD 4 0) 3 0
    let rsv4 := b.getD 4 0 / 16 * 16
    let pa := b.getD 5 0
    let out := b.getD 6 0
    let stride := bits (b.getD 7 0) 31 0
    let slot := bits (b.getD 7 0) 63 32
    if 1 < facc then .error (mxParam blk 0x01)
    else if rsv4 ≠ 0 then .error (mxParam blk (lowByte 0x20 rsv4))
    else if !mxAddrOk pa 32 then .error (mxParam blk 0x28)
    else if !mxAddrOk out 16 then .error (mxParam blk 0x30)
    else if stride % 16 ≠ 0 then .error (mxParam blk 0x38)
    else if slot % 16 ≠ 0 then .error (mxParam blk 0x3C)
    else if tileBad (s.teamOf g).tiles t facc then .error { code := cRegister, addr := 0, detail := t + 256 * 3 }
    else match s.readBlock g lane pa 32 with
    | .error f => .error f
    | .ok segs =>
      match epProgram { st := if facc = 1 then .rz else .f32, row := false, col := false } (elemsOf 0 (s.segBytes segs)) with
      | .error i => .error (mxParam blk (0x100 + i))
      | .ok prog =>
        match prog.mapM (fun h => s.epData g lane out stride slot h.1) with
        | .error f => .error f
        | .ok data =>
          let size := maxOf ((prog.filter (fun h => bits h.1 15 12 == 12)).map (fun h => h.2.size))
          match s.rowRuns g lane out stride 32 (32 * size) .store with
          | .error f => .error f
          | .ok rows =>
            if (s.teamOf g).poisonCols.any (fun c => c / 4 == t || (facc == 1 && c / 4 == t + 1)) then
              .error { code := cEcc, addr := 0, detail := 5 }
            else .ok (.drain facc t (prog.map (·.1)) (data.zipIdx.map (fun q => (q.2, q.1))) (rows.filter (!·.isEmpty)))

/-- The scalar register that names the parameter block of a matrix instruction. -/
def mxBlockReg : Instr → Nat
  | .mxissue _ a _ _ | .mxdrain a _ => a.toNat
  | _ => 0

/-- The state after the engine has read blocks for a group, at addresses that have passed their checks. -/
def State.mxSaw (s : State) (g : Group) (l : List (Nat × Nat)) : State := (l.foldl (fun t q => t.noteRead g q.1 q.2) s).useFree 1

/-- The state after the pages of a drain's output have been translated (04 R73). -/
def State.mxTouch (s : State) (g : Group) (b : List Nat) (k : MxKind) : State :=
  match k with
  | .drain _ _ _ _ out => (out.zipIdx.map (fun r => pagePieces 3 (add64 (b.getD 6 0) (r.2 * bits (b.getD 7 0) 31 0))
      (r.1.foldl (fun n q => n + q.len) 0))).flatten.foldl (fun t q => t.touch g q.1) s
  | _ => s

/-- What the requests for a drain's output carry, by page (06 R111). -/
def State.drainTags (s : State) (g : Group) (b : List Nat) (k : MxKind) : List (Nat × Nat) :=
  match k with
  | .drain _ _ _ _ out => (out.zipIdx.map (fun r =>
      let a := add64 (b.getD 6 0) (r.2 * bits (b.getD 7 0) 31 0)
      s.runTags (s.accOf g) a (r.1.foldl (fun n q => n + q.len) 0) 1 (r.1.map (fun q => (locOf q.key, q.len))))).flatten
  | _ => []

/-- The bytes that a matrix instruction names in memory, in the order in which its checks translate them. -/
def State.mxNames (s : State) (g : Group) (lane blk : Nat) (i : Instr) : List (Nat × Nat) :=
  match s.mxBlock g lane blk with
  | .error _ => []
  | .ok b =>
    match i with
    | .mxissue .. => (blk, 64) :: mxIssueReads b
    | .mxdrain .. =>
      let prog := match s.readBlock g lane (b.getD 5 0) 32 with
        | .ok segs => elemsOf 0 (s.segBytes segs)
        | .error _ => []
      (blk, 64) :: mxDrainReads g.core b (prog.takeWhile (fun h => bits h 15 12 != 0)) ++
        (List.range 32).map (fun r => (add64 (b.getD 6 0) (r * bits (b.getD 7 0) 31 0), 256))
    | _ => []

/-- A matrix instruction faults at acceptance: what its checks translated before is noted (05 R93, R103). -/
def State.mxFault (s : State) (gid : Nat) (g : Group) (lane pc blk : Nat) (i : Instr) (f : FaultInfo) : State :=
  let l := ((s.mxNames g lane blk i).map (fun q => (pagePieces (q.2 / 4096 + 2) q.1 q.2).map (·.1))).flatten
  (s.walksBefore (s.accOf g) f l).takeFault gid lane pc f

/-- The engine accepts an instruction of a group's lanes, or it faults (04 R68, R73 to R82). `blk` is the address of its parameter block,
where it has one, as it issued. -/
def State.mxAcc (s : State) (gid : Nat) (g : Group) (pc : Nat) (part : Mask) (i : Instr) (blk : Nat) : Except FaultInfo State :=
  let lane := lowLane part
  let t := s.teamOf g
  if (readsOf i).any g.poison.contains then .error { code := cEcc, addr := 0, detail := 4 } else
  match i with
  | .mxissue d _ n _ =>
    match s.mxIssueCheck g lane d.toNat blk n.toNat, s.mxBlock g lane blk with
    | .error f, _ => .error f
    | _, .error f => .error f
    | .ok (k, rows, flag), .ok b =>
      let s1 := (s.mxSaw g ((blk, 64) :: mxIssueReads b)).count .mxIssues g.core 1
      .ok (match t.chain with
        | some c => s1.mxPush gid g k rows flag c
        | none => (s1.useIds 1).mxPush gid g k rows flag s1.freshId)
  | .mxdrain _ _ =>
    match s.mxDrainCheck g lane blk, s.mxBlock g lane blk with
    | .error f, _ => .error f
    | _, .error f => .error f
    | .ok k, .ok b =>
      let prog := match k with | .drain _ _ p _ _ => p | _ => []
      .ok (((s.mxSaw g ((blk, 64) :: mxDrainReads g.core b prog)).mxTouch g b k).mxPush gid g k [] false 0 (s.drainTags g b k))
  | .mxchain _ =>
    if t.chain.isSome then .error (mxParam 0 0x200)
    else .ok (((s.useIds 1).modTeam g.team (fun x => { x with
      chain := some s.freshId
      fed := true })))
  | .mxend _ =>
    if t.chain.isNone then .error (mxParam 0 0x200)
    else .ok ((s.modTeam g.team (fun x => { x with
      chain := none
      fed := true })).mxSweep g.team)
  | .mxzero tile _ => .ok ((s.mxPush gid g (.zero tile.toNat) [] false 0).mxRun g.team)
  | .mxrd d c tile _ =>
    if t.poisonCols.contains (4 * tile.toNat + c.toNat) then .error { code := cEcc, addr := 0, detail := 5 } else
    let p : Pend := { id := s.freshId, src := .engine t.mxSeq, pc := pc, lanes := part,
                      regs := (List.range 8).map (d.toNat + ·), sreg := none, writes := [], swrite := 0, bad := [] }
    .ok (((((s.useIds 1).modGroup gid (fun x => { x with pend := x.pend ++ [p] })).mxPush gid g
      (.rd tile.toNat c.toNat d.toNat part s.freshId) [] false 0)).mxRun g.team)
  | .mxwr d c tile _ =>
    let vals := ((lanesOf part).map (fun l => (List.range 8).map (fun m => (l, m, g.vget (d.toNat + m) l)))).flatten
    .ok ((s.mxPush gid g (.wr tile.toNat c.toNat part vals) [] false 0).mxRun g.team)
  | _ => .ok s

/-- The instruction needs a power grant (04 R83). -/
def needsGrant : Instr → Bool | .mxissue .. => true | _ => false

/-- The instruction reads memory as it is accepted, after every earlier store of its group (04 R70, R82; 21 R304). -/
def readsMemory : Instr → Bool | .mxissue .. | .mxdrain .. => true | _ => false

/-- The engine can accept a group's instruction of a number now: its baton is among the two, no earlier store of the group is held back
where the instruction reads memory, and an MXISSUE has a grant and fewer than eight before it (02 R28, R38; 04 R74, R83). -/
def State.mxReady (s : State) (gid : Nat) (g : Group) (i : Instr) (seq : Nat) : Bool :=
  s.batonFed (s.teamOf g) && !(readsMemory i && s.storesBefore gid seq) &&
  (!needsGrant i || (s.hasGrant (dieOfCore g.core) (.engine g.core) &&
    decide (((s.mxQueue g.team).filter (fun o => match o.kind with | .issue .. => true | _ => false)).length < 8)))

/-- A baton instruction: the checks of 04 R68, then acceptance at once, or a wait for it. A wait for a grant keeps the cycle at which it was
asked for. -/
def mxOp (i : Instr) (sub : Nat) (s : State) : Out State :=
  issue i s (fun c s1 =>
    if c.part = 0 then c.advance s1
    else if s1.noBaton c.gid c.g then c.fail s1 c.part { code := cBaton, addr := 0, detail := sub }
    else if c.poisoned then c.failPoison s1
    else if s1.mxReady c.gid c.g i (c.seqFor s1) && !c.g.waits.any (fun w => w.why.isMx) then
      match s1.mxAcc c.gid c.g c.pc c.part i (c.sget (mxBlockReg i)).toNat with
      | .error f => s1.mxFault c.gid c.g (lowLane c.part) c.pc (c.sget (mxBlockReg i)).toNat i f
      | .ok s2 => c.advance s2
    else
      let die := dieOfCore c.g.core
      if needsGrant i && !s1.hasGrant die (.engine c.g.core) then
        c.waitWith (s1.askGrant die (.engine c.g.core)) c.part (.mxAccept i) (fun w => { w with tried := [s1.env.cycle] })
      else c.waitFor s1 c.part (.mxAccept i))

/-- MXISSUE (04 R74). -/
def execMxissue (d : BitVec 7) (a : BitVec 6) (n : BitVec 2) (g : BitVec 4) (s : State) : Out State :=
  mxOp (.mxissue d a n g) (0x30 + n.toNat) s

/-- MXCHAIN (04 R76). -/
def execMxchain (g : BitVec 4) (s : State) : Out State :=
  mxOp (.mxchain g) 0x34 s

/-- MXEND (04 R76). -/
def execMxend (g : BitVec 4) (s : State) : Out State :=
  mxOp (.mxend g) 0x35 s

/-- MXDRAIN (04 R82). -/
def execMxdrain (a : BitVec 6) (g : BitVec 4) (s : State) : Out State :=
  mxOp (.mxdrain a g) 0x36 s

/-- MXZERO (04 R77). -/
def execMxzero (t g : BitVec 4) (s : State) : Out State :=
  mxOp (.mxzero t g) 0x37 s

/-- MXRD (04 R78). -/
def execMxrd (d : BitVec 7) (c : BitVec 2) (t g : BitVec 4) (s : State) : Out State :=
  mxOp (.mxrd d c t g) 0x38 s

/-- MXWR (04 R78). -/
def execMxwr (d : BitVec 7) (c : BitVec 2) (t g : BitVec 4) (s : State) : Out State :=
  mxOp (.mxwr d c t g) 0x39 s

/-- MXWAIT (04 R79, 24 R357). -/
def execMxwait (g : BitVec 4) (s : State) : Out State :=
  issue (.mxwait g) s (fun c s1 =>
    let upTo := match c.prev with
      | some w => (match w.why with | .engine u => u | _ => (s1.teamOf c.g).mxSeq)
      | none => (s1.teamOf c.g).mxSeq
    if c.part = 0 ∨ c.g.kind ≠ .team ∨ s1.mxDone c.g.team upTo then c.advance s1 else c.waitFor s1 c.part (.engine upTo))

/-! ## Events of the engine -/

/-- An accepted MXISSUE that has waited for a grant: the wait and its nanoseconds are counted (04 R83, 24 R357). -/
def State.countGrant (s : State) (core : Nat) (w : Wait) : State :=
  match w.tried with
  | [t, u] => (s.count .mxGrantWaits core 1).count .mxGrantNs core (nsOf (u - t))
  | _ => s

/-- MX_ACCEPT: the oldest matrix instruction that waits in a group is accepted, or faults (04 R68). -/
def execMxAccept (gid : Nat) (s : State) : Out State :=
  match s.groups.get? gid with
  | none => .next s
  | some g =>
    match g.waits.find? (fun w => w.why.isMx) with
    | none => .next s
    | some w =>
      match w.why with
      | .mxAccept i =>
        if !s.mxReady gid g i w.seq || !s.active (s.gridOf g) then .next s else
        let blk := if mxBlockReg i = 0 then 0 else (w.snap.getD (mxBlockReg i) 0).toNat
        match s.mxAcc gid g w.pc w.lanes i blk with
        | .error f => .next (s.mxFault gid g (lowLane w.lanes) w.pc blk i f)
        | .ok s2 => .next ((s2.countGrant g.core w).modGroup gid (fun x => { x.setPc w.lanes (w.pc + 4) with waits := x.waits.erase w }))
      | _ => .next s

/-- The elements of one row or column in one k-step. -/
def stepElems (k ks st r : Nat) (xs : List Nat) : List Nat := (xs.drop (r * k + st * ks)).take ks

/-- The scale byte of a row or column for element `kk` of an issue (03 R65). -/
def scaleAt (n : Nat) (sc : Option (List W32)) (r kk : Nat) : Option Nat :=
  sc.map (fun ws => bits (ws.getD r 0).toNat (8 * (n + kk / 32) + 7) (8 * (n + kk / 32)))

/-- MX_KSTEP_COMMIT: the next k-step of the team's first instruction is committed (04 R74, R76). -/
def execMxKstepCommit (team : Nat) (s : State) : Out State :=
  match s.teams.get? team, s.mxQueue team with
  | some t, o :: _ =>
    match o.kind with
    | .issue fa fb facc tile k wipe n sa sb ea eb done =>
      if !s.active (s.teamGrid t) then .next s else
      let ks := (kStep fa fb facc).getD 1
      let rz := facc == 1
      let s0 := if wipe && done == 0 then
          let z := s.tileZero team tile
          if rz then z.tileZero team (tile + 1) else z
        else s
      let rowsA := (List.range 32).map (fun i => stepElems k ks done i ea)
      let colsB := (List.range 32).map (fun j => stepElems k ks done j eb)
      let s1 :=
        if o.tainted then
          let fr (h : Nat) : List (Nat × Nat × W32) :=
            tileCells.map (fun q => (q.1, q.2, Config.freeWord (s0.env.freeCtr + 1024 * h + 32 * q.1 + q.2)))
          let a := (s0.tileSet t tile (fr 0)).poisonTile team tile
          (if rz then (a.tileSet t (tile + 1) (fr 1)).poisonTile team (tile + 1) else a).useFree 2048
        else if rz then
          let ys : List (Nat × Nat × W64) := tileCells.map (fun q =>
            let p := ((rowsA.getD q.1 []).zip (colsB.getD q.2 [])).foldl (fun x e => x + mxInt fa e.1 * mxInt fb e.2) 0
            let old := s0.tileGet t (tile + 1) q.1 q.2 ++ s0.tileGet t tile q.1 q.2
            (q.1, q.2, rzAdd old (rzOf p)))
          (s0.tileSet t tile (ys.map (fun y => (y.1, y.2.1, y.2.2.setWidth 32)))).tileSet t (tile + 1)
            (ys.map (fun y => (y.1, y.2.1, ((y.2.2 : W64) >>> (32 : Nat)).setWidth 32)))
        else
          s0.tileSet t tile (tileCells.map (fun q =>
            let ps := ((rowsA.getD q.1 []).zip (colsB.getD q.2 [])).zipIdx.map (fun e =>
              mxScale (fmulX (unpack (mxFmt fa) e.1.1) (unpack (mxFmt fb) e.1.2))
                (scaleAt n sa q.1 (done * ks + e.2)) (scaleAt n sb q.2 (done * ks + e.2)))
            (q.1, q.2, mxSum (f32 (s0.tileGet t tile q.1 q.2)) ps)))
      let o1 := { o with kind := .issue fa fb facc tile k wipe n sa sb ea eb (done + 1) }
      let s2 := { s1 with eng := { s1.eng with ops := s1.eng.ops.map (fun (x : MxOp) => if x.team = team ∧ x.seq = o.seq then o1 else x) } }
      let s3 := if o1.complete then (if o.pinFlag then s2.noteIdle o.core else s2.mxPop o) else s2
      .next (((s3.mxSweep team).mxRun team).settleTeam team)
    | _ => .next s
  | _, _ => .next s

/-- The row and column vectors of an epilogue and its elements, each a 64-bit pattern. -/
structure Ep where
  rv : List W32
  cv : List W32
  x : List W64

/-- Each element of an epilogue changed by a function of its row, its column and its word. -/
def Ep.each (e : Ep) (f : Nat → Nat → W32 → W32) : Ep :=
  { e with x := e.x.zipIdx.map (fun q => (f (q.2 / 32) (q.2 % 32) (q.1.setWidth 32)).setWidth 64) }

/-- One instruction of an epilogue but STORE (04 R80). -/
def epRun (e : Ep) (h : Nat) (ws : List W32) : Ep :=
  match bits h 15 12 with
  | 1 => { e with rv := ws }
  | 2 => { e with cv := ws }
  | 3 => e.each (fun i _ x => fmul32 .rne x (e.rv.getD i 0))
  | 4 => e.each (fun _ j x => fmul32 .rne x (e.cv.getD j 0))
  | 5 => e.each (fun i _ x => fadd32 .rne x (e.rv.getD i 0))
  | 6 => e.each (fun _ j x => fadd32 .rne x (e.cv.getD j 0))
  | 7 => e.each (fun _ _ x => if isNan x then BitVec.ofNat 32 Fmt.f32.nan else if x.getLsbD 31 then 0 else x)
  | 8 => e.each (fun _ _ x => fmin (fmax x (ws.getD 0 0)) (ws.getD 1 0))
  | 9 => e.each (fun i j x => fadd32 .rne x (ws.getD (32 * i + j) 0))
  | 10 => { e with x := e.x.map (fun w => (rzCvt w).setWidth 64) }
  | 11 => e.each (fun _ _ x => match bits h 7 0 with
      | 0 => cvt 4 x
      | 1 => cvt 5 x
      | 2 => cvt 8 x
      | _ => cvt 12 (cvt 2 x))
  | _ => e

/-- The bytes of a row that STORE writes. -/
def Ep.row (e : Ep) (size i : Nat) : List Byte := (((e.x.drop (32 * i)).take 32).map (fun w => toLe size w.toNat)).flatten

/-- The 16-byte units of this part that runs of bytes reach: keys of their first bytes. -/
def unitsOf (l : List Seg) : List Nat :=
  ((l.filter (fun q => !isAway q.key)).map (fun q => (List.range ((q.key / 4 + q.len + 15) / 16 - q.key / 4 / 16)).map (fun i =>
    (q.key / 4 / 16 + i) * 64 + q.key % 4))).flatten

/-- What a drain's stores ask of the memory system: accesses of the core in the class of the grid (06 R104, R108). -/
def State.drainAsk (s : State) (o : MxOp) (t : Team) : Ask :=
  let gr := s.teamGrid t
  { part := gr.part, requester := o.core, cls := gr.r.cls, stamp := s.stampOf gr.part gr.r.cls, write := true, carried := none }

/-- The state with a row of a drain stored; where the tile was poisoned, the units that it writes are marked (04 R82, R84). -/
def State.storeRow (s : State) (k : Ask) (tags : List (Nat × Nat)) (owner : Nat × Nat) (bad : Bool) (segs : List Seg) (bs : List Byte) :
    State :=
  let run := subSegs segs 0 bs.length
  let s1 := ((s.combineRuns run).askRuns k tags run).writeRuns k owner run bs
  if bad then { s1 with mem := (unitsOf run).foldl (fun m u => m.poisonUnit (unitOf u) (if u % 4 = 1 then 3 else 2)) s1.mem } else s1

/-- An epilogue's program run, STOREs included. A poisoned drain's output counts in ECC_POISONED by the 64-byte sectors that a STORE
reaches, the units of 12 R231; 04 R84 says only 'each such unit' (DESIGN CHOICE, log 98). -/
def State.epGo (s : State) (k : Ask) (tags : List (Nat × Nat)) (owner : Nat × Nat) (bad : Bool) (out : List (List Seg)) (data : List (Nat × List W32)) (st : EpState)
    (e : Ep) : List (Nat × Nat) → State
  | [] => s
  | (h, n) :: t =>
    if bits h 15 12 = 12 then
      let s1 := (out.zipIdx).foldl (fun s' r => s'.storeRow k tags owner bad r.1 (e.row st.size r.2)) s
      let s2 := if bad then s1.count .eccPoisoned k.part (sectorsOf ((out.map (fun r => subSegs r 0 (32 * st.size))).flatten.filter
        (fun q => !isAway q.key))).length else s1
      State.epGo s2 k tags owner bad out data st e t
    else
      State.epGo s k tags owner bad out data (st.after h) (epRun e h (((data.find? (fun q => q.1 == n)).map (·.2)).getD [])) t

/-- The sizes of the elements that a program's STOREs write. -/
def storeSizes : EpState → List Nat → List Nat
  | _, [] => []
  | st, h :: t => if bits h 15 12 = 12 then st.size :: storeSizes st t else storeSizes (st.after h) t

/-- A drain has completed: what stands behind it goes on, and units that waited for it may leave. -/
def State.drainDone (s : State) (o : MxOp) : State := (((s.mxPop o).mxRun o.team).settleUnit o.gid).settleTeam o.team

/-- The number by which a drain's messages name it. -/
def MxOp.owner (o : MxOp) : Nat × Nat := (o.team * 2 ^ 64 + o.seq, 33)

/-- MX_DRAIN_EXECUTE: the team's drain at the head of its queue runs its program and stores; pinned output lines, and for another part a
full channel, hold it back. It has completed when its output to other parts has been written there (01 R16; 04 R79, R82). STORE in state F32
or RZ stores an element's bits as they stand, also a NaN or a residue that MXWR has left non-canonical (03 R47, R58; DESIGN CHOICE,
log 107). -/
def execMxDrainExecute (team : Nat) (s : State) : Out State :=
  match s.teams.get? team, s.mxQueue team with
  | some t, o :: _ =>
    match o.kind with
    | .drain facc tile prog data out =>
      if out.any (fun r => r.any (fun q => s.pinned q.key q.len)) || !s.active (s.teamGrid t) ||
          out.any (fun r => r.any (fun q => isAway q.key)) && !s.channelOpen 0 then .next s else
      let rz := facc == 1
      let bad := t.poisonCols.any (fun c => c / 4 == tile || (rz && c / 4 == tile + 1))
      let x := tileCells.map (fun q =>
        if rz then s.tileGet t (tile + 1) q.1 q.2 ++ s.tileGet t tile q.1 q.2 else (s.tileGet t tile q.1 q.2).setWidth 64)
      let s1 := s.epGo (s.drainAsk o t) o.tags o.owner bad out data (if rz then .rz else .f32) { rv := [], cv := [], x := x } prog.zipIdx
      let parts := ((storeSizes (if rz then .rz else .f32) prog).map (fun n => s.awayPieces (out.map (subSegs · 0 (32 * n))).flatten)).flatten
      if parts.isEmpty then .next (s1.drainDone o)
      else .next { s1 with eng := { s1.eng with ops := s1.eng.ops.map (fun (y : MxOp) => if y.team = team ∧ y.seq = o.seq then
        { y with kind := .sent parts } else y) } }
    | _ => .next s
  | _, _ => .next s

/-- Every piece of the drains that a group issued whose home has still to acknowledge it: the instruction and the part. -/
def State.drainPieces (s : State) (gid : Nat) : List (MxOp × Nat) :=
  ((s.eng.ops.filter (fun o => o.gid == gid)).map (fun o => match o.kind with
    | .sent ps => ps.map (fun p => (o, p))
    | _ => [])).flatten

/-- A piece of a drain's output has been written at its home, or discarded: after the last, the drain is done. -/
def State.drainPieceDone (s : State) (q : MxOp × Nat) : State :=
  match q.1.kind with
  | .sent ps =>
    let left := ps.erase q.2
    if left.isEmpty then s.drainDone q.1
    else { s with eng := { s.eng with ops := s.eng.ops.map (fun (y : MxOp) => if y.team = q.1.team ∧ y.seq = q.1.seq then
      { y with kind := .sent left } else y) } }
  | _ => s

end Sys2Proof.Machine
end

