-- ==== Sys2Proof/Machine/Scalar.lean ====
section
/-! DEFINITION. Scalar operations, branches and lane control (15 R273, R278; 22 R322, R324; 23 R325, R326, R331, R333; 25 R364,
R369, R372, R373, R378, R381, R386). -/
namespace Sys2Proof.Machine

/-! ## Scalar operations (15 R273) -/

/-- A scalar operation of two sources. -/
def scal2 (i : Instr) (d a b : Nat) (f : W64 → W64 → W64) (s : State) : Out State :=
  scalarOp i d s (fun _ g => f (g.sget a) (g.sget b))
/-- A scalar operation with an immediate. -/
def scalI (i : Instr) (d a : Nat) (x : W64) (f : W64 → W64 → W64) (s : State) : Out State :=
  scalarOp i d s (fun _ g => f (g.sget a) x)

/-- Shift left by bits [5:0]. -/
def sshlOf (a b : W64) : W64 := a <<< (b.toNat % 64)
/-- Logical shift right by bits [5:0]. -/
def sshrOf (a b : W64) : W64 := a >>> (b.toNat % 64)
/-- Arithmetic shift right by bits [5:0]. -/
def ssarOf (a b : W64) : W64 := a.sshiftRight (b.toNat % 64)
/-- Signed minimum. -/
def sminOf (a b : W64) : W64 := if b.slt a then b else a
/-- Signed maximum. -/
def smaxOf (a b : W64) : W64 := if a.slt b then b else a
/-- 1 if less, as signed. -/
def sltOf (a b : W64) : W64 := if a.slt b then 1 else 0
/-- IMM9 sign-extended. -/
def imm9 (i : BitVec 9) : W64 := i.signExtend 64
/-- A shift amount. -/
def imm6 (i : BitVec 6) : W64 := i.setWidth 64

/-- SADD (15 R273). -/
def execSadd (d a b : BitVec 6) (s : State) : Out State :=
  scal2 (.sadd d a b) d.toNat a.toNat b.toNat (· + ·) s

/-- SSUB (15 R273). -/
def execSsub (d a b : BitVec 6) (s : State) : Out State :=
  scal2 (.ssub d a b) d.toNat a.toNat b.toNat (· - ·) s

/-- SMUL (15 R273). -/
def execSmul (d a b : BitVec 6) (s : State) : Out State :=
  scal2 (.smul d a b) d.toNat a.toNat b.toNat (· * ·) s

/-- SAND (15 R273). -/
def execSand (d a b : BitVec 6) (s : State) : Out State :=
  scal2 (.sand d a b) d.toNat a.toNat b.toNat (· &&& ·) s

/-- SOR (15 R273). -/
def execSor (d a b : BitVec 6) (s : State) : Out State :=
  scal2 (.sor d a b) d.toNat a.toNat b.toNat (· ||| ·) s

/-- SXOR (15 R273). -/
def execSxor (d a b : BitVec 6) (s : State) : Out State :=
  scal2 (.sxor d a b) d.toNat a.toNat b.toNat (· ^^^ ·) s

/-- SSHL (15 R273). -/
def execSshl (d a b : BitVec 6) (s : State) : Out State :=
  scal2 (.sshl d a b) d.toNat a.toNat b.toNat sshlOf s

/-- SSHR (15 R273). -/
def execSshr (d a b : BitVec 6) (s : State) : Out State :=
  scal2 (.sshr d a b) d.toNat a.toNat b.toNat sshrOf s

/-- SSAR (15 R273). -/
def execSsar (d a b : BitVec 6) (s : State) : Out State :=
  scal2 (.ssar d a b) d.toNat a.toNat b.toNat ssarOf s

/-- SMIN (15 R273). -/
def execSmin (d a b : BitVec 6) (s : State) : Out State :=
  scal2 (.smin d a b) d.toNat a.toNat b.toNat sminOf s

/-- SMAX (15 R273). -/
def execSmax (d a b : BitVec 6) (s : State) : Out State :=
  scal2 (.smax d a b) d.toNat a.toNat b.toNat smaxOf s

/-- SLT (15 R273). -/
def execSlt (d a b : BitVec 6) (s : State) : Out State :=
  scal2 (.slt d a b) d.toNat a.toNat b.toNat sltOf s

/-- SMOV (15 R273). -/
def execSmov (d a : BitVec 6) (s : State) : Out State :=
  scalarOp (.smov d a) d.toNat s (fun _ g => g.sget a.toNat)

/-- SPSET: every lane of the group, live or not (15 R273). -/
def execSpset (p : BitVec 3) (a : BitVec 6) (s : State) : Out State :=
  regOp (.spset p a) s (fun _ g => g.pset p.toNat (BitVec.allOnes 32) (if g.sget a.toNat = 0 then 0 else BitVec.allOnes 32))

/-- SADD with an immediate (15 R273). -/
def execSaddImm (d a : BitVec 6) (i : BitVec 9) (s : State) : Out State :=
  scalI (.saddImm d a i) d.toNat a.toNat (imm9 i) (· + ·) s

/-- SSUB with an immediate (15 R273). -/
def execSsubImm (d a : BitVec 6) (i : BitVec 9) (s : State) : Out State :=
  scalI (.ssubImm d a i) d.toNat a.toNat (imm9 i) (· - ·) s

/-- SMUL with an immediate (15 R273). -/
def execSmulImm (d a : BitVec 6) (i : BitVec 9) (s : State) : Out State :=
  scalI (.smulImm d a i) d.toNat a.toNat (imm9 i) (· * ·) s

/-- SAND with an immediate (15 R273). -/
def execSandImm (d a : BitVec 6) (i : BitVec 9) (s : State) : Out State :=
  scalI (.sandImm d a i) d.toNat a.toNat (imm9 i) (· &&& ·) s

/-- SOR with an immediate (15 R273). -/
def execSorImm (d a : BitVec 6) (i : BitVec 9) (s : State) : Out State :=
  scalI (.sorImm d a i) d.toNat a.toNat (imm9 i) (· ||| ·) s

/-- SXOR with an immediate (15 R273). -/
def execSxorImm (d a : BitVec 6) (i : BitVec 9) (s : State) : Out State :=
  scalI (.sxorImm d a i) d.toNat a.toNat (imm9 i) (· ^^^ ·) s

/-- SSHL with an immediate shift (15 R273). -/
def execSshlImm (d a i : BitVec 6) (s : State) : Out State :=
  scalI (.sshlImm d a i) d.toNat a.toNat (imm6 i) sshlOf s

/-- SSHR with an immediate shift (15 R273). -/
def execSshrImm (d a i : BitVec 6) (s : State) : Out State :=
  scalI (.sshrImm d a i) d.toNat a.toNat (imm6 i) sshrOf s

/-- SSAR with an immediate shift (15 R273). -/
def execSsarImm (d a i : BitVec 6) (s : State) : Out State :=
  scalI (.ssarImm d a i) d.toNat a.toNat (imm6 i) ssarOf s

/-- SMIN with an immediate (15 R273). -/
def execSminImm (d a : BitVec 6) (i : BitVec 9) (s : State) : Out State :=
  scalI (.sminImm d a i) d.toNat a.toNat (imm9 i) sminOf s

/-- SMAX with an immediate (15 R273). -/
def execSmaxImm (d a : BitVec 6) (i : BitVec 9) (s : State) : Out State :=
  scalI (.smaxImm d a i) d.toNat a.toNat (imm9 i) smaxOf s

/-- SLT with an immediate (15 R273). -/
def execSltImm (d a : BitVec 6) (i : BitVec 9) (s : State) : Out State :=
  scalI (.sltImm d a i) d.toNat a.toNat (imm9 i) sltOf s

/-- SMOV of an immediate (15 R273). -/
def execSmovImm (d : BitVec 6) (i : BitVec 9) (s : State) : Out State :=
  scalarOp (.smovImm d i) d.toNat s (fun _ _ => imm9 i)

/-- SMOVI (25 R378). -/
def execSmovi (d : BitVec 6) (i : BitVec 19) (s : State) : Out State :=
  scalarOp (.smovi d i) d.toNat s (fun _ _ => i.signExtend 64)

/-- SMOVHI (25 R378). -/
def execSmovhi (d : BitVec 6) (i : BitVec 19) (s : State) : Out State :=
  scalarOp (.smovhi d i) d.toNat s (fun _ g => (g.sget d.toNat <<< 19) ||| i.setWidth 64)

/-- The address of an SLD or SST (15 R269, R273). -/
def ICtx.scalarAddr (c : ICtx) (a : Nat) (i : BitVec 9) : Nat := add64 (c.sget a).toNat (sext64 9 i.toNat * 8)

/-- A scalar load after its checks, as a lane's load is made; a load whole clears the poison of its register (12 R231). -/
def ICtx.loadScalar (c : ICtx) (s : State) (lane d va : Nat) (x : Found) : State :=
  let by' := s.accOf c.g
  let s0 := s.useIds 1
  let s1 := match x with
    | .ok l => (s0.accessBy by' c.g va 8 l false (some s.freshId)).askRemote (s.askFor by' c.g va false none) 8 (c.gid, lane) x
    | .error _ => s0
  let s2 := match x with | .ok (.here k) => s1.combine k 8 | _ => s1
  let p : Pend := { id := s.freshId, src := srcOf va 8 false x, pc := c.pc, lanes := BitVec.allOnes 32, regs := [],
                    sreg := if d = 0 then none else some d, writes := [], swrite := BitVec.ofNat 64 (s.loadValue 8 x),
                    bad := ((s.badLoad va 8 x).map (fun f => (f, lane))).toList
                    due := match x with | .ok l => s.dueFor by' c.g va 8 l false | .error _ => []
                    msg := if s2.fab.sent.length = s.fab.sent.length then 0 else s2.fab.sent.length
                    agent := lane }
  s2.modGroup c.gid (fun g => { g.setPc c.lanes c.next with pend := g.pend ++ [p] })

/-- SLD: an access of the lowest live lane of the path; its result is pending for the whole group (25 R373). -/
def execSld (d a : BitVec 6) (i : BitVec 9) (s : State) : Out State :=
  issue (.sld d a i) s (fun c s1 =>
    let va := c.scalarAddr a.toNat i
    let lane := lowLane c.lanes
    match s1.checkLoad c.g lane va 8 with
    | .error f => c.failLane s1 lane f
    | .ok x => c.loadScalar s1 lane d.toNat va x)

/-- The location of the path's one access: checked once, at issue (15 R281). -/
def ICtx.foundOnce (c : ICtx) (x : Except FaultInfo Loc) : Except FaultInfo Loc :=
  match c.prev.bind (fun w => w.found.head?) with
  | some q => .ok (locOf q.2.2)
  | none => x

/-- SST (25 R373). -/
def execSst (d a : BitVec 6) (i : BitVec 9) (s : State) : Out State :=
  issue (.sst d a i) s (fun c s1 =>
    let va := c.scalarAddr a.toNat i
    let lane := lowLane c.lanes
    match c.foundOnce (s1.checkAddr c.g lane va 8 8 .store) with
    | .error f => c.failLane s1 lane f
    | .ok l =>
      if s1.pinnedAt l 8 then c.waitAt s1 c.lanes (.pin (segsAt 8 [l])) [(lane, va, l)]
      else match s1.goBusy l 8 with
      | some e => c.waitAt s1 c.lanes (.go [e]) [(lane, va, l)]
      | none => c.advance ((c.storeLane 8 s1 (lane, va, l, (c.sget d.toNat).toNat)).goStored c.gid lane l 8))

/-! ## Branches -/

/-- The target of a relative branch (15 R269). -/
def ICtx.target (c : ICtx) (o : BitVec 21) : Nat := (c.pc + 2 * sext64 21 o.toNat) % 2 ^ 32

/-- BRA: a guarded branch divides its path (22 R322). -/
def execBra (o : BitVec 21) (g : BitVec 4) (s : State) : Out State :=
  issue (.bra o g) s (fun c s1 =>
    s1.setGroup c.gid (c.g.setPcBy c.lanes (fun l => if c.part.getLsbD l then c.target o else c.next)))

/-- CALL: the link goes to v8 (23 R325). -/
def execCall (o : BitVec 21) (g : BitVec 4) (s : State) : Out State :=
  issue (.call o g) s (fun c s1 =>
    let r := c.g.vsetBy c.part 8 (fun _ => BitVec.ofNat 32 c.next)
    s1.setGroup c.gid (r.setPcBy c.lanes (fun l => if c.part.getLsbD l then c.target o else c.next)))

/-- An indirect branch to the offset each participating lane holds in a register, with or without a link (22 R324). -/
def indirect (i : Instr) (a : Nat) (link : Bool) (s : State) : Out State :=
  issue i s (fun c s1 =>
    match (lanesOf c.part).find? (fun l => (c.g.vget a l).getLsbD 0) with
    | some l => c.failLane s1 l { code := cMisaligned, addr := add64 (s1.gridOf c.g).r.codeBase (c.g.vget a l).toNat, detail := 2 }
    | none =>
      let r := if link then c.g.vsetBy c.part 8 (fun _ => BitVec.ofNat 32 c.next) else c.g
      s1.setGroup c.gid (r.setPcBy c.lanes (fun l => if c.part.getLsbD l then (c.g.vget a l).toNat else c.next)))

/-- BRX (22 R324). -/
def execBrx (a : BitVec 7) (g : BitVec 4) (s : State) : Out State :=
  indirect (.brx a g) a.toNat false s

/-- CALLX: the target is read before v8 is written (23 R326). -/
def execCallx (a : BitVec 7) (g : BitVec 4) (s : State) : Out State :=
  indirect (.callx a g) a.toNat true s

/-- RET: BRX v8 (25 R369). -/
def execRet (g : BitVec 4) (s : State) : Out State :=
  indirect (.ret g) 8 false s

/-! ## Lanes -/

/-- The last lane of a group has gone: a save routine leaves its slot (02 R44); any other unit ends (02 R40, 09 R173). -/
def State.emptied (s : State) (gid : Nat) : State :=
  match s.groups.get? gid with
  | none => s
  | some g => if g.live ≠ 0 then s else if g.place = .saving then
      (s.setGroup gid { g with pend := [], waits := [], sealSeq := g.sealSeq + 1 }).settleUnit gid
    else s.endUnit gid none

/-- Lanes of a call-out group that EXIT without a CALLRET end their rays; a save routine's EXIT does not (10 R198, 12 R225). -/
def State.leaveCallouts (s : State) (gid : Nat) (g : Group) (part : Mask) : State :=
  if g.kind = .callout ∧ g.place ≠ .saving then
    ((g.rays.filter (fun q => part.getLsbD q.1)).foldl (fun t q => t.failCallout q.2.1 q.2.2 0) s).modGroup gid (fun x => { x with
      rays := x.rays.filter (fun q => !part.getLsbD q.1) })
  else s

/-- EXIT (23 R333, R334). -/
def execExit (g : BitVec 4) (s : State) : Out State :=
  issue (.exit g) s (fun c s1 =>
    let s2 := s1.modGroup c.gid (fun r => { r.setPc (c.lanes &&& ~~~c.part) c.next with live := r.live &&& ~~~c.part })
    if c.part = 0 then s2 else (s2.leaveCallouts c.gid c.g c.part).emptied c.gid)

/-- Lanes of a group that wait for all its lanes, or at a site: those that a pending pre-emption keeps at a TWAIT or a launch wait at one too
(02 R43, R44). -/
def State.convLanes (s : State) (g : Group) : Mask :=
  g.waits.foldl (fun m w => match w.why with
    | .gather | .conv | .site | .repack _ _ => m ||| w.lanes
    | .twait .. | .launch => if s.preempting g then m ||| w.lanes else m
    | _ => m) 0
/-- Every live lane waits for the others (23 R331). -/
def State.allGathered (s : State) (g : Group) : Bool := g.live &&& ~~~(s.convLanes g) == 0
/-- The lanes held at every CONV of a group leave, each path at its next instruction: what one of them waits for, they all wait for. -/
def Group.leaveConvs (g : Group) : Group := g.release (fun w => w.why == .conv)

/-- CONV: lanes wait until every live lane of the group waits for the others, then leave as one path (23 R331). -/
def execConv (g : BitVec 4) (s : State) : Out State :=
  issue (.conv g) s (fun c s1 =>
    if c.part = 0 then c.advance s1
    else if c.prev.isSome then (c.advance s1).modGroup c.gid Group.leaveConvs else
    let s2 := c.waitFor s1 c.part .conv
    s2.modGroup c.gid (fun r => if s2.allGathered r then r.leaveConvs else r))

/-- YIELD (25 R386). -/
def execYield (g : BitVec 4) (s : State) : Out State :=
  issue (.yield g) s (fun c s1 =>
    c.advance (if c.part = 0 then s1 else s1.modGroup c.gid (fun r => { r with yielded := some s1.env.cycle })))

/-- TRAP (12 R222). -/
def execTrap (n : BitVec 7) (g : BitVec 4) (s : State) : Out State :=
  issue (.trap n g) s (fun c s1 =>
    if c.part = 0 then c.advance s1 else c.fail s1 c.part { code := cTrap, addr := 0, detail := n.toNat })

/-- BRK: halts the group when DBG_CTL.BRK_EN is set; lanes gathered at a CONV leave it (12 R222, R223, 23 R331). -/
def execBrk (n : BitVec 7) (g : BitVec 4) (s : State) : Out State :=
  issue (.brk n g) s (fun c s1 =>
    let gr := s1.gridOf c.g
    if c.part = 0 ∨ bit (s1.ctlN .dbgCtl gr.part) 0 = false then c.advance s1 else
    let s2 := (c.advance s1).modGroup c.gid (fun r => { r with
      halted := true
      pcs := (r.waits.filter (fun w => w.why == .conv)).foldl
        (fun m w => (lanesOf w.lanes).foldl (fun m' l => m'.put l ((w.pc + 4) % 2 ^ 32) 0) m) r.pcs
      waits := r.waits.filter (fun w => w.why != .conv) })
    s2.post { ring := 0, code := 3, part := gr.part, w := c.pc, x := c.g.grid, y := (s1.teamOf c.g).index,
              z := c.g.index + 256 * n.toNat })

/-! ## System registers (15 R278) -/

/-- A value that a task or call-out group reads as all ones (15 R278, 09 R172). -/
def Group.orOnes (g : Group) (x : Nat) : W64 := if g.kind = .team then BitVec.ofNat 64 x else BitVec.allOnes 64

/-- SYSR ROLE's value (02 R35). -/
def Role.code : Role → Nat | .loader => 1 | .compute => 2 | .storer => 3

/-- A system register but LANE and TICKET; none for an index that names no register. -/
def State.sysReg (s : State) (g : Group) (n : Nat) : Option W64 :=
  let gr := s.gridOf g
  let t := (s.teamOf g).index
  match n with
  | 0x01 => some (if g.kind = .team then BitVec.ofNat 64 g.index else 0)
  | 0x02 => some (g.orOnes t)
  | 0x03 => some (g.orOnes (t % gr.r.x))
  | 0x04 => some (g.orOnes (t / gr.r.x % gr.r.y))
  | 0x05 => some (g.orOnes (t / gr.r.x / gr.r.y))
  | 0x06 => some (BitVec.ofNat 64 g.core)
  | 0x07 => some (BitVec.ofNat 64 (g.core / 4))
  | 0x08 => some (BitVec.ofNat 64 (dieOfCore g.core))
  | 0x09 => some (BitVec.ofNat 64 s.self)
  | 0x0A => some (BitVec.ofNat 64 g.grid)
  | 0x0B => some (g.orOnes g.role.code)
  | 0x0C => some (BitVec.ofNat 64 g.budget)
  | 0x0D => some (BitVec.ofNat 64 s.podTime)
  | 0x0E => some (BitVec.ofNat 64 s.cycles)
  | 0x0F => some g.fpmode
  | 0x10 => some (s.ctlGet .stepBudget gr.part)
  | 0x11 => some (BitVec.ofNat 64 (0xFC00000000000000 + g.floor))
  | 0x12 => some g.scene
  | _ => none

/-- A neighbour of a part's member in a grid that is lagging and has not been found empty: its index (08 R164). -/
def Grid.laggingNeighbour (g : Grid) : Option Nat :=
  let n := g.r.partCount
  [(g.member + n - 1) % n, (g.member + 1) % n].find? (fun i => i != g.member && bit (g.strag.grid.getD i 0) 48 && g.spent != some i)

/-- A STEAL of this part has had no reply yet; a part has at most one outstanding (21 R305). -/
def State.stealing (s : State) : Bool := s.grids.any (fun e => e.2.stealOut.isSome)

/-- The state in which a grid of this part has asked a lagging neighbour for tickets. -/
def State.askSteal (s : State) (id : Nat) (g : Grid) (victim : Nat) : State :=
  (s.modGrid id (fun x => { x with stealOut := some victim })).send
    { dest := g.r.firstPart + victim, vc := 4, op := 9, words := [id, s.self] }

/-- A TICKET read: a work ticket of the part, all ones, or the reply to a STEAL, its own or the one that is outstanding (08 R154, R158,
21 R305). -/
def ICtx.ticket (c : ICtx) (s : State) (d : Nat) : State :=
  let gr := s.gridOf c.g
  let ones : W64 := BitVec.allOnes 64
  if gr.r.m = 0 ∨ gr.cancelled then c.pendS s .ready d ones [] else
  match drawTicket gr.work (dieOfCore c.g.core) with
  | some (w, stole, t) =>
    let s1 := s.modGrid c.g.grid (fun x => { x with work := w })
    c.pendS (if stole then s1.count .dispDieSteals 0 1 else s1) .ready d (BitVec.ofNat 64 t) []
  | none =>
    if !gr.r.stealable then c.pendS s .ready d ones []
    else if s.stealing then c.pendS s .ticket d ones []
    else match gr.laggingNeighbour with
      | none => c.pendS s .ready d ones []
      | some v => c.pendS (s.askSteal c.g.grid gr v) .ticket d ones []

/-- SYSR into a scalar register; a read of TICKET draws (15 R278, 08 R154). -/
def execSysr (d : BitVec 6) (i : BitVec 7) (g : BitVec 4) (s : State) : Out State :=
  issue (.sysr d i g) s (fun c s1 =>
    if c.part = 0 then c.advance s1
    else if i = 0x13 then c.ticket s1 d.toNat
    else match s1.sysReg c.g i.toNat with
      | none => c.illegal s1 c.part
      | some x =>
        if c.g.stackOk d.toNat x then c.step s1 (fun r => r.sset d.toNat x)
        else c.fail s1 c.part { code := cStack, addr := x.toNat, detail := 0 })

/-- SYSR into a vector register: bits [31:0] in each participating lane; LANE gives the lane (15 R278). -/
def execSysrV (d : BitVec 6) (i : BitVec 7) (g : BitVec 4) (s : State) : Out State :=
  issue (.sysrV d i g) s (fun c s1 =>
    if i = 0 then c.step s1 (fun r => r.vsetBy c.part d.toNat (fun l => BitVec.ofNat 32 l))
    else match s1.sysReg c.g i.toNat with
      | none => c.illegal s1 c.part
      | some x => c.step s1 (fun r => r.vsetBy c.part d.toNat (fun _ => x.setWidth 32)))

/-- SYSW: FPMODE keeps its reserved bits 0, SCENE holds multiples of 64; a refused value is ILLEGAL_INSTRUCTION (15 R278). -/
def execSysw (d : BitVec 6) (i : BitVec 7) (g : BitVec 4) (s : State) : Out State :=
  issue (.sysw d i g) s (fun c s1 =>
    let x := c.sget d.toNat
    if c.part = 0 then c.advance s1
    else if i = 0x0F then
      if x &&& ~~~(0x33 : W64) = 0 then c.step s1 (fun r => { r with fpmode := x }) else c.illegal s1 c.part
    else if x.toNat % 64 = 0 then c.step s1 (fun r => { r with scene := x }) else c.illegal s1 c.part)

/-- RDTIME: pod time; the scoreboard holds it until every item of its lanes has landed (25 R364). -/
def execRdtime (d : BitVec 6) (g : BitVec 4) (s : State) : Out State :=
  issue (.rdtime d g) s (fun c s1 =>
    let x := BitVec.ofNat 64 s1.podTime
    if c.part = 0 then c.advance s1
    else if c.g.stackOk d.toNat x then c.step s1 (fun r => r.sset d.toNat x)
    else c.fail s1 c.part { code := cStack, addr := x.toNat, detail := 0 })

end Sys2Proof.Machine
end

