-- ==== Sys2Proof/Machine/Launch.lean ====
section
/-! DEFINITION. Launch records, holds, reservation and the tickets of grids (02 R20 to R23, R35, R42; 05 R99 to R102;
08 R144 to R158, R164, R165; 09 R180; 20 R300; 24 R345). -/
namespace Sys2Proof.Machine

/-! ## Reads and checks that a dispatcher makes (08 R145) -/

/-- `n` bytes at a global address that the T9 reads for itself, checked as an access of a group is. -/
def State.readVa (s : State) (a : Acc) (va n align : Nat) : Except FaultInfo Nat :=
  if windowOf va ≠ .glb then .error { code := cRange, addr := va, detail := 0 }
  else if !canonical va then .error { code := cNoncanonical, addr := va, detail := 0 }
  else if va % align ≠ 0 then .error { code := cMisaligned, addr := va, detail := n }
  else
    match (pagePieces (n / 4096 + 2) va n).mapM (fun q => (s.translate a .load q.1).map (fun l => (l, q.2))) with
    | .error f => .error f
    | .ok ps =>
      let segs := segsOf s.env.freeCtr ps
      match segs.findSome? (fun q => s.mem.poisonAt q.key q.len) with
      | some p => .error (eccAt va p)
      | none => .ok (s.segView segs)

/-- The state after the T9 has made such reads, each an address and a number of bytes: `State.readVa` says what they give. -/
def State.sawAll (s : State) (a : Acc) (l : List (Nat × Nat)) : State :=
  ((l.map (fun q => pagePieces (q.2 / 4096 + 2) q.1 q.2)).flatten).foldl (fun t q => t.ownSaw a q.1 q.2) s

/-- `n` bytes at a global address may be written by the T9 (08 R145). -/
def State.writable (s : State) (a : Acc) (va n align : Nat) : Bool :=
  decide (windowOf va = .glb) && canonical va && va % align == 0 &&
  (pagePieces (n / 4096 + 2) va n).all (fun q => canonical q.1 && (s.translate a .store q.1).toOption.isSome)

/-! ## Records and headers -/

/-- A launch record from its 128 bytes (08 R144). The cluster size of the reserved code is 8. -/
def recordOf (addr w : Nat) : LaunchRec :=
  let f (o n : Nat) : Nat := w / 2 ^ (8 * o) % 2 ^ (8 * n)
  let a := f 0x08 8
  let c := f 0x18 8
  { addr := addr, codeBase := f 0 8, entry := bits a 31 0, coRes := bit a 32, pod := bit a 33, cancelOnFault := bit a 34,
    strict := bit a 35, stealable := bit a 36, cls := bits a 39 37, prio := bits a 47 40, x := f 0x10 4, y := f 0x14 2,
    z := f 0x16 2, groups := bits c 3 0, cset := 2 ^ bits c 5 4, budL := bits c 15 8, budC := bits c 23 16,
    budS := bits c 31 24, scr := 1024 * bits c 47 32, tiles := bits c 52 48, argp := f 0x20 8, holdp := f 0x28 8,
    schedp := f 0x30 8, cw := f 0x38 8, fa := f 0x40 8, hdrp := f 0x48 8, firstPart := f 0x50 4, partCount := f 0x54 4,
    streak := f 0x58 2, m := f 0x5A 2, lag := f 0x5C 4, stack := f 0x60 4, priv := f 0x64 4, ring := f 0x68 8,
    strag := f 0x78 8 }

/-- A reserved bit of a record is set, the ring word's included (08 R144, 09 R179). -/
def recordReserved (w : Nat) : Bool :=
  let f (o n : Nat) : Nat := w / 2 ^ (8 * o) % 2 ^ (8 * n)
  bits (f 0x08 8) 63 48 != 0 || bits (f 0x18 8) 7 6 != 0 || bits (f 0x18 8) 63 53 != 0 ||
  bits (f 0x68 8) 63 40 != 0 || bits (f 0x68 8) 7 3 != 0

/-- A kernel header from its 64 bytes (02 R42). -/
def hdrOf (w : Nat) : Hdr :=
  let f (o n : Nat) : Nat := w / 2 ^ (8 * o) % 2 ^ (8 * n)
  { roles := bit (f 4 4) 0, eL := f 8 4, eC := f 0xC 4, eS := f 0x10 4, nL := f 0x14 1, nC := f 0x15 1, nS := f 0x16 1,
    sites := f 0x18 4, saveBytes := f 0x1C 4, table := f 0x20 8 }

/-- A kernel header breaks 02 R35 or R42. Its reserved bits are ignored: R42 gives no rule for them (00 R5). -/
def hdrBad (w groups : Nat) : Bool :=
  let f (o n : Nat) : Nat := w / 2 ^ (8 * o) % 2 ^ (8 * n)
  let h := hdrOf w
  f 0 4 != 1 || decide (65535 < h.sites) || h.saveBytes % 64 != 0 ||
  h.table % 16 != 0 || (h.roles && h.nL + h.nC + h.nS != groups)

/-- A register budget (02 R22). -/
def budgetOk (b : Nat) : Bool := decide (16 ≤ b) && decide (b ≤ 128) && b % 8 == 0

/-- A signed stride as a number modulo 2^64. -/
def schedOf (w : Nat) : Sched := { n := bits w 31 0, teamStride := bits w 127 64, roundStride := bits w 191 128 }

/-- The checks of 08 R145 on a record after its completion word and fault area, holds apart: the headers, or the fault. -/
def State.launchCheck (s : State) (a : Acc) (w : Nat) (r : LaunchRec) (podOk : Bool) : Except FaultInfo (Hdr × Sched) :=
  let ill : FaultInfo := { code := cIllegal, addr := 0, detail := 0 }
  match s.readVa a r.hdrp 64 64, (if r.schedp = 0 then .ok 1 else s.readVa a r.schedp 32 1) with
  | .error f, _ => .error f
  | _, .error f => .error f
  | .ok hw, .ok sw =>
    let h := hdrOf hw
    let budgets := if h.roles then [r.budL, r.budC, r.budS] else [r.budC]
    match budgets.find? (fun b => !budgetOk b) with
    | some b => .error { code := cRegister, addr := 0, detail := b + 2 ^ 10 }
    | none =>
      if r.priv % 16 ≠ 0 ∨ 0x00FFFFF0 < r.priv ∨ r.stack % 16 ≠ 0 ∨ r.priv < r.stack then
        .error { code := cStack, addr := 0, detail := 0 }
      else if recordReserved w ∨ r.x = 0 ∨ r.y = 0 ∨ r.z = 0 ∨ r.groups = 0 ∨ 8 < r.groups ∨ r.cset = 8 ∨ 768 * 1024 < r.scr ∨
          16 < r.tiles ∨ 3 < r.cls ∨ hdrBad hw r.groups ∨
          (r.schedp ≠ 0 ∧ (bits sw 31 0 = 0 ∨ 4096 < bits sw 31 0 ∨ bits sw 63 32 ≠ 0 ∨ bits sw 255 192 ≠ 0)) then .error ill
      else if !podOk then .error ill
      else if (r.m ≠ 0 ∧ !r.coRes) ∨ 2 ^ 48 ≤ r.x * r.y * r.z ∨ 2 ^ 48 ≤ r.x * r.y * r.z * r.m then .error ill
      else .ok (h, schedOf sw)

/-- The headers that those checks read. -/
def LaunchRec.reads (r : LaunchRec) : List (Nat × Nat) := (r.hdrp, 64) :: (if r.schedp = 0 then [] else [(r.schedp, 32)])

/-! ## Holds (05 R99 to R101) -/

/-- The entries of a hold list up to its end, as base and length word. -/
def State.holdEntries (s : State) (a : Acc) (p : Nat) : Nat → Except FaultInfo (List (Nat × Nat))
  | 0 => .ok []
  | f + 1 =>
    match s.readVa a p 16 16 with
    | .error e => .error e
    | .ok w =>
      if bits w 103 64 = 0 then .ok []
      else match s.holdEntries a (p + 16) f with
        | .error e => .error e
        | .ok r => .ok ((bits w 63 0, bits w 127 64) :: r)

/-- The entries that a dispatcher reads of a hold list with so many entries before its end. -/
def holdReads (p n : Nat) : List (Nat × Nat) :=
  if p = 0 then [] else (List.range (min 16 (n + 1))).map (fun i => (p + 16 * i, 16))

/-- A hold list read and checked: its extents (05 R99, R100). The size in the detail of MISALIGNED is an entry's (log 45). -/
def State.holdList (s : State) (a : Acc) (p : Nat) : Except FaultInfo (List Extent) :=
  if p = 0 then .ok []
  else if p % 16 ≠ 0 then .error { code := cMisaligned, addr := p, detail := 16 }
  else match s.holdEntries a p 16 with
  | .error e => .error e
  | .ok es =>
    match es.find? (fun e => e.1 % 4096 != 0 || bits e.2 39 0 % 4096 != 0 || bits e.2 63 41 != 0) with
    | some e => .error { code := cMisaligned, addr := e.1, detail := 16 }
    | none =>
      match es.find? (fun e => !canonical e.1 || !canonical (add64 e.1 (bits e.2 39 0 - 1))) with
      | some e => .error { code := cNoncanonical, addr := e.1, detail := 0 }
      | none => .ok (es.map (fun e => { base := e.1, len := bits e.2 39 0, write := bit e.2 40 }))

/-- The pages of extents, with whether write is wanted. -/
def holdPages (es : List Extent) : List (Nat × Bool) :=
  (es.map (fun e => (List.range (e.len / 4096)).map (fun i => (add64 e.base (4096 * i), e.write)))).flatten

/-- What taking holds comes to, each with the state after the attempt: pages are awaited, the pool is short, a fault, or the holds are
taken. -/
inductive HoldRes where
  | waits (s : State)
  | short (s : State)
  | fails (s : State) (f : FaultInfo)
  | taken (s : State)

/-- A presence request posted to the space's pager queue (05 R100, 13 R239). `level`: where the walk found no entry. -/
def State.askPresence (s : State) (a : Acc) (va level : Nat) (write : Bool) : State :=
  if s.mmu.asked.any (fun q => q.task == a.task && q.owner == a.owner && q.part == a.part && q.asid == a.asid && q.va == va && !q.granted)
  then s else
  let n := s.mmu.seqs.getD a.part 0 + 1
  let q : Presence := { part := a.part, seq := n, asid := a.asid, va := va, level := level, task := a.task, owner := a.owner,
                        since := s.env.cycle, granted := false }
  { s with mmu := { s.mmu with
      asked := s.mmu.asked ++ [q]
      seqs := s.mmu.seqs.set a.part n } }.post
    { ring := spaceKey a.part a.asid + 1, code := 1, part := a.part, w := n, x := va, y := a.asid % 65536 + (if write then 65536 else 0),
      z := 0 }

/-- The level at which a walk finds no leaf; none where it finds one. -/
def State.absentAt (s : State) (a : Acc) (va : Nat) : Option Nat :=
  match s.walk a.part a.root va with
  | .ok _ => none
  | .error e => some e.2

/-- The leaf of a page for a hold: a walk's. -/
def State.holdLeaf (s : State) (a : Acc) (va : Nat) : Option Leaf := (s.walk a.part a.root va).toOption

/-- The end of a unit's wait for presence: the time is counted on the die that takes its holds, and its requests are forgotten
(05 R103). -/
def State.endAsking (s : State) (a : Acc) (die : Nat) : State :=
  let mine (q : Presence) : Bool := q.task == a.task && q.owner == a.owner && q.part == a.part && q.asid == a.asid
  let first := ((s.mmu.asked.filter mine).map (·.since)).foldl min s.env.cycle
  let s1 := s.count .holdFillNs die (nsOf (s.env.cycle - first))
  { s1 with mmu := { s1.mmu with asked := s1.mmu.asked.filter (fun q => !mine q) } }

/-- The holds of a work unit taken by a die, when every page is present: each page's leaf is written to its place of the hold map (05 R100,
13 R238; log 104). Each attempt walks for every page (05 R103). -/
def State.tryHolds (s : State) (a : Acc) (ctx die : Nat) (es : List Extent) : HoldRes :=
  let pages := holdPages es
  let s0 := pages.foldl (fun t p => t.noteWalk a die p.1) s
  let missing := pages.filterMap (fun p => (s.absentAt a p.1).map (fun lv => (p, lv)))
  if !missing.isEmpty then .waits (missing.foldl (fun t q => t.askPresence a q.1.1 q.2 q.1.2) s0) else
  let leafs := pages.filterMap (fun p => (s.holdLeaf a p.1).map (fun l => (p.1, p.2, l)))
  let s1 := s0.endAsking a die
  match leafs.find? (fun q => q.2.1 && !bit q.2.2.pte 1) with
  | some q => .fails s1 { code := cWriteProtect, addr := q.1, detail := pfDetail 0 q.2.2.level }
  | none =>
    match leafs.find? (fun q => isRemote q.2.2.pte && !(coh q.2.2.pte == 1 && decide (homeF q.2.2.pte ≤ 1))) with
    | some q => .fails s1 { code := cRemote, addr := q.1, detail := bits q.2.2.pte 63 52 }
    | none =>
      let k := a.part * 2 + ctx
      let pool := (s.disp.ctxs.get? k).map (·.hold)
      let free := match pool with | some p => p.size - p.used | none => 0
      if free < 8 * leafs.length then .short s1 else
      let new : List Held := (leafs.zip (s1.mapSlots a.part ctx leafs.length)).map (fun q =>
        { part := a.part, ctx := ctx, asid := a.asid, page := q.1.1 % 2 ^ 57 / 4096, leaf := q.1.2.2, task := a.task, owner := a.owner,
          slot := q.2 })
      let s2 := new.foldl (fun t h => t.lateStore (ownAsk a.part true)
        { part := a.part, key := physKey (t.holdMap h), n := 8, w := h.leaf.pte, add := false }) s1
      .taken { s2 with
        mmu := { s2.mmu with held := s2.mmu.held ++ new }
        disp := { s2.disp with ctxs := s2.disp.ctxs.modify k (fun c => { c with
          hold := { c.hold with used := c.hold.used + 8 * leafs.length } }) } }

/-! ## Room on a core (02 R21) -/

/-- The registers that a group's unit takes for each lane of its quarter (02 R21). -/
def State.unitRegs (s : State) (g : Group) : Nat := if g.kind = .team then (s.gridOf g).maxBudget else g.budget

/-- Slots and registers that a group holds in its quarter: an adopted task runs in its waiter's slot and registers; a team's register space is
freed when every group of it has been taken (12 R225). -/
def State.groupUse (s : State) (g : Group) : Nat × Nat :=
  match g.place with
  | .resident | .saving | .ending none => (1, if g.parent.isSome then 0 else s.unitRegs g)
  | .framed => (0, if g.parent.isSome then 0 else s.unitRegs g)
  | .taken => (0, if g.kind = .team ∧ !(s.teamOf g).saved then s.unitRegs g else 0)
  | .parked | .ending (some _) => (0, 0)

/-- A reserved place as a number: core, and the quarter of its first group. -/
def packPlace (core q0 : Nat) : Nat := 4 * core + q0

/-- The groups that a team to come puts into a quarter. -/
def groupsIn (groups q0 q : Nat) : Nat := ((List.range groups).filter (fun i => (q0 + i) % 4 == q)).length

/-- Slots and registers in use in a quarter of a core: groups there, slots that teams keep for ended groups, places reserved for
co-resident teams, and teams to be admitted. -/
def State.quarterUse (s : State) (core q : Nat) : Nat × Nat :=
  let add (a b : Nat × Nat) : Nat × Nat := (a.1 + b.1, a.2 + b.2)
  let gs := (s.groups.filter (fun e => e.2.core == core && e.2.quarter == q && s.current (s.gridOf e.2))).map (fun e => s.groupUse e.2)
  let ts := (s.teams.filter (fun e => e.2.core == core && !e.2.saved)).map (fun e =>
    let g := (s.grids.get? e.2.grid).getD noGrid
    let n := if s.current g then (e.2.gone.filter (fun x => x.2 == q)).length else 0
    (n, n * g.maxBudget))
  let rs := (s.grids.map (fun e => if s.current e.2 then (e.2.reserved.filter (fun r => r.2 / 4 == core)).map (fun r =>
    let n := groupsIn e.2.r.groups (r.2 % 4) q
    (n, n * e.2.maxBudget)) else [])).flatten
  let ws := (s.disp.admits.filter (fun a => a.1 / 4 == core)).map (fun a =>
    let g := (s.grids.get? a.2.1).getD noGrid
    let n := if s.current g then groupsIn g.r.groups (a.1 % 4) q else 0
    (n, n * g.maxBudget))
  (gs ++ ts ++ rs ++ ws).foldl add (0, 0)

/-- Scratchpad bytes and tiles in use on a core. -/
def State.coreUse (s : State) (core : Nat) : Nat × Nat :=
  let add (a b : Nat × Nat) : Nat × Nat := (a.1 + b.1, a.2 + b.2)
  let ts := (s.teams.filter (fun e => e.2.core == core && !e.2.saved && s.current ((s.grids.get? e.2.grid).getD noGrid))).map
    (fun e => (e.2.scr, e.2.tiles))
  let rs := (s.grids.map (fun e => if s.current e.2 then (e.2.reserved.filter (fun r => r.2 / 4 == core)).map
    (fun _ => (e.2.r.scr, e.2.r.tiles)) else [])).flatten
  let ws := (s.disp.admits.filter (fun a => a.1 / 4 == core && s.current ((s.grids.get? a.2.1).getD noGrid))).map (fun a =>
    let g := (s.grids.get? a.2.1).getD noGrid
    (g.r.scr, g.r.tiles))
  (ts ++ rs ++ ws).foldl add (0, 0)

/-- The slots and registers of a core hold a team of a grid with its first group in a quarter. -/
def State.slotsFit (s : State) (g : Grid) (core q0 : Nat) : Bool :=
  (List.range 4).all (fun q =>
    let u := s.quarterUse core q
    let n := groupsIn g.r.groups q0 q
    decide (u.1 + n ≤ 16) && decide (u.2 + n * g.maxBudget ≤ 1024))

/-- A team of a grid fits on a core with its first group in a quarter. -/
def State.fitsAt (s : State) (g : Grid) (core q0 : Nat) : Bool :=
  s.slotsFit g core q0 &&
  decide ((s.coreUse core).1 + g.r.scr ≤ 768 * 1024) && decide ((s.coreUse core).2 + g.r.tiles ≤ 16)

/-- The first quarter that a core chooses for a team: the one with the fewest groups among those that fit (log 29). -/
def State.fit (s : State) (g : Grid) (core : Nat) : Option Nat :=
  leastBy (fun q => (s.quarterUse core q).1) ((List.range 4).filter (s.fitsAt g core))

/-! ## Reservation (08 R150) -/

/-- Cores of a partition on a die. -/
def State.coresOn (s : State) (part die : Nat) : List Nat := (s.coresOf part).filter (fun c => dieOfCore c == die)

/-- Places for the teams of one unit (a team, or a set on one cluster) among cores that stand in ascending order: the grid with
them reserved. The lowest-numbered core or cluster that fits is taken: 08 R150 names only the die (DESIGN CHOICE, log 29). -/
def State.placeUnit (s : State) (id : Nat) (teams : List Nat) (cores : List Nat) : Option State :=
  match s.grids.get? id with
  | none => none
  | some g =>
    if g.r.cset = 1 then
      match cores.find? (fun c => (s.fit g c).isSome) with
      | none => none
      | some c => some (s.setGrid id { g with reserved := g.reserved ++ teams.map (fun t => (t, packPlace c ((s.fit g c).getD 0))) })
    else
      let clusters := (cores.map (· / 4)).eraseDups
      match clusters.find? (fun k => decide (teams.length ≤
          ((List.range 4).filter (fun j => cores.contains (4 * k + j) && (s.fit g (4 * k + j)).isSome)).length)) with
      | none => none
      | some k =>
        let cs := (List.range 4).filterMap (fun j => if cores.contains (4 * k + j) then (s.fit g (4 * k + j)).map (packPlace (4 * k + j)) else none)
        some (s.setGrid id { g with reserved := g.reserved ++ teams.zip cs })

/-- The teams of a ticket: a team, or a set (02 R20, 08 R152). -/
def Grid.teamsOf (g : Grid) (ticket : Nat) : List Nat :=
  ((List.range g.r.cset).map (ticket * g.r.cset + ·)).filter (fun t => decide (t < g.teams))

/-- Places for a list of units, each dealt to a die: its own die first, then the lowest sibling that can hold it, each taken as it comes. -/
def State.placeEach (s : State) (id part : Nat) : List (Nat × List Nat) → Option State
  | [] => some s
  | (die, teams) :: t =>
    let dies := die :: (List.range 4).filter (· != die)
    match dies.findSome? (fun d => s.placeUnit id teams (s.coresOn part d)) with
    | none => none
    | some s1 => State.placeEach s1 id part t

/-! ### A search that fails only where the cores cannot hold the share (08 R150)

The teams of a grid are alike, so that what a core can take is a number of them. Sets take the cores of a cluster that have most room, which
leaves room for the most sets; and where the last set is smaller than the others, each cluster is tried as its host. -/

/-- Teams that begin in each of the four quarters of a core fit into what the quarters have left, as groups. -/
def packs (groups : Nat) (room ns : List Nat) : Bool :=
  (List.range 4).all (fun q => decide ((ns.zipIdx.map (fun e => e.1 * groupsIn groups e.2 q)).foldl (· + ·) 0 ≤ room.getD q 0))

/-- How many of `n` teams begin in each quarter, where they fit. -/
def packing (groups n : Nat) (room : List Nat) : Option (List Nat) :=
  (List.range (n + 1)).findSome? (fun a => (List.range (n + 1 - a)).findSome? (fun b => (List.range (n + 1 - a - b)).findSome? (fun c =>
    let l := [a, b, c, n - a - b - c]
    if packs groups room l then some l else none)))

/-- The groups of a grid that each quarter of a core can still take. -/
def State.quarterRoom (s : State) (g : Grid) (core : Nat) : List Nat :=
  (List.range 4).map (fun q => min (16 - (s.quarterUse core q).1) ((1024 - (s.quarterUse core q).2) / g.maxBudget))

/-- The teams of a grid that a core can still take. -/
def State.teamRoom (s : State) (g : Grid) (core : Nat) : Nat :=
  let u := s.coreUse core
  let most := min (if g.r.scr = 0 then 64 else (768 * 1024 - u.1) / g.r.scr) (if g.r.tiles = 0 then 64 else (16 - u.2) / g.r.tiles)
  ((List.range (most + 1)).reverse.find? (fun n => (packing g.r.groups n (s.quarterRoom g core)).isSome)).getD 0

/-- The cores that a unit of `n` teams takes, with what each core has left; `keep`: a cluster that must keep so many cores with room. -/
def planUnit (cset : Nat) (keep : Option (Nat × Nat)) (die n : Nat) (room : List (Nat × Nat)) : Option (List Nat × List (Nat × Nat)) :=
  let lower (cs : List Nat) : List (Nat × Nat) := room.map (fun q => if cs.contains q.1 then (q.1, q.2 - 1) else q)
  (die :: (List.range 4).filter (· != die)).findSome? (fun d =>
    let here := room.filter (fun q => dieOfCore q.1 == d && decide (0 < q.2))
    if cset = 1 then here.head?.map (fun q => ([q.1], lower [q.1]))
    else ((here.map (·.1 / 4)).eraseDups).findSome? (fun k =>
      let live := here.filter (fun q => q.1 / 4 == k)
      let best := ((List.range 65).reverse.map (fun r => live.filter (fun q => q.2 == r))).flatten
      let cs := (best.take n).map (·.1)
      let left := lower cs
      let kept := (left.filter (fun q => q.1 / 4 == k && decide (0 < q.2))).length
      let free : Bool := match keep with
        | some (host, m) => if n < cset then host == k else host != k || decide (m ≤ kept)
        | none => true
      if cs.length < n || !free then none else some (live.filterMap (fun q => if cs.contains q.1 then some q.1 else none), left)))

/-- The cores that the teams of units take. -/
def planUnits (cset : Nat) (keep : Option (Nat × Nat)) : List (Nat × List Nat) → List (Nat × Nat) → Option (List (Nat × Nat))
  | [], _ => some []
  | (die, teams) :: t, room =>
    match planUnit cset keep die teams.length room with
    | none => none
    | some (cs, left) => (planUnits cset keep t left).map (fun l => teams.zip cs ++ l)

/-- A plan for units, whose last may be smaller than the others. -/
def planAll (cset : Nat) (units : List (Nat × List Nat)) (room : List (Nat × Nat)) : Option (List (Nat × Nat)) :=
  match planUnits cset none units room with
  | some l => some l
  | none =>
    match units.getLast? with
    | none => none
    | some (die, teams) =>
      if cset ≤ teams.length then none else
      let clusters := (room.map (·.1 / 4)).eraseDups
      let own := clusters.filter (fun k => k / 12 == die) ++ clusters.filter (fun k => k / 12 != die)
      own.findSome? (fun k => planUnits cset (some (k, teams.length)) units room)

/-- The quarter in which each of a core's planned teams begins. -/
def State.quartersFor (s : State) (g : Grid) (core n : Nat) : List Nat :=
  match packing g.r.groups n (s.quarterRoom g core) with
  | some l => (l.zipIdx.map (fun e => List.replicate e.1 e.2)).flatten
  | none => []

/-- Places for a list of units, each dealt to a die; none only where no placement holds them all (08 R150). -/
def State.placeAll (s : State) (id part : Nat) (units : List (Nat × List Nat)) : Option State :=
  match s.placeEach id part units with
  | some s1 => some s1
  | none =>
    let g := (s.grids.get? id).getD noGrid
    let cores := s.coresOf part
    match planAll g.r.cset units (cores.map (fun c => (c, s.teamRoom g c))) with
    | none => none
    | some plan =>
      let places := (cores.map (fun c =>
        let ts := (plan.filter (fun q => q.2 == c)).map (·.1)
        (ts.zip (s.quartersFor g c ts.length)).map (fun q => (q.1, packPlace c q.2)))).flatten
      some (s.setGrid id { g with reserved := g.reserved ++ places })

/-! ## Dealing (08 R152) -/

/-- How many tickets each of some shares holds. -/
def shares (n : Nat) (ws : List Nat) : List Nat :=
  let w := ws.foldl (· + ·) 0
  let base := ws.map (fun x => n * x / w)
  let rest := n - base.foldl (· + ·) 0
  base.zipIdx.map (fun q => if ws.getD q.2 0 ≠ 0 ∧ ((ws.take q.2).filter (· != 0)).length < rest then q.1 + 1 else q.1)

/-- Shares as ranges from a first ticket on. -/
def rangesFrom (lo : Nat) : List Nat → List (Nat × Nat)
  | [] => []
  | n :: t => (lo, lo + n) :: rangesFrom (lo + n) t

/-- The cores that a part's partition holds: 192 in whole mode, 24 in partitioned mode. The mode of another part is its own (log 36). -/
def State.partWeight (s : State) (id p : Nat) : Nat :=
  if (if p = s.self then s.disp.whole else Config.wholeMode p id) then 192 else 24

/-- This part's range of `n` tickets of a grid. -/
def State.partRange (s : State) (id : Nat) (g : Grid) (n : Nat) : Nat × Nat :=
  if g.r.pod then
    (rangesFrom 0 (shares n ((List.range g.r.partCount).map (fun i => s.partWeight id (g.r.firstPart + i))))).getD g.member (0, 0)
  else (0, n)

/-- A range dealt to the dies of a partition. -/
def State.dealDies (s : State) (part : Nat) (r : Nat × Nat) : List (Nat × Nat) :=
  rangesFrom r.1 (shares (r.2 - r.1) ((List.range 4).map (s.weight part)))

/-- The number of tickets of a grid's teams: teams, or sets. -/
def Grid.unitCount (g : Grid) : Nat := ceilDiv g.teams g.r.cset

/-- A co-resident grid has reserved its barrier state on this part (08 R150). -/
def State.hasBarriers (s : State) (g : Grid) : Bool :=
  s.namedHere g && (g.state == .runs || g.state == .reserved || (g.state == .replies && g.replies.any (fun r => r.1 == s.self)))

/-- The state in which a grid's part can start: counters dealt; a co-resident grid's teams are placed, or it fails (08 R150). -/
def State.reserveGrid (s : State) (id : Nat) : Option State :=
  match s.grids.get? id with
  | none => none
  | some g =>
    let tickets := s.dealDies g.part (s.partRange id g g.unitCount)
    let work := s.dealDies g.part (s.partRange id g (g.teams * g.r.m))
    if !g.r.coRes then some (s.setGrid id { g with tickets := tickets }) else
    if 32 ≤ (s.grids.filter (fun e => e.1 != id && e.2.r.coRes && e.2.part == g.part && s.hasBarriers e.2)).length then none else
    let units := (tickets.zipIdx.map (fun q => (List.range (q.1.2 - q.1.1)).map (fun i => (q.2, g.teamsOf (q.1.1 + i))))).flatten
    (s.setGrid id { g with work := work }).placeAll id g.part units

/-! ## The end of a grid (08 R147) -/

/-- The completion word: STATUS and the teams retired on every part. -/
def Grid.count (g : Grid) : Nat := g.retired + g.others

/-- The state with a grid's completion word written. -/
def State.writeCw (s : State) (id : Nat) : State :=
  match s.grids.get? id with
  | none => s
  | some g => if g.launcher then s.lateWrite (g.acc id) g.r.cw 8 (g.status * 2 ^ 56 + g.count) else s

/-- A grid ends with a status: its completion word is written, and holds of it that this part still has are released
(05 R101, 12 R387; log 38). -/
def State.endGrid (s : State) (id status : Nat) : State :=
  match s.grids.get? id with
  | none => s
  | some g =>
    ((s.setGrid id { g with
      status := status
      state := .done
      reserved := []
      bars := [] }).writeCw id).releaseHolds false id g.part g.asid

/-- A launch that runs no team ends with status 3 and one record, written in the manner of 02 R22. -/
def State.failGrid (s : State) (id : Nat) (f : FaultInfo) : State :=
  (s.recordFault id { code := f.code, kind := 4, lane := 0, group := 0, team := 0, launch := id, addr := f.addr, pc := 0,
                      detail := f.detail }).endGrid id 3

/-- A launch that could not reserve: status 4, or 2 when it was cancelled (08 R150, R158). -/
def State.unreserved (s : State) (id : Nat) : State :=
  match s.grids.get? id with
  | none => s
  | some g => if g.cancelled then s.endGrid id 2 else (s.count .dispReserveFailed 0 1).endGrid id 4

/-! ## Replies (08 R151, 13 R244) -/

/-- A fault as one number of a REFUSE message: code, detail, address. -/
def packFault (f : FaultInfo) : Nat := f.code + f.detail % 2 ^ 32 * 2 ^ 8 + f.addr * 2 ^ 40
/-- The fault that a REFUSE message names; none for 0. -/
def unpackFault (w : Nat) : Option FaultInfo :=
  if w = 0 then none else some { code := w % 256, addr := w / 2 ^ 40 % 2 ^ 64, detail := w / 2 ^ 8 % 2 ^ 32 }

/-- The read-only caches of a partition's cores are empty for lanes of a grid that starts (07 R135). -/
def State.roFresh (s : State) (part : Nat) : State :=
  { s with mmu := { s.mmu with ro := s.mmu.ro.filter (fun e => !(s.coresOf part).contains (e.1 / 2 ^ 52)) } }

/-- Dispatch starts on this part; the groups of a shading grid are launched then, and counted on the partition's I/O die (11 R215). -/
def State.startGrid (s : State) (id : Nat) : State :=
  match s.grids.get? id with
  | none => s
  | some g => ((s.roFresh g.part).setGrid id { g with state := .runs }).count .matGroups (s.lowDie g.part / 2) g.shades.length

/-- The named parts of a pod grid but this one, told of a step by one message of an operation, which the switches copy to each of them
(14 R261). -/
def State.tellParts (s : State) (id op : Nat) (words : List Nat) (data : Nat) : State :=
  match s.grids.get? id with
  | none => s
  | some g => if s.otherParts g = [] then s else s.send { dest := switches, vc := 4, op := op, words := id :: words, data := some data }

/-- The launching part rolls a grid back: with a hold fault's record and status 3, or status 4 (08 R151). -/
def State.rollBack (s : State) (id : Nat) (hold : Option FaultInfo) : State :=
  let s1 := s.tellParts id 6 [] 0
  match hold with
  | some f => s1.failGrid id f
  | none => s1.unreserved id

/-- Every named part has replied READY. -/
def Grid.allReady (g : Grid) : Bool :=
  (List.range g.r.partCount).all (fun i => g.replies.any (fun r => r.1 == g.r.firstPart + i && r.2 == 1))

/-- The launching part commits a grid when every part is ready. -/
def State.tryCommit (s : State) (id : Nat) : State :=
  match s.grids.get? id with
  | none => s
  | some g =>
    if g.state = .replies ∧ g.launcher ∧ g.allReady then (s.tellParts id 5 [] 0).startGrid id else s

/-- The grids of a gang's command (13 R244). -/
def State.gangGrids (s : State) (cmd : Option (Nat × Nat)) : List (Nat × Grid) :=
  s.grids.filter (fun e => e.2.gang && e.2.cmd == cmd && (e.2.state == .presence || e.2.state == .reserved))

/-- A part of a launch refuses: it ends, or rolls back with the others (08 R150, R151, 13 R244). -/
def State.refuseGrid (s : State) (id : Nat) (hold : Option FaultInfo) : State :=
  match s.grids.get? id with
  | none => s
  | some g =>
    if g.gang then
      let s1 := match hold with | some f => s.failGrid id f | none => s
      (s1.gangGrids g.cmd).foldl (fun s' e => match hold with | some _ => s'.endGrid e.1 3 | none => s'.unreserved e.1) s1
    else if !g.launcher then
      let m : Msg := { dest := id / 2 ^ 52, vc := 4, op := 8, words := [id, s.self, (hold.map packFault).getD 0] }
      { ((s.releaseHolds false id g.part g.asid).send m) with grids := s.grids.erase id }
    else if g.r.pod then s.rollBack id hold
    else match hold with
      | some f => s.failGrid id f
      | none => s.unreserved id

/-- A part of a launch is ready: it starts, replies, or waits for its gang. -/
def State.readyGrid (s : State) (id : Nat) : State :=
  match s.grids.get? id with
  | none => s
  | some g =>
    if g.gang then
      let s1 := s.setGrid id { g with state := .reserved }
      if (s1.gangGrids g.cmd).all (fun e => e.2.state == .reserved) then
        (s1.gangGrids g.cmd).foldl (fun s' e => s'.startGrid e.1) s1
      else s1
    else if !g.launcher then
      (s.setGrid id { g with state := .reserved }).send { dest := id / 2 ^ 52, vc := 4, op := 7, words := [id, s.self] }
    else if g.r.pod then (s.setGrid id { g with replies := g.replies ++ [(s.self, 1)] }).tryCommit id
    else s.startGrid id

/-- Who takes a grid's holds on this part, and the die that takes them: the lowest of its partition (05 R103). -/
def State.gridHolds (s : State) (id : Nat) (g : Grid) : HoldRes := s.tryHolds (g.acc id) g.ctx (s.lowDie g.part) g.extents

/-- A grid of this part takes its holds and reserves, when it can (05 R100, 08 R150). -/
def State.advanceGrid (s : State) (id : Nat) : State :=
  match s.grids.get? id with
  | none => s
  | some g =>
    match s.gridHolds id g with
    | .waits s1 => s1
    | .short s1 => if g.r.coRes then s1.refuseGrid id none else s1
    | .fails s1 f => s1.refuseGrid id (some f)
    | .taken s1 =>
      match s1.reserveGrid id with
      | none => s1.refuseGrid id none
      | some s2 => s2.readyGrid id

/-- A grid of this part that still has to take its holds. -/
def State.awaits (s : State) (g : Grid) : Bool :=
  g.state == .presence || (g.state == .replies && s.namedHere g && !g.replies.any (fun r => r.1 == s.self))

/-! ## Acceptance (08 R145) -/

/-- Who asks for a launch: whose translation reads the record, and where its grid belongs. -/
structure Launcher where
  acc : Acc
  ctx : Nat
  die : Nat
  child : Bool
  podWanted : Bool
  cmd : Option (Nat × Nat)
  gang : Bool
  pend : Option (Nat × Nat)
deriving DecidableEq, Repr

/-- A grid as its acceptance makes it. -/
def newGrid (l : Launcher) (r : LaunchRec) (h : Hdr) (cs : Sched) (s : State) (es : List Extent) : Grid :=
  { noGrid with
    r := r
    h := h
    cs := cs
    asid := l.acc.asid
    root := l.acc.root
    part := l.acc.part
    ctx := l.ctx
    die := l.die
    child := l.child
    cmd := l.cmd
    gang := l.gang
    launcher := true
    member := if r.pod then s.self - r.firstPart else 0
    state := if r.pod then .replies else .presence
    sent := s.env.cycle
    extents := es
    pend := l.pend }

/-- Words of a straggler record written over at acceptance (08 R162). -/
def State.clearStrag (s : State) (a : Acc) (r : LaunchRec) : State :=
  if r.strag = 0 then s else
  let n := if r.pod then r.partCount else 1
  s.lateWords a r.strag ([n, 0, 0, 0, 0, 0, 0, 0] ++ List.replicate (5 * n + 256) 0)

/-- The record of a shading grid: one group for each team, and as many teams as there are shading groups (11 R213). -/
def LaunchRec.shading (r : LaunchRec) (n : Nat) : LaunchRec :=
  { r with
    x := n
    y := 1
    z := 1
    groups := 1 }

/-- A record accepted (08 R145): the launch id, 0 for a dropped grid, and the state after it. A shading grid has its groups; the
grids of a gang's command take their holds together, after the last is accepted. The launcher's holds count for what is read; what the T9
writes goes by 12 R387. The fault area's first 64 bytes are written 0 with the completion word (DESIGN CHOICE, log 102). -/
def State.acceptRecord (s : State) (l : Launcher) (addr w : Nat) (shades : Option (List Shade)) : State × Nat :=
  let r := match shades with | some x => (recordOf addr w).shading x.length | none => recordOf addr w
  let own : Acc := { l.acc with strict := false }
  if !s.writable own r.cw 8 8 || !s.writable own r.fa 2112 64 then (s.count .dispLaunchDropped 0 1, 0) else
  let id := s.self * 2 ^ 52 + s.disp.seq % 2 ^ 52
  let a := l.acc
  let s0 := { s with disp := { s.disp with seq := s.disp.seq + 1 } }
  let s1 := ((s0.lateWrite own r.cw 8 0).lateWrite own (addr + 0x70) 8 id).lateWords own r.fa (List.replicate 8 0)
  let pod := r.pod && l.podWanted
  let podOk := r.pod == l.podWanted &&
    (!pod || (r.partCount != 0 && decide (r.firstPart + r.partCount ≤ 4096)))
  let raw := { (newGrid l r noGrid.h noGrid.cs s1 []) with r := { r with pod := pod } }
  match s1.launchCheck a w (if shades.isSome then r.shading (max 1 r.x) else r) podOk with
  | .error f => (((s1.sawAll a r.reads).setGrid id raw).failGrid id f, id)
  | .ok (h, cs) =>
    let s2 := (s1.sawAll a r.reads).useFree 1
    match s2.holdList a r.holdp with
    | .error f => (((s2.sawAll a (holdReads r.holdp 0)).setGrid id { raw with holdFail := true }).failGrid id f, id)
    | .ok es =>
      let g := { newGrid l r h cs s2 es with shades := shades.getD [] }
      let s3 := (((s2.sawAll a (holdReads r.holdp es.length)).setGrid id g).useFree 1).clearStrag own r
      if pod then
        let words := [g.asid, g.root, addr] ++ (List.range 16).map (fun i => w / 2 ^ (64 * i) % 2 ^ 64)
        let s4 := s3.tellParts id 4 words 128
        (if s4.namedHere g then s4.advanceGrid id else s4, id)
      else (if l.gang then s3 else s3.advanceGrid id, id)

/-- A launch id lands for the group that asked, when it is still there (08 R148, 24 R345). -/
def State.landLaunch (s : State) (gid pend id : Nat) : State :=
  s.modGroup gid (fun g => { g with pend := g.pend.map (fun p => if p.id = pend then
    { p with
      src := .ready
      swrite := BitVec.ofNat 64 id } else p) })

/-! ## LAUNCH, LAUNCHP, CANCEL (08 R148, 23 R327, 24 R345) -/

/-- LAUNCH and LAUNCHP: the record's address takes an entry of the core's pending-launch queue, or the lanes wait. Their release comes before
the entry is taken (07 R130). The time of every wait for an entry counts, however the wait ends (08 R167). Every lane that reaches the site under a pre-emption request waits there (02 R44). -/
def launchOp (i : Instr) (pod : Bool) (d a : Nat) (s : State) : Out State :=
  issue i s (fun c s1 =>
    let va := (c.sget a).toNat
    let gr := s1.gridOf c.g
    let take : State :=
      let full : Bool := decide (4 ≤ (s1.disp.lq.filter (fun e => e.core == c.g.core)).length)
      let ends : Bool := gr.killed && (!c.firstWait .launch || full)
      let s1 := c.metered s1 (fun y => y == .launch && full && !ends)
      if ends then s1.endUnit c.gid none
      else if full then c.waitFor s1 c.part .launch
      else c.released s1 c.part pod (
        let s2 := s1.touch c.g va
        let e : LEntry := { core := c.g.core, addr := va, gid := c.gid, pend := s2.freshId, pod := pod, grid := c.g.grid, asid := gr.asid,
                            strict := c.g.strict, task := c.g.kind == .task, owner := (s1.accOf c.g).owner }
        c.pendS { s2 with disp := { s2.disp with lq := s2.disp.lq ++ [e] } } .launch d 0 [])
    if c.prev.isSome then take
    else if s1.preempting c.g ∧ c.g.place = .resident ∧ c.g.kind ≠ .callout then c.waitFor s1 c.lanes .site
    else if c.part = 0 then c.advance s1
    else if c.g.kind = .callout then c.illegal s1 c.part
    else if windowOf va ≠ .glb then c.fail s1 c.part { code := cRange, addr := va, detail := 0 }
    else match s1.checkAddr c.g (lowLane c.part) va 128 128 .load with
    | .error f => c.fail s1 c.part f
    | .ok _ => take)

/-- LAUNCH (08 R148). -/
def execLaunch (d a : BitVec 6) (g : BitVec 4) (s : State) : Out State :=
  launchOp (.launch d a g) false d.toNat a.toNat s

/-- LAUNCHP (08 R148, 21 R303). -/
def execLaunchp (d a : BitVec 6) (g : BitVec 4) (s : State) : Out State :=
  launchOp (.launchp d a g) true d.toNat a.toNat s

/-- CANCEL and CANCEL.KILL: a running grid of the group's address space. The message that carries one to another part names the space. -/
def cancelOp (i : Instr) (a : Nat) (kill : Bool) (s : State) : Out State :=
  issue i s (fun c s1 =>
    let id := (c.sget a).toNat
    if c.part = 0 then c.advance s1 else
    match s1.grids.get? id with
    | some g => c.advance (if g.asid = (s1.gridOf c.g).asid ∧ g.part = (s1.gridOf c.g).part ∧ g.status = 0 then s1.cancelGrid id kill else s1)
    | none =>
      if id = 0 ∨ id / 2 ^ 52 = s1.self then c.advance s1
      else
        let space := (s1.gridOf c.g).asid % 65536 + 1
        c.advance (s1.send { dest := id / 2 ^ 52, vc := 4, op := 11, words := [id, if kill then 1 else 0, space] }))

/-- CANCEL (08 R148). -/
def execCancel (a : BitVec 6) (g : BitVec 4) (s : State) : Out State :=
  cancelOp (.cancel a g) a.toNat false s

/-- CANCEL.KILL (08 R148, R158). -/
def execCancelKill (a : BitVec 6) (g : BitVec 4) (s : State) : Out State :=
  cancelOp (.cancelKill a g) a.toNat true s

/-! ## The die dispatchers (08 R149) -/

/-- Child grids of a partition that a die runs (08 R149, 18 R300). -/
def State.childGrids (s : State) (die part : Nat) : Nat :=
  (s.grids.filter (fun e => e.2.child && e.2.die == die && e.2.part == part && e.2.status == 0)).length

/-- The oldest entry of a core's queue may be accepted. -/
def State.canAccept (s : State) (e : LEntry) : Bool :=
  e.pod || decide (s.childGrids (dieOfCore e.core) (s.partOfCore e.core) < bits (s.ctlN .dispChildMax (dieOfCore e.core)) 7 0)

/-- The entry that a die accepts next: round-robin by core from its pointer, the oldest of each core. -/
def State.nextEntry (s : State) (die : Nat) : Option LEntry :=
  ((List.range 48).map (fun i => 48 * die + (s.disp.rr.getD die 0 + i) % 48)).findSome? (fun c =>
    match s.disp.lq.find? (fun e => e.core == c) with
    | some e => if s.canAccept e then some e else none
    | none => none)

/-- A grid of a die that waits for its holds and can now go on: its pages are present and the pool has room. -/
def State.nextAwaiting (s : State) (die : Nat) : Option Nat :=
  (s.grids.find? (fun e => e.2.die == die && s.awaits e.2 &&
    (match s.gridHolds e.1 e.2 with
      | .waits _ => false
      | .short _ => e.2.r.coRes
      | _ => true))).map (·.1)

/-- LAUNCH_ACCEPT: a die's dispatcher goes on with a grid whose pages have come, or accepts a pending-launch entry (08 R145,
R149). -/
def execLaunchAccept (die : Nat) (s : State) : Out State :=
  match s.nextAwaiting die with
  | some id => .next (s.advanceGrid id)
  | none =>
    match s.nextEntry die with
    | none => .next s
    | some e =>
      let g := (s.grids.get? e.grid).getD noGrid
      let s1 := { s with disp := { s.disp with
        lq := s.disp.lq.erase e
        rr := s.disp.rr.set die ((e.core - 48 * die + 1) % 48) } }
      let acc : Acc := { g.acc e.grid with
        asid := e.asid
        strict := e.strict
        task := e.task
        owner := e.owner }
      let l : Launcher := { acc := acc, ctx := g.ctx, die := die, child := !e.pod, podWanted := e.pod, cmd := none,
                            gang := false, pend := some (e.gid, e.pend) }
      match s1.readVa acc e.addr 128 128 with
      | .error _ => .next (((s1.sawAll acc [(e.addr, 128)]).count .dispLaunchDropped 0 1).landLaunch e.gid e.pend 0)
      | .ok w =>
        let r := ((s1.sawAll acc [(e.addr, 128)]).useFree 1).acceptRecord l e.addr w none
        .next (r.1.landLaunch e.gid e.pend r.2)

/-! ## The pod-wide start (08 R151) -/

/-- LAUNCH_MULTICAST: a named part receives a record, takes its holds and reserves. `record` is its address and 16 words. A part whose domain
number is not in force answers nothing but management accesses (14 R262). -/
def execLaunchMulticast (launcher id asid root : Nat) (record : List Nat) (s : State) : Out State :=
  if (s.grids.get? id).isSome || id / 2 ^ 52 != launcher || !bit (s.ctlN .fabDomain 0) 63 then .next s else
  let w := (record.drop 1).zipIdx.foldl (fun x q => x + q.1 % 2 ^ 64 * 2 ^ (64 * q.2)) 0
  let r := recordOf (record.headD 0) w
  let sp := (s.mmu.spaces.find? (fun e => e.1 % 65536 == asid % 65536 && e.2.root == root)).map (·.2)
  let acc : Acc := { place := 204, core := 4096, asid := asid, root := root, part := (sp.map (·.part)).getD 0, strict := false,
                     task := false, owner := id }
  let l : Launcher := { acc := acc, ctx := (sp.map (·.ctx)).getD 0, die := s.lowDie acc.part, child := false, podWanted := true,
                        cmd := none, gang := false, pend := none }
  let s1 := ((s.countRx none 128).setGrid id { newGrid l r noGrid.h noGrid.cs s [] with
    launcher := false
    state := .presence }).useFree 1
  let s2 := s1.sawAll acc r.reads
  match s1.launchCheck acc w r true, s1.holdList acc r.holdp with
  | .error _, _ => .next (s2.refuseGrid id none)
  | _, .error f => .next ((s2.sawAll acc (holdReads r.holdp 0)).refuseGrid id (some f))
  | .ok (h, cs), .ok es =>
    .next (((s2.sawAll acc (holdReads r.holdp es.length)).modGrid id (fun g => { g with
      h := h
      cs := cs
      extents := es })).advanceGrid id)

/-- READY: a named part has reserved (08 R151). -/
def execReady (id part : Nat) (s : State) : Out State :=
  match s.grids.get? id with
  | none => .next s
  | some g =>
    if g.state ≠ .replies ∨ !g.launcher ∨ !(s.otherParts g).contains part ∨ g.replies.any (fun r => r.1 == part) then .next s
    else .next (((s.countRx none 16).setGrid id { g with replies := g.replies ++ [(part, 1)] }).tryCommit id)

/-- REFUSE: a named part could not reserve; `hold` packs its hold fault, 0 for another reason (08 R151). -/
def execRefuse (id part hold : Nat) (s : State) : Out State :=
  match s.grids.get? id with
  | none => .next s
  | some g =>
    if g.state ≠ .replies ∨ !g.launcher ∨ !(s.otherParts g).contains part then .next s
    else .next ((s.countRx none 24).rollBack id (unpackFault hold))

/-- COMMIT: dispatch starts on a named part (08 R151). -/
def execCommit (id : Nat) (s : State) : Out State :=
  match s.grids.get? id with
  | none => .next s
  | some g => if g.launcher ∨ g.state ≠ .reserved then .next s else .next ((s.countRx none 8).startGrid id)

/-- ROLLBACK: a named part releases what it reserved (08 R151). -/
def execRollback (id : Nat) (s : State) : Out State :=
  match s.grids.get? id with
  | none => .next s
  | some g =>
    if g.launcher ∨ (g.state ≠ .reserved ∧ g.state ≠ .presence) then .next s
    else .next { ((s.countRx none 8).releaseHolds false id g.part g.asid) with grids := s.grids.erase id }

/-- LAUNCHP_TIMEOUT: 50 us pass without every reply, for a pod grid or a gang (08 R151, 13 R244). -/
def execLaunchpTimeout (id : Nat) (s : State) : Out State :=
  match s.grids.get? id with
  | none => .next s
  | some g =>
    if s.env.cycle - g.sent < usCycles 50 then .next s
    else if g.gang ∧ (g.state = .presence ∨ g.state = .reserved) then .next (s.refuseGrid id none)
    else if g.launcher ∧ g.state = .replies then .next (s.rollBack id none)
    else .next s

/-! ## Teams (02 R21 to R23, R40; 08 R153) -/

/-- Bytes of the private pool that a team takes (12 R229, 13 R238, log 27). -/
def Grid.privateBytes (g : Grid) : Nat := g.r.groups * 32 * g.r.priv + g.r.scr

/-- The regions of a context's private pool that are in use: those of teams, and of groups with private memory of their own. -/
def State.privTaken (s : State) (part ctx : Nat) : List (Nat × Nat) :=
  let mine (id : Nat) : Bool :=
    let g := (s.grids.get? id).getD noGrid
    g.part == part && g.ctx == ctx
  (s.teams.filter (fun e => mine e.2.grid)).map (fun e => (e.2.win, e.2.len)) ++
    (s.groups.filter (fun e => e.2.ownWin && mine e.2.grid)).map (fun e => (e.2.win, 32 * e.2.stride))

/-- The lowest place for `n` bytes in a region, clear of what is taken. -/
def firstFit (base size n : Nat) (taken : List (Nat × Nat)) : Option Nat :=
  let used := taken.filter (fun q => q.2 != 0)
  let free (a : Nat) : Bool := decide (base ≤ a) && decide (a + n ≤ base + size) &&
    used.all (fun q => decide (a + n ≤ q.1) || decide (q.1 + q.2 ≤ a))
  leastBy id ((base :: used.map (fun q => q.1 + q.2)).filter free)

/-- Where the private pool of a grid's context has room for `n` bytes (05 R87, 13 R238; log 26). -/
def State.privFree (s : State) (g : Grid) (n : Nat) : Option Nat :=
  if n = 0 then some 0 else
  match s.disp.ctxs.get? (g.part * 2 + g.ctx) with
  | some c => firstFit c.priv.base c.priv.size n (s.privTaken g.part g.ctx)
  | none => none

/-- Dispatch goes on for a grid (08 R158, 12 R224, R230). -/
def State.dispatches (s : State) (g : Grid) : Bool := g.state == .runs && g.pre == .none && !g.cancelled && s.active g

/-- The places on the cluster of a core where the teams of a ticket go: distinct cores, in ascending order; or the core itself. -/
def State.unitCores (s : State) (g : Grid) (core n : Nat) : List Nat :=
  if g.r.cset = 1 then (if (s.fit g core).isSome then [core] else [])
  else
    let cs := (List.range 4).filterMap (fun j => if (s.fit g (core / 4 * 4 + j)).isSome then some (core / 4 * 4 + j) else none)
    if n ≤ cs.length then cs.take n else []

/-- The teams of a list that belong to one set with a team (02 R20). -/
def Grid.mates (g : Grid) (team : Nat) (l : List (Nat × Nat)) : List (Nat × Nat) := l.filter (fun r => r.1 / g.r.cset == team / g.r.cset)

/-- The role in which a group of a team begins (02 R35). -/
def Hdr.firstRole (h : Hdr) (i : Nat) : Role :=
  if !h.roles then .compute else if i < h.nL then .loader else if i < h.nL + h.nC then .compute else .storer

/-- A group as it begins (02 R23). `win`: where its lanes' private memory lies (05 R87). -/
def newGroup (kind : GKind) (id : Nat) (g : Grid) (team index core quarter : Nat) (role : Role) (budget pc arg win : Nat) : Group :=
  { kind := kind, grid := id, team := team, index := index, core := core, quarter := quarter, role := role, budget := budget,
    v := [], s := Store.put (Store.put [] 62 (BitVec.ofNat 64 (0xFC00000000000000 + g.r.priv)) 0) 63 (BitVec.ofNat 64 arg) 0,
    p := [], pcs := (List.range 32).foldl (fun m l => Store.put m l (pc % 2 ^ 32) 0) [], live := BitVec.allOnes 32,
    fpmode := 0, scene := 0, floor := g.r.priv - g.r.stack, priv := g.r.priv, win := win, stride := g.r.priv, ownWin := kind != .team, monitor := none, pend := [],
    waits := [], paths := [], issued := [], lastIssue := 0, yielded := none, lastBatch := 0, sealSeq := 0, arrivals := [], posted := none,
    place := .resident, halted := false, saveArea := none, savedLive := 0, restore := 0, task := 0, depth := 0, parent := none,
    rays := [], strict := g.r.strict, poison := [], dropped := [], unacked := [], parkT := 0 }

/-- A shading group begins at its material's entry, with its pixels' lanes alone live (11 R213). -/
def Group.shaded (g : Group) (h : Shade) : Group :=
  let live := maskOf (fun l => decide (l < h.px.length))
  let row (r : Nat) (f : W32 × W32 × W32 → W32) (v : Store W32) : Store W32 :=
    h.px.zipIdx.foldl (fun m q => Store.put m (r * 32 + q.2) (f q.1) 0) v
  { g with
    live := live
    pcs := (lanesOf live).foldl (fun m l => Store.put m l (h.entry % 2 ^ 32) 0) []
    v := row 2 (·.2.2) (row 1 (·.2.1) (row 0 (·.1) g.v))
    s := Store.put g.s 1 (BitVec.ofNat 64 h.mat) 0 }

/-- The barriers of a co-resident grid on this part as its first team starts: phase 0 begins, with the tokens that other parts have sent for
it already (08 R160, R162). -/
def Grid.beginBars (g : Grid) (now : Nat) : Store Bar :=
  ([2, 3].map (fun l => (List.range 4).map (fun n => barKey l 0 n))).flatten.foldl
    (fun m k => m.set k { g.bars.getD k newBar with begun := now }) g.bars

/-- A team admitted on a core, its private memory at `win`: fresh scratchpad, tiles and private memory, and its groups (02 R21, R23,
R389; 05 R87; 09 R177). -/
def State.admitTeam (s : State) (id : Nat) (g : Grid) (index core q0 win : Nat) : State :=
  let n := s.freshId
  let team := n
  let t : Team := { noTeam with
    grid := id
    index := index
    core := core
    q0 := q0
    scr := g.r.scr
    scrId := n + 1
    tiles := g.r.tiles
    tileId := n + 2
    win := win
    len := g.privateBytes
    groups := g.r.groups
    remote := List.replicate 4 (g.setSize index - 1) }
  let g1 := if g.began ≠ 0 then g else { g with
      began := s.podTime
      bars := if g.r.coRes then g.beginBars s.podTime else g.bars }
  let s1 := ((s.useIds (3 + 2 * g.r.groups)).setTeam team (t.watch g s.env.cycle)).setGrid id g1
  let s2 := (List.range g.r.groups).foldl (fun s' i =>
    let role := g.h.firstRole i
    let pc := if g.h.roles then (match role with | .loader => g.h.eL | .compute => g.h.eC | .storer => g.h.eS) else g.r.entry
    let x := newGroup .team id g team i core ((q0 + i) % 4) role (g.budget role) pc g.r.argp (win + 32 * g.r.priv * i)
    let y := match g.shades[index]? with | some h => x.shaded h | none => x
    s'.setGroup (n + 3 + 2 * i) { y with lastIssue := s.env.cycle }) s1
  let s3 := { s2 with mem := s2.mem.dropRange win g.privateBytes }
  s3.writeBytes (scrKey (n + 1) 0) (List.replicate (min 128 g.r.scr) 0)

/-- A resumed grid is whole again when nothing of it is saved any more. -/
def State.settleResume (s : State) (grid : Nat) : State :=
  if s.teams.any (fun e => e.2.grid == grid && e.2.saved) || s.groups.any (fun e => e.2.grid == grid && e.2.place == .taken) then s
  else s.modGrid grid (fun g => if g.pre = .resuming then { g with pre := .none } else g)

/-- Nothing of a grid is left to run on this part: no ticket, no team, no task. -/
def State.gridEmpty (s : State) (id : Nat) (g : Grid) : Bool :=
  (g.cancelled || g.tickets.all (fun c => remaining c == 0)) && g.reserved.isEmpty &&
  !s.disp.admits.any (fun q => q.2.1 == id) && !s.teams.any (fun e => e.2.grid == id) &&
  !s.groups.any (fun e => e.2.grid == id) && g.tasks.isEmpty && g.openRays == 0

/-- Bytes of a team's scratchpad and tiles, by key. -/
def Team.owns (t : Team) (k : Nat) : Bool :=
  match k % 4 with
  | 1 => k / 4 / 2 ^ 24 == t.scrId
  | 3 => k / 4 / 4 / 16384 == t.tileId
  | _ => false

/-- The last team of a grid on this part has retired: none is left and none can come. Where tickets of teams can still be stolen from another
part, that is known only at the grid's end (05 R101; log 38). -/
def State.lastTeam (s : State) (id : Nat) (g : Grid) : Bool :=
  g.state == .runs && (g.cancelled || (g.tickets.all (fun c => remaining c == 0) && !(g.r.stealable && g.r.m == 0 && g.r.pod))) &&
  g.reserved.isEmpty && !s.disp.admits.any (fun q => q.2.1 == id) && !s.teams.any (fun e => e.2.grid == id)

/-- TEAM_RETIRE: a team whose groups have all retired leaves once its engine work is done; with a grid's last team on this part go the grid's
holds (02 R40, 04 R76, 05 R101, 08 R147). -/
def execTeamRetire (team : Nat) (s : State) : Out State :=
  match s.teams.get? team with
  | none => .next s
  | some t =>
    if t.gone.length < t.groups ∨ !(s.mxQueue team).isEmpty then .next s else
    let g := (s.grids.get? t.grid).getD noGrid
    let s1 := { s with
      teams := s.teams.erase team
      eng := { s.eng with ops := s.eng.ops.filter (fun o => o.team != team) }
      mem := (s.mem.drop t.owns).dropRange t.win t.len }
    let s2 := s1.modGrid t.grid (fun x => { x with retired := x.retired + 1 })
    let s3 := if g.launcher then s2.writeCw t.grid
      else s2.send { dest := t.grid / 2 ^ 52, vc := 4, op := 13, words := [t.grid, 1, 0] }
    .next (if s3.lastTeam t.grid g then s3.releaseHolds false t.grid g.part g.asid else s3)

/-- Every other part of a grid has reported that nothing of it is left there. -/
def State.othersDone (s : State) (g : Grid) : Bool :=
  !g.r.pod || decide (g.r.partCount ≤ g.partsDone + (if s.namedHere g then 1 else 0))

/-- FINAL_STATUS: nothing of the grid is left; the launching part writes the final STATUS, another part reports (08 R147). The grid's
barriers stay: its retired groups count as arrived in the phases that other parts go through (08 R160). -/
def execFinalStatus (id : Nat) (s : State) : Out State :=
  match s.grids.get? id with
  | none => .next s
  | some g =>
    if g.state ≠ .runs ∨ !s.gridEmpty id g then .next s
    else if g.launcher then
      if s.othersDone g then .next (s.endGrid id (if g.faulted then 3 else if g.cancelled then 2 else 1)) else .next s
    else
      let s1 := s.send { dest := id / 2 ^ 52, vc := 4, op := 13, words := [id, 0, 1] }
      .next ((s1.setGrid id { g with state := .done }).releaseHolds false id g.part g.asid)

/-! ## Steals and cancels (08 R158, R164, R165; 21 R305) -/

/-- A waiting TICKET read gets its value. -/
def State.landTicket (s : State) (gid pend : Nat) (x : W64) : State :=
  s.modGroup gid (fun g => { g with pend := g.pend.map (fun p => if p.id = pend then
    { p with
      src := .ready
      swrite := x } else p) })

/-- The TICKET reads of a grid that wait for a steal: group, core and pending result. -/
def State.ticketWaits (s : State) (id : Nat) : List (Nat × Nat × Nat) :=
  (s.groups.map (fun e => if e.2.grid = id then (e.2.pend.filter (fun p => p.src == .ticket)).map (fun p => (e.1, e.2.core, p.id)) else [])).flatten

/-- A transfer of tickets as the launching part logs it: the count and, among the first 64, an entry of first and end ticket, victim, thief,
GRID phases and time (08 R165; the counts are the ones that the launching part keeps, log 36). -/
def State.logSteal (s : State) (id : Nat) (e : Nat × Nat × Nat × Nat × Nat × Nat) : State :=
  match s.grids.get? id with
  | none => s
  | some g =>
    let n := g.strag.log.length
    let s1 := s.setGrid id { g with strag := { g.strag with
      steals := g.strag.steals + 1
      log := if n < 64 then g.strag.log ++ [e] else g.strag.log } }
    if g.r.strag = 0 then s1 else
    let a := g.acc id
    let s2 := s1.lateWrite a (add64 g.r.strag 8) 8 ((g.strag.steals + 1) % 2 ^ 32 + min 64 (n + 1) * 2 ^ 32)
    if n < 64 then
      s2.lateWords a (add64 g.r.strag (0x40 + 40 * (if g.r.pod then g.r.partCount else 1) + 32 * n))
        [e.1, e.2.1, e.2.2.1 % 65536 + e.2.2.2.1 % 65536 * 2 ^ 16 + e.2.2.2.2.1 % 2 ^ 32 * 2 ^ 32, e.2.2.2.2.2]
    else s2

/-- The victim has a transfer logged: by itself where it launched the grid, else by a message to the part that did. -/
def State.tellSteal (s : State) (id : Nat) (g : Grid) (lo hi thief : Nat) : State :=
  if g.launcher then s.logSteal id (lo, hi, g.member, thief, g.strag.gridPhases, s.podTime)
  else s.send { dest := id / 2 ^ 52, vc := 4, op := 19, words := [id, lo, hi, g.member + thief * 2 ^ 16, g.strag.gridPhases, s.podTime] }

/-- STEAL: the victim gives the upper half of its fullest counter, or nothing (08 R164). A part whose domain number is not set does not answer
(14 R262). -/
def execSteal (id thief : Nat) (s : State) : Out State :=
  match s.grids.get? id with
  | none => .next s
  | some g =>
    if !(s.otherParts g).contains thief then .next s else
    if !bit (s.ctlN .fabDomain 0) 63 then .next (s.countRx none 16) else
    let reply (s' : State) (lo hi : Nat) : State := s'.send { dest := thief, vc := 4, op := 10, words := [id, lo, hi] }
    let cs := if g.r.m = 0 then g.tickets else g.work
    let s0 := s.countRx none 16
    match if g.cancelled then none else richest cs 4 with
    | none => .next (reply s0 0 0)
    | some d =>
      let sp := splitCounter (cs.getD d (0, 0))
      let cs1 := cs.set d sp.1
      let s1 := s0.setGrid id (if g.r.m = 0 then { g with tickets := cs1 } else { g with work := cs1 })
      .next (reply ((s1.count .dispStealsOut 0 1).tellSteal id g sp.2.1 sp.2.2 (thief - g.r.firstPart)) sp.2.1 sp.2.2)

/-- One waiting TICKET read draws; where nothing is left it waits on the one STEAL of the part, or asks a neighbour that lags; else it reads
all ones (21 R305). -/
def State.serveTicket (s : State) (id : Nat) (q : Nat × Nat × Nat) : State :=
  let g := (s.grids.get? id).getD noGrid
  match drawTicket g.work (dieOfCore q.2.1) with
  | some (w, stole, t) =>
    let s1 := s.setGrid id { g with work := w }
    (if stole then s1.count .dispDieSteals 0 1 else s1).landTicket q.1 q.2.2 (BitVec.ofNat 64 t)
  | none =>
    if s.stealing then s else
    match if g.r.stealable && !g.cancelled then g.laggingNeighbour else none with
    | some v => s.askSteal id g v
    | none => s.landTicket q.1 q.2.2 (BitVec.allOnes 64)

/-- The waiting TICKET reads of a grid draw in order. -/
def State.serveTickets (s : State) (id : Nat) : State := (s.ticketWaits id).foldl (fun t q => t.serveTicket id q) s

/-- STEAL_REPLY: a range is installed in the lowest empty counter and waiting reads draw; EMPTY gives them all ones, and the neighbour that
gave it is asked no more until another lags. The part may then send another STEAL, for which reads of other grids have waited (08 R164,
21 R305). -/
def execStealReply (id lo hi : Nat) (s : State) : Out State :=
  match s.grids.get? id with
  | none => .next s
  | some g =>
    if g.stealOut.isNone then .next s else
    let cs := if g.r.m = 0 then g.tickets else g.work
    let s1 :=
      if lo < hi ∧ !g.cancelled then
        let d := ((List.range 4).find? (fun i => remaining (cs.getD i (0, 0)) == 0)).getD 0
        let cs1 := cs.set d (lo, hi)
        let g1 := if g.r.m = 0 then { g with tickets := cs1 } else { g with work := cs1 }
        ((s.countRx none 24).setGrid id { g1 with
          stealOut := none
          spent := none }).count .dispStealsIn 0 1
      else (s.countRx none 24).setGrid id { g with
        stealOut := none
        spent := g.stealOut }
    let s2 := if lo < hi then s1.serveTickets id
      else (s.ticketWaits id).foldl (fun t q => t.landTicket q.1 q.2.2 (BitVec.allOnes 64)) s1
    .next ((s2.grids.filter (fun e => e.1 != id)).foldl (fun t e => t.serveTickets e.1) s2)

/-- A pending launch entry of a cancelled grid is dropped (08 R158). -/
def State.dropEntry (s : State) (e : LEntry) : State :=
  ({ s with disp := { s.disp with lq := s.disp.lq.erase e } }.count .dispLaunchDropped 0 1).landLaunch e.gid e.pend 0

/-- A cancel ends the tasks of a grid that have not started, with code 0 and no record (09 R173). Each is counted, and its successor becomes
ready, on the die of its pool, or where it is in none on the grid's: 09 R171 and R182 name no die (DESIGN CHOICE, log 110). -/
def State.endTasks (s : State) (id : Nat) : State :=
  match s.grids.get? id with
  | none => s
  | some g =>
    let idle := g.tasks.filter (fun a => !s.groups.any (fun e => e.2.kind == .task && e.2.grid == id && e.2.task == a))
    let dieOf (a : Nat) : Nat := (s.disp.pools.findSome? (fun q => match q.2 with
      | .task b i _ _ => if b = a ∧ i = id then some q.1 else none
      | .calls .. => none)).getD g.die
    let s1 := idle.foldl (fun s' a => s'.taskDone id a (dieOf a) (some 0)) s
    { s1 with disp := { s1.disp with pools := s1.disp.pools.filter (fun q => match q.2 with
      | .task _ i _ _ => i != id
      | .calls .. => true) } }

/-- A cancel stops dispatch and drops every ticket not dispatched, whereas a team that a core has drawn is still admitted; before COMMIT it acts as ROLLBACK, of the whole gang where the grid
belongs to one (08 R158; 13 R244, log 77). -/
def State.cancelHere (s0 : State) (id : Nat) (g : Grid) (kill : Bool) : State :=
  let g1 := { g with
    cancelled := true
    killed := g.killed || kill
    tickets := g.tickets.map (fun c => (c.2, c.2))
    work := g.work.map (fun c => (c.2, c.2))
    reserved := [] }
  let s1 := s0.setGrid id g1
  let s2 := (s1.disp.lq.filter (fun e => e.grid == id)).foldl (fun s' e => s'.dropEntry e) s1
  let s3 := (s2.ticketWaits id).foldl (fun s' q => s'.landTicket q.1 q.2.2 (BitVec.allOnes 64)) s2
  if g.state = .runs then
    let s4 := s3.endTasks id
    if s4.lastTeam id ((s4.grids.get? id).getD g) && g.retired != 0 then s4.releaseHolds false id g.part g.asid else s4
  else if g.gang then
    let s4 := s3.endGrid id 2
    (s4.gangGrids g.cmd).foldl (fun s' e => s'.unreserved e.1) s4
  else if g.launcher then (s3.tellParts id 6 [] 0).endGrid id 2
  else { (s3.releaseHolds false id g.part g.asid) with grids := s3.grids.erase id }

/-- CANCEL_REACHES_PART: a cancel set out here reaches this part, or a message brings one. Bit 0 of `kill` says whether it kills; from bit 1
on stands the number, plus one, of the address space that the grid must be of, or 0 from a part that has checked it. Where the final status
has not been written, the cancel takes effect on the launching part, which passes it on to the grid's other parts (08 R148, R158;
23 R327). -/
def execCancelReachesPart (id kill : Nat) (s : State) : Out State :=
  let kills := bit kill 0
  let space := kill / 2
  let own (c : Cancel) : Bool := c.grid == id && c.kill == kills
  let s0 := { (if s.disp.cancels.any own then s else s.countRx none 24) with
    disp := { s.disp with cancels := s.disp.cancels.filter (fun c => !own c) } }
  match s0.grids.get? id with
  | none => .next s0
  | some g =>
    if g.status ≠ 0 ∨ g.state = .done ∨ (space ≠ 0 ∧ space ≠ g.asid % 65536 + 1) then .next s0 else
    let s1 := s0.cancelHere id g kills
    .next (if g.launcher && g.state == .runs then s1.sendCancel id kills (s.otherParts g) else s1)

end Sys2Proof.Machine
end

