-- ==== Sys2Proof/Machine/Tasks.lean ====
section
/-! DEFINITION. Tasks: spawning, dispatch from the pools, waiting that helps, adoption (09 R168 to R176; 25 R384). -/
namespace Sys2Proof.Machine

/-! ## Task records (09 R168, R169) -/

/-- The words of a task record that the T9 uses. -/
structure TaskRec where
  entry : Nat
  argp : Nat
  succ : Nat
  ctl : Nat
  pending : Nat
  holdp : Nat
  code : Nat
deriving DecidableEq, Repr

/-- A task record from its 64 bytes. -/
def taskRecOf (w : Nat) : TaskRec :=
  let f (o : Nat) : Nat := w / 2 ^ (8 * o) % 2 ^ 64
  { entry := f 0, argp := f 8, succ := f 0x18, ctl := f 0x20, pending := f 0x28, holdp := f 0x30, code := f 0x38 }

/-- The register budget that a control word names. -/
def taskBudget (ctl : Nat) : Nat := 16 + 8 * bits ctl 21 18

/-- The checks of TSPAWN that a dispatch or an adoption makes again (09 R170). -/
def TaskRec.check (r : TaskRec) (codeBase : Nat) : Option FaultInfo :=
  if bits r.ctl 21 18 = 15 then some { code := cRegister, addr := 0, detail := 15 + 2 ^ 10 }
  else if bit r.ctl 17 ∧ r.argp % 16 ≠ 0 then some { code := cMisaligned, addr := r.argp, detail := 16 }
  else if r.entry % 2 ≠ 0 then some { code := cMisaligned, addr := r.entry, detail := 2 }
  else if r.entry < codeBase ∨ codeBase + 2 ^ 32 ≤ r.entry then some { code := cRange, addr := r.entry, detail := 0 }
  else none

/-- The checks of TSPAWN on a record (09 R170). -/
def TaskRec.spawnCheck (r : TaskRec) (codeBase : Nat) (word : Nat) : Option FaultInfo :=
  if bits r.ctl 7 0 ≠ 0 ∨ bits r.ctl 63 32 ≠ 0 ∨ bits r.ctl 15 8 ≠ 0 ∨ bits r.ctl 31 22 ≠ 0 ∨ bits r.pending 63 33 ≠ 0 ∨
      bits r.code 63 8 ≠ 0 then some { code := cIllegal, addr := 0, detail := word }
  else if bits r.ctl 21 18 = 15 then some { code := cRegister, addr := 0, detail := 15 + 2 ^ 10 }
  else if r.succ ≠ 0 ∧ (r.succ + 2 ^ 64 - 0x28) % 64 ≠ 0 then some { code := cMisaligned, addr := r.succ, detail := 8 }
  else r.check codeBase

/-- The PART field of the leaf of an address, when its page is remote. -/
def State.remotePart (s : State) (a : Acc) (va : Nat) : Option Nat :=
  match s.leafFor a va with
  | some l => if isRemote l.pte then some (bits l.pte 63 52) else none
  | none => none

/-! ## TSPAWN (09 R170) -/

/-- The checks of TSPAWN before it reads the record: the record's key, or the fault. -/
def State.spawnAddr (s : State) (g : Group) (va : Nat) : Except FaultInfo Nat :=
  if windowOf va ≠ .glb then .error { code := cRange, addr := va, detail := 0 }
  else if !canonical va then .error { code := cNoncanonical, addr := va, detail := 0 }
  else match s.translate (s.accOf g) .store va with
  | .error f => .error f
  | .ok l =>
    if va % 64 ≠ 0 then .error { code := cMisaligned, addr := va, detail := 64 }
    else if va < 0x40 ∨ 0xFFFFFFF80 < va then .error { code := cRange, addr := va, detail := 0 }
    else match l with
    | .away _ _ => .error { code := cRemote, addr := va, detail := (s.remotePart (s.accOf g) va).getD 0 }
    | .here k => match s.mem.poisonAt k 64 with
      | some p => .error (eccAt va p)
      | none => .ok k

/-- The record read once and checked, and the checks of what TSPAWN then writes: the location of the future word, when the task has one
(09 R170). -/
def ICtx.spawnFuture (c : ICtx) (s : State) (k d h : Nat) : Except FaultInfo (Option (Nat × Loc)) :=
  let r := taskRecOf (s.readMem k 64)
  let stack : FaultInfo := { code := cStack, addr := h, detail := 0 }
  match r.spawnCheck (s.gridOf c.g).r.codeBase c.word with
  | some f => .error f
  | none =>
    if bit r.ctl 17 then
      match s.checkAddr c.g (lowLane c.part) r.argp 8 8 .store with
      | .error f => .error f
      | .ok fl => if c.g.stackOk d (BitVec.ofNat 64 h) then .ok (some (r.argp, fl)) else .error stack
    else if c.g.stackOk d (BitVec.ofNat 64 h) then .ok none
    else .error stack

/-- The effect of TSPAWN: the future word is emptied, the record gets its handle, and the task is ready when nothing is pending. -/
def ICtx.spawn (c : ICtx) (s : State) (d va k : Nat) (future : Option (Nat × Loc)) : State :=
  let h := va / 64
  let die := dieOfCore c.g.core
  let s1 := match future with
    | some q => c.storeLane 8 s (lowLane c.part, q.1, q.2, h * 2 ^ 32)
    | none => s
  let s2 := (((s1.access c.g va 64 (.here k) true).writeMem (keyAdd k 0x24) 4 h).count .taskSpawned die 1).modGrid c.g.grid (fun x =>
    { x with tasks := x.tasks ++ [va] })
  let s3 := if s.readMem (keyAdd k 0x28) 4 = 0 then s2.readyTask c.g.grid va die else s2
  (c.advance s3).modGroup c.gid (fun x => x.sset d (BitVec.ofNat 64 h))

/-- TSPAWN: the record gets its handle, and the task is ready at once when nothing is pending. The record is read once, after every
earlier store of the group, after the lanes' release, and while no engine pins its line; the lanes may then wait for a pinned future
word (04 R75). -/
def execTspawn (d a : BitVec 6) (g : BitVec 4) (s : State) : Out State :=
  issue (.tspawn d a g) s (fun c s1 =>
    let va := (c.sget a.toNat).toNat
    let lane := lowLane c.part
    let found := (c.prev.map (·.found)).getD []
    if c.part = 0 then c.advance s1 else
    let at' : Except FaultInfo Nat := match found.head? with | some q => .ok q.2.2 | none => s1.spawnAddr c.g va
    let argp := (found.getD 1 (0, 0, 0)).2.1
    let fk := (found.getD 1 (0, 0, 0)).2.2
    match at' with
    | .error f => c.fail s1 c.part f
    | .ok k =>
      if 2 ≤ found.length then
        if s1.pinnedAt (locOf fk) 8 ∨ s1.pinnedAt (.here k) 64 then
          c.waitFor s1 c.part (.pin (segsAt 8 [locOf fk] ++ segsAt 64 [.here k]))
        else c.spawn s1 d.toNat va k (some (argp, locOf fk))
      else if s1.storesBefore c.gid (c.seqFor s1) then c.waitAt s1 c.part (.pin []) [(lane, va, .here k)]
      else if c.g.unperformed c.part false then c.waitAt s1 c.part (.fence false) [(lane, va, .here k)]
      else if s1.pinnedAt (.here k) 64 then c.waitAt s1 c.part (.pin (segsAt 64 [.here k])) [(lane, va, .here k)]
      else
        let s2 := (s1.access c.g va 64 (.here k) false).combine k 64
        match c.spawnFuture s2 k d.toNat (va / 64) with
        | .error f => c.fail s2 c.part f
        | .ok none => c.spawn s2 d.toNat va k none
        | .ok (some q) =>
          if s2.pinnedAt q.2 8 then c.waitAt s2 c.part (.pin (segsAt 8 [q.2])) [(lane, va, .here k), (lane, q.1, q.2)]
          else c.spawn s2 d.toNat va k (some q))

/-! ## Starting a task (09 R170, R172, R176) -/

/-- STATE and DEPTH of a task written in one step; a state other than 1 takes the pool link away (09 R168, R169). -/
def State.markTask (s : State) (g : Grid) (addr state depth : Nat) : State :=
  (s.lateWrite (g.taskAcc addr) (addr + 0x20) 2 (state + 256 * depth)).lateWrite (g.taskAcc addr) (addr + 0x38) 8 0

/-- A task leaves the ready pools. -/
def State.unpool (s : State) (grid addr : Nat) : State :=
  { s with disp := { s.disp with pools := s.disp.pools.filter (fun q =>
    match q.2 with | .task a i _ _ => !(a == addr && i == grid) | .calls .. => true) } }

/-- A task ends before its first instruction, with a record and the steps of 09 R173. The record's lane and PC, which name no
instruction, are free values. -/
def State.failTask (s : State) (grid addr die : Nat) (f : FaultInfo) : State :=
  let r : FRec := { code := f.code, kind := 1, lane := (Config.freeWord s.env.freeCtr).toNat % 32, group := 0, team := addr / 64,
                    launch := grid, addr := f.addr, pc := (Config.freeWord (s.env.freeCtr + 1)).toNat, detail := f.detail }
  (((s.useFree 2).unpool grid addr).recordFault grid r).taskDone grid addr die (some f.code)

/-- What an attempt to start a ready task comes to: its holds have to wait, it ended, or it may go on with its record. -/
inductive TaskStart where
  | waits (s : State)
  | ended (s : State)
  | go (s : State) (r : TaskRec)

/-- A ready task's record is read and checked again and its holds are taken (09 R170, 05 R100); `die` is that of its pool. A task whose
pages are still awaited, or for which the hold pool is short, makes no further attempt that leaves a trace. -/
def State.claimTask (s : State) (grid addr die : Nat) : TaskStart :=
  let g := (s.grids.get? grid).getD noGrid
  let a := g.taskAcc addr
  let fails (s' : State) (f : FaultInfo) : TaskStart := .ended (s'.failTask grid addr die f)
  let s0 := s.sawAll a [(addr, 64)]
  match s.readVa a addr 64 64 with
  | .error f => fails s0 f
  | .ok w =>
    let r := taskRecOf w
    let s1 := s0.useFree 1
    match r.check g.r.codeBase, s1.holdList a r.holdp with
    | some f, _ => fails s1 f
    | none, .error f => fails (s1.sawAll a (holdReads r.holdp 0)) f
    | none, .ok es =>
      match ((s1.sawAll a (holdReads r.holdp es.length)).useFree 1).tryHolds a g.ctx die es with
      | .waits s2 => .waits (if s2.mmu.asked = s.mmu.asked then s else s2)
      | .short _ => .waits s
      | .fails s2 f => fails s2 f
      | .taken s2 => .go s2 r

/-- The group of a task as it starts, its private memory at `win` (09 R172). -/
def taskGroup (s : State) (grid addr core quarter depth win : Nat) (r : TaskRec) : Group :=
  let g := (s.grids.get? grid).getD noGrid
  let x := newGroup .task grid g 0 0 core quarter .compute (taskBudget r.ctl) (r.entry - g.r.codeBase) r.argp win
  { (x.sset 61 (BitVec.ofNat 64 addr)) with
    strict := bit r.ctl 16
    task := addr
    depth := depth
    lastIssue := s.env.cycle }

/-! ## TASK_DISPATCH (09 R172) -/

/-- A quarter of a core with a free slot and room for a budget: the one with the fewest groups. -/
def State.fitQuarter (s : State) (core budget : Nat) : Option Nat :=
  leastBy (fun q => (s.quarterUse core q).1) ((List.range 4).filter (fun q =>
    decide ((s.quarterUse core q).1 + 1 ≤ 16) && decide ((s.quarterUse core q).2 + budget ≤ 1024)))

/-- The grid, priority and order of an item of a ready pool. -/
def Ready.key : Ready → Nat × Nat × Nat
  | .task _ g p o | .calls _ g p o => (g, p, o)

/-- An item may be taken by a core: its grid's context runs on the core's partition, no pre-emption is pending, and the message that brings a
call-out group has got its send permit (01 R16). -/
def State.itemFor (s : State) (core : Nat) (x : Ready) : Bool :=
  let g := (s.grids.get? x.key.1).getD noGrid
  (match x with | .calls cs _ _ _ => cs.all (·.left) | .task .. => true) && s.active g && g.pre == .none && (s.coresOf g.part).contains core

/-- Items in the order in which cores take them: the highest priority first, the oldest first among equals; `byAge`: by age alone. -/
def insertItem (byAge : Bool) (x : Nat × Ready) : List (Nat × Ready) → List (Nat × Ready)
  | [] => [x]
  | y :: t =>
    if (!byAge ∧ y.2.key.2.1 < x.2.key.2.1) ∨ ((byAge ∨ y.2.key.2.1 = x.2.key.2.1) ∧ x.2.key.2.2 < y.2.key.2.2) then x :: y :: t
    else y :: insertItem byAge x t

/-- The items that a core may take, the next first: those of its die, by priority, or where it has none those of the sibling die whose pool
holds the most, by age (09 R172). -/
def State.takeable (s : State) (core : Nat) : List (Nat × Ready) :=
  let mine (d : Nat) : List (Nat × Ready) := s.disp.pools.filter (fun q => q.1 == d && s.itemFor core q.2)
  let own := mine (dieOfCore core)
  let order (byAge : Bool) (l : List (Nat × Ready)) : List (Nat × Ready) := l.foldl (fun acc x => insertItem byAge x acc) []
  if !own.isEmpty then order false own else
  match leastBy (fun d => s.disp.pools.length - (mine d).length) (List.range 4) with
  | some d => order true (mine d)
  | none => []

/-- A task that cannot start yet because its holds are not to be had. -/
def State.heldUp (s : State) (x : Nat × Ready) : Bool :=
  match x with
  | (die, .task addr grid _ _) =>
    !((s.grids.get? grid).getD noGrid).cancelled && (match s.claimTask grid addr die with | .waits _ => true | _ => false)
  | _ => false

/-- The item that a core takes next: the first whose holds can be had (05 R100, 09 R172). -/
def State.nextItem (s : State) (core : Nat) : Option (Nat × Ready) := (s.takeable core).find? (fun x => !s.heldUp x)

/-- The tasks before that item ask for their pages. -/
def State.askForItems (s : State) (core : Nat) : State :=
  ((s.takeable core).takeWhile s.heldUp).foldl (fun t x =>
    match x with
    | (die, .task addr grid _ _) => (match t.claimTask grid addr die with | .waits t1 => t1 | _ => t)
    | _ => t) s

/-- The quarter and the place of the private memory with which a core can take an item in, when it can. -/
def State.placeItem (s : State) (core : Nat) (x : Ready) : Option (Nat × Nat) :=
  let g := (s.grids.get? x.key.1).getD noGrid
  let quarter := match x with
    | .task addr _ _ _ =>
      let ctl := (s.ownRead (g.taskAcc addr) (addr + 0x20) 8).getD 0
      if bits ctl 21 18 = 15 then some 0 else s.fitQuarter core (taskBudget ctl)
    | .calls cs _ _ _ => s.fitQuarter core ((cs.head?.map (·.budget)).getD 16)
  match quarter, s.privFree g (32 * g.r.priv) with
  | some q, some win => some (q, win)
  | _, _ => none

/-- A core can take its next item at once, and the item's priority is at least `prio`: it is taken before a team of that priority
(09 R172). -/
def State.itemFirst (s : State) (core prio : Nat) : Bool :=
  match s.nextItem core with
  | some x => decide (prio ≤ x.2.key.2.1) && (s.placeItem core x.2).isSome
  | none => false

/-! ## Saved teams (12 R225, R227) -/

/-- A saved team admitted again: its taken groups restart at their restore routines. The read-only cache of the core that takes it gives up
what it holds, so that no lane of the team reads there what is older than it has read elsewhere (02 R44; 07 R134, R135; 12 R227). A team
that has fed the engine keeps its place there only where fewer than two others have one (02 R38). -/
def State.readmit (s : State) (team : Nat) (t : Team) (core q0 : Nat) : State :=
  let n := s.freshId
  let s1 := ((s.roDrop core).useIds 2).setTeam team { t with
    core := core
    q0 := q0
    gone := t.gone.map (fun q => (q.1, if q.2 = 4 then 4 else (q0 + q.1) % 4))
    scrId := n
    tileId := n + 1
    fed := t.fed && decide ((s.teams.filter (fun e => e.1 != team && e.2.core == core && e.2.fed && !e.2.saved &&
      s.current ((s.grids.get? e.2.grid).getD noGrid))).length < 2)
    saved := false }
  s1.groups.foldl (fun s' e =>
    if e.2.kind = .team ∧ e.2.team = team then
      let g := (s.grids.get? e.2.grid).getD noGrid
      let x := e.2
      let fresh := { newGroup .team x.grid g team x.index core ((q0 + x.index) % 4) x.role x.budget x.restore (x.saveArea.getD 0) x.win with
        live := x.savedLive
        stride := x.stride
        saveArea := x.saveArea
        dropped := x.dropped
        unacked := x.unacked
        lastBatch := x.lastBatch
        sealSeq := x.sealSeq
        arrivals := x.arrivals
        posted := x.posted
        lastIssue := s.env.cycle }
      s'.setGroup e.1 fresh
    else s') s1

/-- The cores on which teams of a team's set stand (02 R20). -/
def State.matesAt (s : State) (grid : Nat) (g : Grid) (index : Nat) : List Nat :=
  (s.teams.filter (fun e => e.2.grid == grid && !e.2.saved && e.2.index / g.r.cset == index / g.r.cset)).map (·.2.core)

/-- The cores of a cluster that can take teams of a set, but for those on which others of it stand, each with the quarter of the first
group; as many as asked, or none (02 R20). -/
def State.besideMates (s : State) (g : Grid) (cluster n : Nat) (taken : List Nat) : Option (List (Nat × Nat)) :=
  let cs := (List.range 4).filterMap (fun j =>
    let c := 4 * cluster + j
    if taken.contains c then none else (s.fit g c).map (fun q => (c, q)))
  if cs.length < n then none else some (cs.take n)

/-- Places for the saved teams of sets of which other teams stand: on the cluster of those (02 R20). -/
def State.placeBeside (s : State) (grid : Nat) : List (List Nat) → Option State
  | [] => some s
  | u :: t =>
    let g := (s.grids.get? grid).getD noGrid
    let there := s.matesAt grid g (u.headD 0)
    match s.besideMates g (there.headD 0 / 4) u.length there with
    | none => none
    | some cs => State.placeBeside (s.setGrid grid { g with reserved := g.reserved ++ u.zip (cs.map (fun q => packPlace q.1 q.2)) }) grid t

/-- A place, as core and quarter, for each saved team of a co-resident grid, when the partition can hold them all at once (08 R150,
12 R227). -/
def State.placeSaved (s : State) (grid : Nat) (g : Grid) : Option (List (Nat × Team × Nat × Nat)) :=
  let saved := s.teams.filter (fun e => e.2.grid == grid && e.2.saved)
  let units := ((saved.map (fun e => e.2.index / g.r.cset)).eraseDups).map (fun u => saved.filter (fun e => e.2.index / g.r.cset == u))
  let part (x : Bool) := units.filter (fun u => (s.matesAt grid g ((u.map (·.2.index)).headD 0)).isEmpty == x)
  match s.placeBeside grid ((part false).map (fun u => u.map (·.2.index))) with
  | none => none
  | some s1 =>
    (s1.placeAll grid g.part ((part true).map (fun u => (dieOfCore ((u.map (·.2.core)).headD 0), u.map (·.2.index))))).map (fun s2 =>
      let places := ((s2.grids.get? grid).getD noGrid).reserved
      saved.filterMap (fun e => (places.find? (fun r => r.1 == e.2.index && !g.reserved.contains r)).map (fun r =>
        (e.1, e.2, r.2 / 4, r.2 % 4))))

/-- Where the saved teams go that a core admits again with a team of a grid that is resumed: all of a co-resident grid's; a set's, on the
core's cluster, which is that of its other teams; or one on the core (02 R20, 12 R227). -/
def State.resumePlan (s : State) (core grid : Nat) (g : Grid) (team : Nat) (t : Team) : Option (List (Nat × Team × Nat × Nat)) :=
  if g.pre ≠ .resuming ∨ !(s.coresOf g.part).contains core then none
  else if g.r.coRes then s.placeSaved grid g
  else if g.r.cset = 1 then (s.fit g core).map (fun q => [(team, t, core, q)])
  else
    let there := s.matesAt grid g t.index
    let mates := s.teams.filter (fun e => e.2.grid == grid && e.2.saved && e.2.index / g.r.cset == t.index / g.r.cset)
    if there.any (fun c => c / 4 != core / 4) then none
    else (s.besideMates g (core / 4) mates.length there).map (fun cs => (mates.zip cs).map (fun q => (q.1.1, q.1.2, q.2.1, q.2.2)))

/-- A core could admit a team whose priority is above `prio`: a new one, or a saved one of a grid that is resumed. -/
def State.teamFirst (s : State) (core prio : Nat) : Bool :=
  s.disp.admits.any (fun q => q.1 / 4 == core && (match s.grids.get? q.2.1 with
    | some g => decide (prio < g.r.prio) && s.active g && g.pre == .none && (s.privFree g g.privateBytes).isSome &&
      ({ s with disp := { s.disp with admits := s.disp.admits.erase q } } : State).fitsAt g core (q.1 % 4)
    | none => false)) ||
  s.grids.any (fun e => decide (prio < e.2.r.prio) && s.dispatches e.2 && (s.coresOf e.2.part).contains core &&
    (if e.2.r.coRes then e.2.reserved.any (fun r => r.2 / 4 == core)
     else match drawTicket e.2.tickets (dieOfCore core) with
      | none => false
      | some (_, _, t) => !(e.2.teamsOf t).isEmpty && decide ((e.2.teamsOf t).length ≤ (s.unitCores e.2 core (e.2.teamsOf t).length).length))) ||
  s.teams.any (fun e => e.2.saved && (match s.grids.get? e.2.grid with
    | some g => decide (prio < g.r.prio) && s.active g && ((s.resumePlan core e.2.grid g e.1 e.2).getD []).any (fun q => q.2.2.1 == core)
    | none => false))

/-- A task taken by a core, which has a quarter for it; the ones of a cancelled grid end. -/
def State.takeTask (s : State) (core die grid addr q win : Nat) : State :=
  let g := (s.grids.get? grid).getD noGrid
  if g.cancelled then (s.unpool grid addr).taskDone grid addr die (some 0) else
  match s.claimTask grid addr die with
  | .waits s1 => s1
  | .ended s1 => s1
  | .go s1 r =>
    let s2 := ((s1.useIds 1).unpool grid addr).markTask g addr 2 0
    ({ s2 with mem := s2.mem.dropRange win (32 * g.r.priv) }).setGroup s1.freshId (taskGroup s1 grid addr core q 0 win r)

/-- A group taken under pre-emption restarts at its restore routine in a free slot; the read-only cache of the core gives up what it holds
(02 R44; 07 R134, R135; 12 R227). A task's s61 holds its record's address, as it did at the task's start (09 R172): 02 R44 restarts in the
state of 02 R23, which names no s61 (DESIGN CHOICE, log 106). -/
def State.restart (s : State) (gid : Nat) (x : Group) (core quarter : Nat) : State :=
  let g := (s.grids.get? x.grid).getD noGrid
  let y := newGroup x.kind x.grid g x.team x.index core quarter x.role x.budget x.restore (x.saveArea.getD 0) x.win
  (s.roDrop core).setGroup gid { (y.sset 61 (BitVec.ofNat 64 x.task)) with
    strict := x.strict
    task := x.task
    stride := x.stride
    ownWin := x.ownWin
    floor := x.floor
    priv := x.priv
    saveArea := x.saveArea
    rays := x.rays
    live := x.savedLive
    lastBatch := x.lastBatch
    sealSeq := x.sealSeq
    arrivals := x.arrivals
    posted := x.posted
    dropped := x.dropped
    unacked := x.unacked
    lastIssue := s.env.cycle }

/-- A taken group of a kind whose grid is resumed on a core's partition. -/
def State.takenFor (s : State) (core : Nat) (kind : GKind) : Option (Nat × Group) :=
  s.groups.find? (fun e => e.2.kind == kind && e.2.place == .taken && (s.gridOf e.2).pre == .resuming &&
    s.active (s.gridOf e.2) && (s.coresOf (s.gridOf e.2).part).contains core)

/-- TASK_DISPATCH: a core restarts a saved task, or takes the next item of a ready pool, where that is a task which it has room for and no
team of a higher priority could come in. -/
def execTaskDispatch (core : Nat) (s : State) : Out State :=
  if 192 ≤ core then .next s else
  match s.takenFor core .task with
  | some (gid, x) =>
    match s.fitQuarter core x.budget with
    | some q => .next (((s.restart gid x core q).markTask (s.gridOf x) x.task 2 0).settleResume x.grid)
    | none => .next s
  | none =>
    let s1 := s.askForItems core
    match s.nextItem core with
    | some (die, .task addr grid p o) =>
      (match s.placeItem core (.task addr grid p o) with
      | some (q, win) => .next (if s.teamFirst core p then s1 else s1.takeTask core die grid addr q win)
      | none => .next s1)
    | _ => .next s1

/-! ## TWAIT (09 R175, R176; 25 R384) -/

/-- Park records in use on a core: parked groups and adoption frames (02 R39, 09 R176). -/
def State.parkRecords (s : State) (core : Nat) : Nat :=
  (s.groups.filter (fun e => e.2.core == core && (e.2.place == .parked || e.2.place == .framed))).length

/-- A core has a free park record for a group: 256 in the park area of the partition's context (02 R39, 13 R238). -/
def State.parkRoom (s : State) (g : Group) : Bool :=
  let gr := s.gridOf g
  decide (s.parkRecords g.core < 256) && (s.disp.ctxs.get? (gr.part * 2 + gr.ctx)).isSome

/-- An owner that a waiter could adopt but for its depth: ready in a pool (die, grid), or parked (group). -/
inductive Owner where
  | ready (die grid : Nat)
  | parked (gid : Nat)

/-- Such an owner of the record at an address, whose STATE is 1 or 3 (09 R176). -/
def State.ownerOf (s : State) (g : Group) (addr state ctl : Nat) : Option Owner :=
  let gr := s.gridOf g
  let same (id : Nat) : Bool :=
    let o := (s.grids.get? id).getD noGrid
    o.asid == gr.asid && o.part == gr.part && o.ctx == gr.ctx && o.pre == .none
  if state = 1 then
    if g.budget < taskBudget ctl then none else
    s.disp.pools.findSome? (fun q => match q.2 with
      | .task a i _ _ => if a == addr && same i && !((s.grids.get? i).getD noGrid).cancelled then some (.ready q.1 i) else none
      | .calls .. => none)
  else if state = 3 then
    ((s.groups.find? (fun e => e.2.kind == .task && e.2.task == addr && e.2.place == .parked && same e.2.grid &&
      decide (e.2.budget ≤ g.budget))).map (fun e => Owner.parked e.1))
  else none

/-- Lanes wait in a TWAIT: where its word lies, and the owners tried. -/
def ICtx.waitTwait (c : ICtx) (s : State) (k : Nat) (why : Why) (tried : List Nat) : State :=
  c.waitWith s c.part why (fun w => { w with found := [(lowLane c.part, 0, k)], tried := tried })

/-- A wait that tests its word again at once. -/
def retest (key : Nat) : Why := .twait key (2 ^ 64) none

/-- Adopt (09 R176): the waiter becomes a frame and the owner runs in its slot; or the owner is not to be had now. `keep` is the
wait that then holds. -/
def ICtx.adopt (c : ICtx) (s : State) (key h : Nat) (keep : Why) (tried : List Nat) : Owner → State
  | .ready die grid =>
    match s.claimTask grid (h * 64) die with
    | .waits s1 => c.waitTwait s1 key keep tried
    | .ended s1 => c.waitTwait s1 key (retest key) (tried ++ [h])
    | .go s1 r =>
      let g := (s1.grids.get? grid).getD noGrid
      let n := s1.freshId
      let t := taskGroup s1 grid (h * 64) c.g.core c.g.quarter (c.g.depth + 1) c.g.win r
      let t1 : Group := { (t.sset 62 (c.g.sget 62)) with
        floor := c.g.floor
        stride := c.g.stride
        priv := c.g.priv
        ownWin := false
        parent := some c.gid }
      let s2 := (((s1.useIds 1).unpool grid (h * 64)).markTask g (h * 64) 2 (c.g.depth + 1)).setGroup n t1
      ((c.waitTwait s2 key (retest key) (tried ++ [h])).modGroup c.gid (fun x => { x with place := .framed })).count
        .taskAdoptions (dieOfCore c.g.core) 1
  | .parked gid =>
    let grid := ((s.groups.get? gid).map (·.grid)).getD 0
    let moves := (s.groups.get? gid).any (fun x => x.core != c.g.core)
    let s1 := (if moves then s.roDrop c.g.core else s).modGroup gid (fun x => { x with
      place := .resident
      core := c.g.core
      quarter := c.g.quarter
      depth := c.g.depth + 1
      parent := some c.gid
      lastIssue := s.env.cycle })
    let s2 := s1.markTask ((s.grids.get? grid).getD noGrid) (h * 64) 2 (c.g.depth + 1)
    ((c.waitTwait s2 key (retest key) (tried ++ [h])).modGroup c.gid (fun x => { x with place := .framed })).count
      .taskAdoptions (dieOfCore c.g.core) 1

/-- The owner's control word, read by the T9 itself: its key and value, when it can be read. -/
def State.ownerCtl (s : State) (g : Group) (h : Nat) : Option (Nat × Nat) :=
  match s.translate ((s.gridOf g).acc 0) .load (h * 64 + 0x20) with
  | .ok (.here k) => if (s.mem.poisonAt k 8).isSome then none else some (k, s.ownView k 8)
  | _ => none

/-- TWAIT after its checks: the word decides, or the owner is helped, or the lanes wait. A TWAIT that cannot adopt at depth 4 is counted
once: 0, which is no handle, then stands among the owners tried (09 R182). -/
def ICtx.twaitLoop (c : ICtx) (s : State) (lock : Bool) (p k : Nat) : State :=
  let w := s.readMem k 8
  let st := bits w 63 62
  let h := bits w 61 32
  let tried := (c.prev.map (·.tried)).getD []
  let done (s' : State) (b : Bool) : State := c.step s' (fun g => g.pset p c.part (if b then BitVec.allOnes 32 else 0))
  if !lock ∧ st = 1 then done s true
  else if !lock ∧ 2 ≤ st then done s false
  else if lock ∧ h = 0 then done s true
  else if h = 0 ∨ h = 0x3FFFFFFF then c.waitTwait s k (.twait k w none) tried
  else
    let s1 := s.ownSaw ((s.gridOf c.g).acc 0) (h * 64 + 0x20) 8
    match s.ownerCtl c.g h with
    | none => c.waitTwait s1 k (.twait k w none) tried
    | some (ko, ctl) =>
      let keep : Why := .twait k w (some (ko, ctl))
      if lock ∧ bits ctl 7 0 = 5 then done s1 false
      else if tried.contains h then c.waitTwait s1 k keep tried
      else match s1.ownerOf c.g (h * 64) (bits ctl 7 0) ctl with
      | none => c.waitTwait s1 k keep tried
      | some o =>
        if 4 ≤ c.g.depth then
          if tried.contains 0 then c.waitTwait s1 k keep tried
          else c.waitTwait (s1.count .taskDepthParks (dieOfCore c.g.core) 1) k keep (tried ++ [0])
        else if !s1.parkRoom c.g then c.waitTwait s1 k keep tried
        else c.adopt s1 k h keep tried o

/-- TWAIT and TWAIT.LOCK. Every lane that reaches the site under a pre-emption request waits there (02 R44); the address is checked once, at
issue. -/
def twaitOp (i : Instr) (lock : Bool) (p a : Nat) (s : State) : Out State :=
  issue i s (fun c s1 =>
    let va := (c.sget a).toNat
    let n := if lock then 8 else 16
    let loop (k : Nat) : State :=
      match s1.mem.poisonAt k 8 with
      | some pl => c.fail s1 c.part (eccAt va pl)
      | none => c.twaitLoop ((s1.access c.g va 8 (.here k) false).combine k 8) lock p k
    if c.part ≠ 0 ∧ (s1.gridOf c.g).killed ∧ c.g.kind ≠ .callout then s1.endUnit c.gid none
    else match c.prev.bind (fun w => w.found.head?) with
    | some q => loop q.2.2
    | none =>
      if s1.preempting c.g ∧ c.g.place = .resident ∧ c.g.kind ≠ .callout then c.waitFor s1 c.lanes .site
      else if c.part = 0 then c.advance s1
      else if c.g.kind = .callout then c.illegal s1 c.part
      else match s1.checkAddr c.g (lowLane c.part) va n n .load with
      | .error f => c.fail s1 c.part f
      | .ok (.away _ _) => c.fail s1 c.part { code := cRemote, addr := va, detail := (s1.remotePart (s1.accOf c.g) va).getD 0 }
      | .ok (.here k) => loop k)

/-- TWAIT (09 R175). -/
def execTwait (p : BitVec 3) (a : BitVec 6) (g : BitVec 4) (s : State) : Out State :=
  twaitOp (.twait p a g) false p.toNat a.toNat s

/-- TWAIT.LOCK (09 R175). -/
def execTwaitLock (p : BitVec 3) (a : BitVec 6) (g : BitVec 4) (s : State) : Out State :=
  twaitOp (.twaitLock p a g) true p.toNat a.toNat s

end Sys2Proof.Machine
end

