-- ==== Sys2Proof/Machine/Teams.lean ====
section
/-! DEFINITION. The dispatch and admission of teams (02 R20, R21; 08 R150, R153, R154; 09 R172; 12 R227). -/
namespace Sys2Proof.Machine

/-- TEAM_DISPATCH: a core that can take a team in takes the next ticket of its die, or its place in a reservation, in either case with
the whole set of the team; unless one of the cores can take a task or call-out group of the same priority or a higher one (02 R20; 08 R153,
R154; 09 R172). -/
def execTeamDispatch (core grid : Nat) (s : State) : Out State :=
  match s.grids.get? grid with
  | none => .next s
  | some g =>
    if !s.dispatches g || !(s.coresOf g.part).contains core || s.itemFirst core g.r.prio then .next s
    else if g.r.coRes then
      match g.reserved.find? (fun r => r.2 / 4 == core) with
      | none => .next s
      | some r =>
        let set := g.mates r.1 g.reserved
        if set.any (fun x => s.itemFirst (x.2 / 4) g.r.prio) then .next s else
        let s1 := s.setGrid grid { g with reserved := g.reserved.filter (fun x => !set.contains x) }
        .next (({ s1 with disp := { s1.disp with admits := s1.disp.admits ++ set.map (fun x => (x.2, grid, x.1)) } } : State).count
          .dispTeamsStarted 0 set.length)
    else
      match drawTicket g.tickets (dieOfCore core) with
      | none => .next s
      | some (cs, stole, t) =>
        let teams := g.teamsOf t
        let at' := s.unitCores g core teams.length
        if at'.length < teams.length ∨ teams = [] ∨ at'.any (fun c => s.itemFirst c g.r.prio) then .next s else
        let s1 := s.setGrid grid { g with tickets := cs }
        let s2 := if stole then s1.count .dispDieSteals 0 1 else s1
        let places := (teams.zip at').map (fun q => (packPlace q.2 ((s.fit g q.2).getD 0), grid, q.1))
        .next (({ s2 with disp := { s2.disp with admits := s2.disp.admits ++ places } } : State).count .dispTeamsStarted 0 teams.length)

/-- The teams of one set admitted together, each on its core with its first quarter; none where the private pool has no room for them
all (02 R20, 05 R87). -/
def State.admitSet (s : State) (grid : Nat) (g : Grid) : List (Nat × Nat) → Option State
  | [] => some s
  | (index, place) :: t =>
    match s.privFree g g.privateBytes with
    | none => none
    | some win =>
      (s.admitTeam grid ((s.grids.get? grid).getD g) index (place / 4) (place % 4) win).admitSet grid g t

/-- TEAM_ADMIT: a core admits a team that took a ticket, with the rest of its set, once the cores hold their resources and the private pool
has room, after tasks and call-out groups of the same priority or a higher one; or a saved team of a grid that is resumed (02 R20, R21;
05 R87; 09 R172; 12 R227). -/
def execTeamAdmit (core grid ticket : Nat) (s : State) : Out State :=
  match s.grids.get? grid with
  | none => .next s
  | some g =>
    if !s.active g then .next s else
    match s.disp.admits.find? (fun q => q.1 / 4 == core && q.2.1 == grid && q.2.2 == ticket) with
    | some _ =>
      let set := g.mates ticket ((s.disp.admits.filter (fun q => q.2.1 == grid)).map (fun q => (q.2.2, q.1)))
      let s1 := { s with disp := { s.disp with admits := s.disp.admits.filter (fun q => !(q.2.1 == grid && set.contains (q.2.2, q.1))) } }
      if g.pre ≠ .none ∨ set.any (fun q => s.itemFirst (q.2 / 4) g.r.prio) ∨ !set.all (fun q => s1.fitsAt g (q.2 / 4) (q.2 % 4)) then .next s
      else .next ((s1.admitSet grid g set).getD s)
    | none =>
      match s.teams.find? (fun e => e.2.grid == grid && e.2.index == ticket && e.2.saved) with
      | none => .next s
      | some (team, t) =>
        match s.resumePlan core grid g team t with
        | none => .next s
        | some l =>
          if l.any (fun q => s.itemFirst q.2.2.1 g.r.prio) then .next s
          else .next ((l.foldl (fun s' q => s'.readmit q.1 q.2.1 q.2.2.1 q.2.2.2) s).settleResume grid)

end Sys2Proof.Machine
end

