-- ==== Sys2Proof/Machine/Queues.lean ====
section
/-! DEFINITION. Command queues: control blocks, slots and gangs, tail words and head blocks, and the commands that launch,
signal and wait (12 R216, R217; 13 R233, R240 to R245). -/
namespace Sys2Proof.Machine

/-! ## A queue's memory (13 R240, R242) -/

/-- A queue that is not mapped. -/
def noQueue : Queue :=
  { mapped := false, slot := none, age := 0, block := 0, base := 0, size := 16, asid := 0, prio := 0, part := 0, ctx := 0, root := 0,
    tail := 0, headBlk := 0, gang := 0, fa := 0, ring := 0, head := 0, seen := 0, state := 3, op := 0, code := 0,
    waitSince := none, faRecs := 0, run := [] }

/-- A queue by its number. -/
def State.queue (s : State) (q : Nat) : Queue := (s.ctrl.queues.get? q).getD noQueue
/-- The state with a queue changed. -/
def State.setQueue (s : State) (q : Nat) (x : Queue) : State :=
  { s with ctrl := { s.ctrl with queues := s.ctrl.queues.set q x } }

/-! ## Command links (13 R233)

The messages of `Ctrl.down` and `Ctrl.up` for one Turret stand in the order in which they were sent. The first 8 have a permit each and stand
on the link; those behind them wait at their sender, which does nothing further until it has sent them. -/

/-- The Turret that serves a slot. -/
def turretOf (slot : Nat) : Nat := slot % 48

/-- Permits of each direction of a link. -/
def linkPermits : Nat := 8

/-- A message of Campanile waits for a permit. -/
def State.campanileWaits (s : State) : Bool :=
  (List.range 48).any (fun t => decide (linkPermits < (s.ctrl.down.filter (fun m => m.1 == t)).length))

/-- A message of a Turret waits for a permit. -/
def State.turretWaits (s : State) (turret : Nat) : Bool := decide (linkPermits < (s.ctrl.up.filter (fun m => m.1 == turret)).length)

/-- A queue is served: it holds a slot, its Turret has been told so, and that Turret does not wait for a permit. -/
def State.served (s : State) (n : Nat) (q : Queue) : Bool :=
  match q.slot with
  | some k => !s.ctrl.down.any (fun m => m.2 == n) && !s.turretWaits (turretOf k)
  | none => false

/-- Campanile tells a Turret of a queue whose slot is given or taken away. -/
def State.sendDown (s : State) (turret n : Nat) : State := { s with ctrl := { s.ctrl with down := s.ctrl.down ++ [(turret, n)] } }

/-- The Turret of a queue has Campanile post an event; for a queue without a slot Campanile does so itself. -/
def State.reportUp (s : State) (q : Queue) (e : Event) : State :=
  match q.slot with
  | some k => { s with ctrl := { s.ctrl with up := s.ctrl.up ++ [(turretOf k, e)] } }
  | none => s.post e

/-- Campanile consumes the oldest message of a Turret and posts its event. -/
def State.takeUp (s : State) (turret : Nat) : State :=
  match s.ctrl.up.find? (fun m => m.1 == turret) with
  | some m => ({ s with ctrl := { s.ctrl with up := s.ctrl.up.erase m } }).post m.2
  | none => s

/-- The Turret's translations for a queue: its own address space, no holds. -/
def Queue.acc (q : Queue) : Acc :=
  { place := 204, core := 4096, asid := q.asid, root := q.root, part := q.part, strict := false, task := false, owner := 0 }

/-- The status word of a head block (13 R242). -/
def Queue.status (q : Queue) : Nat := q.state * 2 ^ 56 + q.op % 256 * 256 + q.code % 256

/-- The state with a queue changed and its head block written. -/
def State.putQueue (s : State) (q : Nat) (x : Queue) : State :=
  ((s.setQueue q x).lateWrite x.acc x.headBlk 8 x.head).lateWrite x.acc (add64 x.headBlk 8) 8 x.status

/-- A command entry (13 R243). -/
structure Entry where
  op : Nat
  flags : Nat
  n : Nat
  a : Nat
  b : Nat
  reserved : Bool
deriving DecidableEq, Repr

/-- A command entry from its 32 bytes. -/
def entryOf (w : Nat) : Entry :=
  { op := bits w 7 0, flags := bits w 15 8, n := bits w 63 32, a := bits w 127 64, b := bits w 191 128,
    reserved := bits w 15 9 != 0 || bits w 31 16 != 0 || bits w 255 192 != 0 }

/-- The address of the next command's entry. -/
def Queue.next (q : Queue) : Nat := add64 q.base (32 * (q.head % q.size))

/-- The next command, or the fault that reading its entry meets. -/
def State.nextCmd (s : State) (q : Queue) : Except FaultInfo Entry := (s.readVa q.acc q.next 32 32).map entryOf

/-! ## Stopping (13 R243, R245) -/

/-- The fault record of a queue command in the queue's fault area, of the layout of 08 R155, reserved bytes 0 (00 R5). -/
def State.queueRecord (s : State) (q : Queue) (r : FRec) : State :=
  let s1 := s.logRecord q.part r
  if q.fa = 0 then s1 else
  let s2 := if q.faRecs < 64 then s1.lateWords q.acc (add64 q.fa (0x40 + 32 * q.faRecs)) r.words else s1
  s2.lateWords q.acc q.fa [q.faRecs + 1, min 64 (q.faRecs + 1), 0, 0, 0, 0, 0, 0]

/-- An event about a queue goes to its address space's ring (13 R239). -/
def Queue.event (q : Queue) (code x y : Nat) : Event :=
  { ring := spaceKey q.part q.asid + 1, code := code, part := q.part, w := 0, x := x, y := y, z := 0 }

/-- A queue stops: FAULTED, with its record and the QUEUE_FAULT event; its head count still names the command. -/
def State.stopQueue (s : State) (n op : Nat) (f : FaultInfo) : State :=
  let q := s.queue n
  let r : FRec := { code := f.code, kind := 5, lane := 0, group := 0, team := 0, launch := 0, addr := f.addr, pc := 0,
                    detail := f.detail }
  ((s.queueRecord q r).putQueue n { q with
    state := 2
    op := op
    code := f.code
    waitSince := none
    faRecs := q.faRecs + 1 }).reportUp q (q.event 7 n (f.code + op * 256))

/-! ## Examining the next command (13 R242, R243, R245) -/

/-- Whether a WAIT's condition holds. -/
def State.waitHolds (s : State) (q : Queue) (e : Entry) : Except FaultInfo Bool :=
  (s.readVa q.acc e.a 8 8).map (fun x => decide (e.b ≤ x))

/-- Why a command stops its queue before it does anything: an unassigned opcode, a reserved bit, a feature not accepted, or
partitions that whole mode has not. -/
def State.cmdIllegal (s : State) (e : Entry) : Bool :=
  decide (8 < e.op) || e.reserved || ((e.op == 5 || e.op == 6) && !s.accepted 5) || (e.op == 2 && s.disp.whole && e.n % 256 != 1)

/-- A WAIT that has become the next command starts its time; any other command ends it. -/
def State.noteWait (s : State) (n : Nat) (q : Queue) (on : Bool) : State :=
  if on then (if q.waitSince.isSome then s else s.setQueue n { q with waitSince := some s.env.cycle })
  else if q.waitSince.isNone then s else s.setQueue n { q with waitSince := none }

/-- A queue's tail runs more than the ring's entries ahead of the head (13 R242). -/
def Queue.overrun (q : Queue) : Bool := q.mapped && q.state != 2 && decide (q.size < q.seen - q.head)

/-- Who reports on a queue can act: the Turret that serves it, or Campanile where it holds no slot; neither waits for a permit (13 R233). -/
def State.canReport (s : State) (n : Nat) (q : Queue) : Bool := if q.slot.isSome then s.served n q else !s.campanileWaits

/-- The Turret looks at a queue's next command: it stops the queue there, or notes that the queue waits. A tail more than the ring's entries
ahead of the head stops it too (13 R242). -/
def State.examine (s : State) (n : Nat) : State :=
  let q := s.queue n
  if !q.mapped || q.state == 2 then s
  else if q.overrun then
    if s.canReport n q then s.stopQueue n 0 { code := cIllegal, addr := q.tail, detail := 0 } else s
  else if q.seen ≤ q.head then s else
  match s.nextCmd q with
  | .error f => if !s.served n q then s else (s.sawAll q.acc [(q.next, 32)]).stopQueue n 0 f
  | .ok e =>
    if s.served n q && s.cmdIllegal e then
      (s.sawAll q.acc [(q.next, 32)]).stopQueue n e.op { code := cIllegal, addr := q.next, detail := e.op }
    else if s.cmdIllegal e then s
    else if e.op ≠ 4 then s.noteWait n q false
    else
      let s1 := s.noteWait n q true
      match s1.waitHolds q e with
      | .error f => if !s.served n q then s1 else (s1.sawAll q.acc [(q.next, 32), (e.a, 8)]).stopQueue n e.op f
      | .ok h =>
        if h || !s.served n q || q.state == 1 then s1
        else s1.putQueue n { s1.queue n with state := 1 }

/-! ## Slots and gangs (13 R240, R245; 12 R230) -/

/-- Slots of a partition. -/
def State.slotCount (s : State) : Nat := if s.disp.whole then 128 else 16

/-- The mapped queues of a partition that belong to the context it runs. -/
def State.eligible (s : State) (part : Nat) : List (Nat × Queue) :=
  s.ctrl.queues.filter (fun e => e.2.mapped && e.2.part == part && e.2.ctx == s.disp.running.getD part 0)

/-- The gang of a queue among some queues: all that share its nonzero gang id, or the queue alone. -/
def gangOf (l : List (Nat × Queue)) (e : Nat × Queue) : List (Nat × Queue) :=
  if e.2.gang = 0 then [e] else l.filter (fun x => x.2.gang == e.2.gang)

/-- The slots that no queue of a partition holds. -/
def State.freeSlots (s : State) (part : Nat) : List Nat :=
  let used := s.ctrl.queues.filterMap (fun e => if e.2.part = part then e.2.slot else none)
  ((List.range s.slotCount).map (fun i => if s.disp.whole then i else 16 * part + i)).filter (fun i => !used.contains i)

/-- A queue takes a slot: its Turret is told. -/
def State.takeSlot (s : State) (n slot : Nat) : State := (s.setQueue n { s.queue n with slot := some slot }).sendDown (turretOf slot) n

/-- A queue that its Turret begins to serve: an UNMAPPED one runs (13 R242), and its commands are read from now on. -/
def State.serve (s : State) (n : Nat) : State :=
  let q := s.queue n
  (if q.state = 3 then s.putQueue n { q with state := 0 } else s).examine n

/-- A Turret consumes the oldest message for it: once it has consumed every message about a queue that holds a slot of its, it serves
the queue. -/
def State.takeDown (s : State) (turret : Nat) : State :=
  match s.ctrl.down.find? (fun m => m.1 == turret) with
  | some m =>
    let s1 : State := { s with ctrl := { s.ctrl with down := s.ctrl.down.erase m } }
    if (s1.queue m.2).slot.any (fun k => turretOf k == turret) && !s1.ctrl.down.any (fun x => x.2 == m.2) then s1.serve m.2 else s1
  | none => s

/-- A queue's slot is given up; with `report`, its head block says UNMAPPED. -/
def State.leaveSlot (s : State) (report : Bool) (n : Nat) : State :=
  let q := s.queue n
  if report && q.state != 2 then s.putQueue n { q with
    slot := none
    state := 3 } else s.setQueue n { q with slot := none }

/-- Campanile takes a queue's slot away, and tells its Turret. -/
def State.dropSlot (s : State) (report : Bool) (n : Nat) : State :=
  match (s.queue n).slot with
  | some k => (s.leaveSlot report n).sendDown (turretOf k) n
  | none => s.leaveSlot report n

/-- A gang takes slots, when there are enough. -/
def State.seatGang (s : State) (part : Nat) (gang : List (Nat × Queue)) : State :=
  let free := s.freeSlots part
  let need := gang.filter (fun e => e.2.slot.isNone)
  if free.length < need.length then s else (need.zip free).foldl (fun s' q => s'.takeSlot q.1.1 q.2) s

/-- The key by which Campanile prefers gangs: priority first, then age; smaller is preferred. -/
def gangKey (g : List (Nat × Queue)) : Nat :=
  let p := maxOf (g.map (·.2.prio))
  let age := (g.map (·.2.age)).foldl min ((g.headD (0, noQueue)).2.age)
  (255 - p) * 2 ^ 64 + age

/-- Items in rising order of a key; equal keys keep their order. -/
def sortBy {α : Type} (key : α → Nat) (l : List α) : List α :=
  l.foldl (fun acc x => (acc.takeWhile (fun y => decide (key y ≤ key x))) ++ [x] ++ (acc.dropWhile (fun y => decide (key y ≤ key x)))) []

/-- The gangs of some queues, each once. -/
def gangsOf (l : List (Nat × Queue)) : List (List (Nat × Queue)) := (l.map (gangOf l)).eraseDups

/-- Slots given to whole gangs by priority and then by age; a gang that is no longer whole gives its slots up first. -/
def State.giveSlots (s : State) (part : Nat) : State :=
  let torn := (gangsOf (s.eligible part)).filter (fun g => g.any (fun e => e.2.slot.isNone) && g.any (fun e => e.2.slot.isSome))
  let s1 := torn.flatten.foldl (fun s' e => s'.dropSlot false e.1) s
  let gs := sortBy gangKey ((gangsOf (s1.eligible part)).filter (fun g =>
    g.all (fun e => e.2.slot.isNone) && decide (g.length ≤ s.slotCount)))
  gs.foldl (fun s' g => s'.seatGang part g) s1

/-- A gang has work that can go on: a pending command that is no WAIT whose condition fails. -/
def State.gangReady (s : State) (g : List (Nat × Queue)) : Bool :=
  g.any (fun e => decide (e.2.head < e.2.seen) && e.2.state != 2 &&
    (match s.nextCmd e.2 with
      | .ok c => c.op != 4 || (match s.waitHolds e.2 c with | .ok h => h | .error _ => true)
      | .error _ => true))

/-- A queue is waiting: its next command is a WAIT whose condition does not hold now (13 R245). -/
def State.waits (s : State) (q : Queue) : Bool :=
  decide (q.head < q.seen) && decide (q.state < 2) &&
  (match s.nextCmd q with
    | .ok e => e.op == 4 && !s.cmdIllegal e && (match s.waitHolds q e with | .ok h => !h | .error _ => false)
    | .error _ => false)

/-- Every slot of a partition holds a waiting queue, and a queue with pending entries holds none (13 R245). -/
def State.slotsBlocked (s : State) (part : Nat) : Bool :=
  let l := s.eligible part
  (s.freeSlots part).isEmpty && (l.filter (fun e => e.2.slot.isSome)).all (fun e => s.waits e.2) &&
  l.any (fun e => e.2.slot.isNone && decide (e.2.head < e.2.seen) && e.2.state != 2)

/-- GANG_UNMAP: the Turret of the gang whose WAIT has waited longest unmaps that gang and reports it, once it waits for no permit (13 R233,
R245). -/
def execGangUnmap (part : Nat) (s : State) : Out State :=
  if !s.slotsBlocked part then .next s else
  let l := s.eligible part
  match leastBy (fun e => e.2.waitSince.getD s.env.cycle) (l.filter (fun e => e.2.slot.isSome)) with
  | none => .next s
  | some e => if e.2.slot.any (fun k => s.turretWaits (turretOf k)) then .next s else .next (((gangOf l e).foldl (fun s' x => s'.leaveSlot true x.1) s).reportUp e.2 (e.2.event 6 e.2.gang 0))

/-- The age of a gang: that of its oldest queue. -/
def gangAge (g : List (Nat × Queue)) : Nat := (g.map (·.2.age)).foldl min ((g.headD (0, noQueue)).2.age)

/-- Slots that are free go to the oldest gangs that are ready, once every unmapped gang of the partition has been posted and Campanile waits for
no permit (13 R233, R245). -/
def State.seatReady (s : State) (part : Nat) : State :=
  if s.campanileWaits || s.ctrl.up.any (fun m => m.2.code == 6 && m.2.part == part) then s else
  let ready := (gangsOf (s.eligible part)).filter (fun g => g.all (fun x => x.2.slot.isNone) && s.gangReady g && decide (g.length ≤ s.slotCount))
  (sortBy gangAge ready).foldl (fun s' g => s'.seatGang part g) s

/-- The Turret tests a tail word that has been written (13 R242). -/
def State.seeTail (s : State) (q v : Nat) : State := (s.setQueue q { s.queue q with seen := v }).examine q

/-- TAIL_WORD_UPDATE: the producer, whose own translation allows it, writes a value to a queue's tail word, and the Turret tests it
(13 R242). -/
def execTailWordUpdate (q value : Nat) (s : State) : Out State :=
  let x := s.queue q
  if !x.mapped then .next s else
  let v := value % 2 ^ 64
  .next ((match s.translate x.acc .load x.tail with
    | .ok (.here k) => s.lateStore (x.acc.ask true (s.leafFor x.acc x.tail)) { part := x.part, key := k, n := 8, w := v, add := false }
    | _ => s).seeTail q v)

/-! ## The frame of every command (13 R243) -/

/-- A command has completed: every grid it made has a final STATUS. -/
def State.cmdDone (s : State) (c : Cmd) : Bool :=
  c.grids.all (fun id => match s.grids.get? id with | some g => g.status != 0 | none => true)

/-- Every accepted command of a queue has completed. -/
def State.cmdsDone (s : State) (q : Queue) : Bool := q.run.all s.cmdDone

/-- What accepting a command comes to: it cannot be accepted yet, its address faults after some writes, or it is accepted and has
made grids. -/
inductive CmdRes where
  | wait
  | stop (s : State) (f : FaultInfo)
  | accepted (s : State) (grids : List Nat)

/-- THE FRAME OF A QUEUE COMMAND: the queue is served by its Turret, is not FAULTED, and its next command has this opcode; BARRIER waits for
every earlier command. An accepted command raises the head count in the same step (13 R234). -/
def command (n op : Nat) (s : State) (k : Queue → Entry → State → CmdRes) : Out State :=
  let q := s.queue n
  if !q.mapped || !s.served n q || decide (1 < q.state) || decide (q.seen ≤ q.head) || decide (q.size < q.seen - q.head) then .next s else
  match s.nextCmd q with
  | .error _ => .next (s.examine n)
  | .ok e =>
    if e.op ≠ op then .next s
    else if s.cmdIllegal e then .next (s.examine n)
    else if bit e.flags 0 && !s.cmdsDone q then .next s
    else
      match k q e (s.sawAll q.acc [(q.next, 32)]) with
      | .wait => .next (s.examine n)
      | .stop s1 f => .next (s1.stopQueue n op f)
      | .accepted s1 grids =>
        let live := q.run.filter (fun c => !s.cmdDone c)
        .next ((s1.putQueue n { s1.queue n with
          head := q.head + 1
          state := 0
          waitSince := none
          run := if grids.isEmpty then live else live ++ [{ n := q.head, grids := grids }] }).examine n)

/-- NOP (13 R243). -/
def execQueueNop (q : Nat) (s : State) : Out State := command q 0 s (fun _ _ s1 => .accepted s1 [])

/-- Who launches for a queue's command. -/
def Queue.launcher (x : Queue) (s : State) (q : Nat) (gang : Bool) : Launcher :=
  { acc := x.acc, ctx := x.ctx, die := s.lowDie x.part, child := false, podWanted := false, cmd := some (q, x.head), gang := gang,
    pend := none }

/-- DISPATCH: a launch record accepted as a LAUNCH in the queue's address space; it completes at the grid's final STATUS
(13 R243). -/
def execDispatch (q : Nat) (s : State) : Out State :=
  command q 1 s (fun x e s1 =>
    match s1.readVa x.acc e.a 128 128 with
    | .error f => .stop (s1.sawAll x.acc [(e.a, 128)]) f
    | .ok w =>
      let r := ((s1.sawAll x.acc [(e.a, 128)]).useFree 1).acceptRecord (x.launcher s1 q false) e.a w none
      .accepted r.1 (if r.2 = 0 then [] else [r.2]))

/-- What DISPATCH_GANG reads: the addresses of the records, and the records. -/
def gangReads (e : Entry) (rs : List (Nat × Nat × Nat)) : List (Nat × Nat) :=
  (((List.range 8).filter (fun p => bit e.n p)).map (fun p => (add64 e.a (8 * p), 8))) ++ rs.map (fun r => (r.2.1, 128))

/-- The launch records that a DISPATCH_GANG names, by partition. -/
def State.gangRecords (s : State) (x : Queue) (e : Entry) : Except FaultInfo (List (Nat × Nat × Nat)) :=
  ((List.range 8).filter (fun p => bit e.n p)).mapM (fun p =>
    match s.readVa x.acc (add64 e.a (8 * p)) 8 8 with
    | .error f => .error f
    | .ok a => (s.readVa x.acc a 128 128).map (fun w => (p, a, w)))

/-- DISPATCH_GANG: each named partition accepts its own record and reserves; all commit or all roll back, with the status of R151: 3 where
one fails for its holds, else 4 (13 R244). -/
def execDispatchGang (q : Nat) (s : State) : Out State :=
  command q 2 s (fun x e s1 =>
    match s1.gangRecords x e with
    | .error f => .stop s1 f
    | .ok rs =>
      let s2 := (s1.sawAll x.acc (gangReads e rs)).useFree 1
      let l := x.launcher s1 q true
      let r := rs.foldl (fun (st : State × List Nat) p =>
        let y := st.1.acceptRecord { l with
          acc := { l.acc with part := p.1 }
          die := s1.lowDie p.1 } p.2.1 p.2.2 none
        (y.1, st.2 ++ [y.2])) (s2, [])
      let awaits (s' : State) (id : Nat) : Bool := match s'.grids.get? id with | some g => g.state == .presence | none => false
      let whole := r.2.all (awaits r.1)
      let held := r.2.all (fun id => match r.1.grids.get? id with | some g => !g.holdFail | none => true)
      .accepted (r.2.foldl (fun s' id =>
        if !awaits s' id then s' else if whole then s'.advanceGrid id else if held then s'.unreserved id else s'.endGrid id 3) r.1)
        (r.2.filter (· != 0)))

/-- Where `n` bytes that a command writes lie, after the checks of an access. -/
def State.storeLoc (s : State) (a : Acc) (va n : Nat) : Except FaultInfo Loc :=
  if windowOf va ≠ .glb then .error { code := cRange, addr := va, detail := 0 }
  else if !canonical va then .error { code := cNoncanonical, addr := va, detail := 0 }
  else if va % n ≠ 0 then .error { code := cMisaligned, addr := va, detail := n }
  else s.translate a .store va

/-- A command's write to another part: discarded and counted when the part cannot be reached (14 R253). -/
def State.turretWrite (s : State) (part : Nat) (m : Msg) : State :=
  if s.fab.unreachable.contains part then s.count .fabDroppedWrites 0 1 else s.send m

/-- SIGNAL: a store or an atomic add of 8 bytes after every earlier command, and while no engine pins the line (04 R75, 13 R243). -/
def execSignal (q : Nat) (s : State) : Out State :=
  command q 3 s (fun x e s1 =>
    if !s1.cmdsDone x then .wait
    else match s1.storeLoc x.acc e.a 8 with
      | .error f => .stop s1 f
      | .ok (.here k) =>
        let s2 := s1.ownAccess x.part k 8 true
        if s1.lateHeld k 8 then .wait else if bit e.n 0 then
          match s1.mem.poisonAt k 8 with
          | some p => .stop s1 (eccAt e.a p)
          | none => .accepted (s2.writeMem k 8 (s2.readMem k 8 + e.b)) []
        else .accepted (s2.writeMem k 8 e.b) []
      | .ok (.away p pa) =>
        if s1.fab.unreachable.contains p && bit e.n 0 then .stop s1 (unreachableAt e.a)
        else .accepted (s1.turretWrite p (if bit e.n 0 then (ownAsk x.part true).msg p 2 8 [pa, 8, 0, e.b]
          else (ownAsk x.part true).msg p 1 8 [pa, 8, e.b])) [])

/-- WAIT: accepted when the signal word reaches the value (13 R243, R245). -/
def execWait (q : Nat) (s : State) : Out State :=
  command q 4 s (fun x e s1 =>
    match s1.waitHolds x e with
    | .error f => .stop s1 f
    | .ok h => if h then .accepted ((s1.sawAll x.acc [(e.a, 8)]).useFree 1) [] else .wait)

/-- WAIT_TIMEOUT: a WAIT's timeout expires, whether or not its queue holds a slot (13 R245). -/
def execWaitTimeout (q : Nat) (s : State) : Out State :=
  let x := s.queue q
  if !x.mapped || x.state == 2 || decide (x.seen ≤ x.head) || x.slot.any (fun k => s.turretWaits (turretOf k)) then .next s else
  match s.nextCmd x, x.waitSince with
  | .ok e, some t =>
    if e.op ≠ 4 ∨ e.n = 0 ∨ s.env.cycle - t < usCycles e.n then .next s else
    match s.waitHolds x e with
    | .ok false =>
      .next ((s.stopQueue q 4 { code := cTimeout, addr := x.block, detail := q }).reportUp x (x.event 5 q 0))
    | _ => .next s
  | _, _ => .next s

/-- FENCE: a release at POD scope after every earlier command (13 R243). -/
def execQueueFence (q : Nat) (s : State) : Out State :=
  command q 7 s (fun x _ s1 => if s1.cmdsDone x then .accepted s1 [] else .wait)

/-- TIMESTAMP: pod time in ns written at A, while no engine pins its line (04 R75, 13 R243). -/
def execTimestamp (q : Nat) (s : State) : Out State :=
  command q 8 s (fun x e s1 =>
    if !s1.cmdsDone x then .wait
    else match s1.storeLoc x.acc e.a 8 with
      | .error f => .stop s1 f
      | .ok (.here k) => if s1.lateHeld k 8 then .wait else .accepted ((s1.ownAccess x.part k 8 true).writeMem k 8 s1.podTime) []
      | .ok (.away p pa) => .accepted (s1.turretWrite p ((ownAsk x.part true).msg p 1 8 [pa, 8, s1.podTime])) [])

end Sys2Proof.Machine
end

