-- ==== Sys2Proof/Machine/Landing.lean ====
section
/-! DEFINITION. Results that land and writes that are acknowledged (02 R29, R30; 07 R131; 14 R252; 23 R334; 24 R348). -/
namespace Sys2Proof.Machine

/-- A pending result with the data that a remote home has returned (14 R252); of size 0, it stands for results of which the home holds a
part only. -/
def Pend.arrive (p : Pend) (data : Nat) : Pend :=
  match p.src with
  | .remote _ _ size signed =>
    match p.sreg with
    | some _ => { p with swrite := BitVec.ofNat 64 data }
    | none =>
      if p.regs = [] ∨ size = 0 then p
      else { p with writes := laneWrites (p.regs.headD 0) (lowLane p.lanes) (loadWords size signed (data % 2 ^ (8 * size))) }
  | _ => p

/-- Whether a result's value is at hand, or comes with the event. -/
def Pend.canLand (p : Pend) : Bool :=
  match p.src with
  | .ready | .poisoned | .remote .. => true
  | _ => false

/-- A group after a result has landed: lanes that have exited discard theirs (23 R334). -/
def Group.land (g : Group) (p : Pend) : Group :=
  let ws := p.writes.filter (fun w => g.live.getLsbD w.2.1)
  let whole := p.lanes = BitVec.allOnes 32
  let g1 := { g with
    pend := g.pend.filter (fun q => q.id != p.id)
    v := ws.foldl (fun m w => m.put (w.1 * 32 + w.2.1) w.2.2 0) g.v
    poison := if p.src = .poisoned then (g.poison ++ p.regs).eraseDups
      else if whole then g.poison.filter (fun r => !p.regs.contains r) else g.poison }
  match p.sreg with
  | some n => g1.sset n p.swrite
  | none => g1

/-- What landing counts: deadlines that the data has missed (06 R108), registers that it poisons (12 R232), and flits that another part
sent (14 R264). -/
def State.noteLanded (s : State) (g : Group) (p : Pend) : State :=
  let s1 := s.noteMisses p.due
  match p.src with
  | .poisoned => s1.count .eccPoisoned (s.gridOf g).part p.regs.length
  | .remote _ _ size _ => s1.countRx none size
  | _ => s1

/-- The fault that a result raises as it lands, with its lane: the first of those that its instruction's data bring whose lane is live; one
for a scalar register, in any case. What stands above 128 bits of remote data says that the home's sector is poisoned: its place, plus 1
(12 R231, 24 R348, 25 R373). -/
def Pend.fault (p : Pend) (g : Group) (data : Nat) : Option (FaultInfo × Nat) :=
  let far := match p.src with
    | .remote _ a _ _ =>
      if data / 2 ^ 128 = 0 then [] else [(eccAt a ((data / 2 ^ 128 - 1) % 4), if p.regs = [] then p.agent else lowLane p.lanes)]
    | _ => []
  if g.live = 0 then none
  else if p.regs = [] then (p.bad ++ far).head? else (p.bad ++ far).find? (fun b => g.live.getLsbD b.2)

/-- LOAD_DATA_LANDS: a pending result of a group lands, or raises its deferred fault (02 R29, 24 R348). A remote one's request has left
before (01 R16). -/
def execLoadDataLands (gid item data : Nat) (s : State) : Out State :=
  match s.groups.get? gid with
  | none => .next s
  | some g =>
    match g.pend.find? (fun p => p.id == item) with
    | none => .next s
    | some p0 =>
      if !p0.canLand || !s.hasLeft p0.msg then .next s else
      let p := p0.arrive (data % 2 ^ 128)
      match p.fault g data with
      | some (f, l) => .next ((s.noteLanded g p).takeFault gid l p.pc f)
      | none =>
        if !g.stackOk (p.sreg.getD 0) p.swrite then
          .next (s.takeFault gid (lowLane g.live) p.pc { code := cStack, addr := p.swrite.toNat, detail := 0 })
        else .next (((s.setGroup gid (g.land p)).noteLanded g p).settleUnit gid)

/-- How many of the last writes of a sender still wait for their channel (01 R16). -/
def State.unsent (s : State) (p : Nat × Nat → Bool) : Nat :=
  ((s.stalledMsgs 0).filter (fun m => (m.op == 1 || m.op == 3) && m.owner.any p)).length

/-- The `n`-th of a group's writes that wait for an acknowledgement has left the part. -/
def State.ownLeft (s : State) (gid n own : Nat) : Bool := decide (n + s.unsent (fun q => q.1 == gid && decide (q.2 < 32)) < own)
/-- A piece of a copy has left the part. -/
def State.pieceLeft (s : State) (q : Nat × Nat × Nat) : Bool :=
  (s.eng.copies.find? (fun c => c.id == q.1)).any (fun c => (c.sent.take (c.sent.length - s.unsent (· == (c.id, 32)))).contains q.2)
/-- A piece of a drain's output has left the part. -/
def State.drainLeft (s : State) (q : MxOp × Nat) : Bool :=
  match q.1.kind with
  | .sent ps => (ps.take (ps.length - s.unsent (· == q.1.owner))).contains q.2
  | _ => false

/-- ACKNOWLEDGED_AT_HOME: another part acknowledges a group's write, the `n`-th of those it waits for: its lanes' writes, then the
pieces of its copies, then those of its drains (04 R82; 07 R131, R138). Nothing that has not left the part is acknowledged. -/
def execAcknowledgedAtHome (gid n : Nat) (s : State) : Out State :=
  let own := match s.groups.get? gid with | some g => g.unacked.length | none => 0
  let s1 := s.countRx none 0
  match if n < own then none else (s.copyPieces gid)[n - own]? with
  | some q => .next (if s.pieceLeft q then s1.pieceDone q else s)
  | none =>
    match if n < own + (s.copyPieces gid).length then none else (s.drainPieces gid)[n - own - (s.copyPieces gid).length]? with
    | some q => .next (if s.drainLeft q then s1.drainPieceDone q else s)
    | none =>
      if !s.ownLeft gid n own then .next s else .next ((s1.modGroup gid (fun g => { g with unacked := g.unacked.eraseIdx n })).settleUnit gid)

end Sys2Proof.Machine
end

