-- ==== Sys2Proof/Machine/Rays.lean ====
section
/-! DEFINITION. Rays: casting, Spire units, exact traversal, hits, call-outs, treelets, repacking, parking (10; 25 R367, R368, R382,
R383). -/
namespace Sys2Proof.Machine

/-! ## Exact values (10 R192, R193) -/

/-- A finite FP32 value as an integer in units of 2^-149; 0 otherwise. -/
def fx (w : W32) : Int := match f32 w with | .fin s m e => sgn s (m * 2 ^ (e + 149).toNat) | _ => 0
/-- An FP32 word is finite. -/
def finite (w : W32) : Bool := match f32 w with | .fin .. => true | _ => false
/-- An FP32 word's value; a NaN counts as none. -/
def xval (w : W32) : Option XFrac :=
  match f32 w with
  | .nan => none
  | .inf s => some (if s then .negInf else .posInf)
  | .fin .. => some (.fin (fx w) 1)
/-- Order of exact values. -/
def XFrac.le : XFrac → XFrac → Bool
  | .negInf, _ => true
  | _, .posInf => true
  | .posInf, _ => false
  | _, .negInf => false
  | .fin a b, .fin c d => decide (a * d ≤ c * b)
/-- Strict order. -/
def XFrac.lt (a b : XFrac) : Bool := !b.le a
/-- The greater value. -/
def XFrac.max (a b : XFrac) : XFrac := if a.le b then b else a
/-- The lesser value. -/
def XFrac.min (a b : XFrac) : XFrac := if a.le b then a else b
/-- A ratio with a positive denominator. -/
def ratio (n d : Int) : XFrac := if d < 0 then .fin (-n) d.natAbs else .fin n d.natAbs
/-- A parameter in units of ratios: an FP32 word's value, where 1 is 2^149 units. -/
def xparam (w : W32) : XFrac :=
  match xval w with
  | some (.fin n _) => .fin n (2 ^ 149)
  | some x => x
  | none => .posInf

/-- Where a ray meets one slab: the interval, or none. `lo` and `hi` are a bound's words. -/
def slabAxis (o d : Int) (lo hi : XFrac) : Option (XFrac × XFrac) :=
  if !lo.le hi then none
  else if d = 0 then if lo.le (.fin o 1) && (XFrac.fin o 1).le hi then some (.negInf, .posInf) else none
  else
    let at' (b : XFrac) : XFrac := match b with
      | .fin n _ => ratio (n - o) d
      | .negInf => if 0 < d then .negInf else .posInf
      | .posInf => if 0 < d then .posInf else .negInf
    some ((at' lo).min (at' hi), (at' lo).max (at' hi))

/-- The intervals of three axes met. -/
def slabMeet : List (Option (XFrac × XFrac)) → Option (XFrac × XFrac)
  | [] => some (.negInf, .posInf)
  | none :: _ => none
  | some (a, b) :: t => (slabMeet t).map (fun q => (a.max q.1, b.min q.2))

/-- The entry parameter of a ray into a box of six words, when the box is entered (10 R192). -/
def boxEnter (sp : RSpace) (tmin tbest : W32) (box : List W32) : Option XFrac :=
  let axis (i : Nat) : Option (XFrac × XFrac) :=
    match xval (box.getD i 0), xval (box.getD (i + 3) 0) with
    | some lo, some hi => slabAxis (fx (sp.o.getD i 0)) (fx (sp.d.getD i 0)) lo hi
    | _, _ => none
  match slabMeet ((List.range 3).map axis) with
  | none => none
  | some (tn, tf) => if tn.le tf && tn.le (xparam tbest) && (xparam tmin).le tf then some tn else none

/-- A vector of exact integers. -/
abbrev Vec3 := Int × Int × Int
/-- Difference. -/
def Vec3.sub (a b : Vec3) : Vec3 := (a.1 - b.1, a.2.1 - b.2.1, a.2.2 - b.2.2)
/-- Dot product. -/
def Vec3.dot (a b : Vec3) : Int := a.1 * b.1 + a.2.1 * b.2.1 + a.2.2 * b.2.2
/-- Cross product. -/
def Vec3.cross (a b : Vec3) : Vec3 :=
  (a.2.1 * b.2.2 - a.2.2 * b.2.1, a.2.2 * b.1 - a.1 * b.2.2, a.1 * b.2.1 - a.2.1 * b.1)
/-- Three words of a list as exact values. -/
def vecAt (l : List W32) (i : Nat) : Vec3 := (fx (l.getD i 0), fx (l.getD (i + 1) 0), fx (l.getD (i + 2) 0))
/-- A ratio rounded once to FP32. -/
def roundX (n d : Int) : W32 :=
  let m := if d < 0 then -n else n
  BitVec.ofNat 32 (roundRatio .f32 .rne (decide (m < 0)) m.natAbs d.natAbs)

/-- The candidate of a triangle of nine words: t, u, v and whether the face is back (10 R193). -/
def triTest (sp : RSpace) (flags : Nat) (vs : List W32) : Option (W32 × W32 × W32 × Bool) :=
  if !(vs.take 9).all finite then none else
  let v0 := vecAt vs 0
  let e1 := Vec3.sub (vecAt vs 3) v0
  let e2 := Vec3.sub (vecAt vs 6) v0
  let d := vecAt sp.d 0
  let n := Vec3.cross e1 e2
  let det := -(Vec3.dot d n)
  if det = 0 then none else
  let back := decide (det < 0)
  if (bit flags 1 && back) || (bit flags 2 && !back) then none else
  let w := Vec3.sub (vecAt sp.o 0) v0
  let nd : Vec3 := (-d.1, -d.2.1, -d.2.2)
  let t := Vec3.dot w n
  let u := Vec3.dot nd (Vec3.cross w e2)
  let v := Vec3.dot nd (Vec3.cross e1 w)
  let pos (x : Int) : Bool := decide (x = 0) || decide (x < 0) == decide (det < 0)
  if !pos u || !pos v || !pos (det - u - v) then none
  else some (roundX t det, roundX u det, roundX v det, back)

/-- A transform's twelve words applied to a space: the object space, or none when a component is not finite or the direction
is 0 (10 R192). -/
def intoObject (m : List W32) (sp : RSpace) (inst off : Nat) : Option RSpace :=
  if !(m.take 12).all finite then none else
  let row (i : Nat) (v : List W32) (last : Bool) : W32 :=
    let x := fx (m.getD (4 * i) 0) * fx (v.getD 0 0) + fx (m.getD (4 * i + 1) 0) * fx (v.getD 1 0) +
      fx (m.getD (4 * i + 2) 0) * fx (v.getD 2 0) + (if last then fx (m.getD (4 * i + 3) 0) * 2 ^ 149 else 0)
    BitVec.ofNat 32 (roundDy .f32 .rne false x (-298))
  let o := (List.range 3).map (fun i => row i sp.o true)
  let d := (List.range 3).map (fun i => row i sp.d false)
  if !(o ++ d).all finite || d.all (fun w => fx w == 0) then none
  else some { o := o, d := d, inst := inst, off := off }

/-! ## Reads for a ray (10 R196, 19 R301) -/

/-- The unit at which a ray queues. -/
def Ray.unit (r : Ray) : Nat := 16 * r.home + r.treelet % 16

/-- Who translates for a ray: the base die's TLB, with the holds of the lane's work; the requester is its unit, the class its grid's (05 R97,
R102; 06 R104, R108). -/
def State.rayAcc (s : State) (r : Ray) : Acc :=
  let g := (s.grids.get? r.grid).getD noGrid
  { place := 192 + r.home, core := r.core, asid := r.asid, root := g.root, part := g.part, strict := r.strict, task := r.task,
    owner := if r.task then r.team * 64 else r.grid, req := 192 + r.unit, cls := g.r.cls, stamp := s.stampOf g.part g.r.cls }

/-- `n` bytes at an address read for a ray, or the fault. -/
def State.rayRead (s : State) (r : Ray) (va n : Nat) : Except FaultInfo Nat := s.readVa (s.rayAcc r) va n 1

/-- The state after a ray has read bytes of one page, as a lane's load does: translated, requested here or at the part that holds them, and
partials there combined; the answer of another part is counted with it (06 R104, 07 R133, 14 R252, R264, 19 R301; log 16). -/
def State.raySaw (r : Ray) (s : State) (q : Nat × Nat) : State :=
  let a := s.rayAcc r
  let g := (s.grids.get? r.grid).getD noGrid
  let ask : Ask := ({ part := g.part, requester := a.req, cls := g.r.cls, stamp := s.stampOf g.part g.r.cls, write := false,
                      carried := none } : Ask).tagged ((s.leafFor a q.1).map (fun l => pteTag l.pte))
  let s1 := s.noteAccess a q.1
  match s.translate a .load q.1 with
  | .ok (.here k) => (s1.requests ask (k / 4) q.2).combine k q.2
  | .ok (.away p pa) => ((s1.send (ask.msg p 0 0 [pa, q.2])).countRx none q.2).useFree 1
  | .error _ => s1

/-- The state after a ray's read of `n` bytes. -/
def State.rayTouch (s : State) (r : Ray) (va n : Nat) : State := (pagePieces (n / 4096 + 2) va n).foldl (State.raySaw r) s

/-- Words of a number, the first lowest. -/
def w32s (n w : Nat) : List W32 := (List.range n).map (fun i => BitVec.ofNat 32 (w / 2 ^ (32 * i)))

/-- The stack that a HOME byte names. The spec states none for a byte above 7: a free value. -/
def homeStack (h : Nat) : Nat := if h < 8 then h else Config.freeChoice (2 ^ 64 + h) % 8

/-- The stack of a treelet: the partition's own in partitioned mode, else its entry's HOME (10 R184). An id at or above C has none
and stays where the ray is, to fail when it enters. -/
def State.treeletHome (s : State) (r : Ray) (t : Nat) : Except FaultInfo Nat :=
  if !s.disp.whole then .ok r.stackNo
  else if r.count ≤ t then .ok r.home
  else (s.rayRead r (add64 r.table (32 * t + 0xD)) 1).map homeStack

/-- The state after that HOME has been looked up. -/
def State.homeSaw (s : State) (r : Ray) (t : Nat) : State :=
  if !s.disp.whole || decide (r.count ≤ t) then s else s.rayTouch r (add64 r.table (32 * t + 0xD)) 1

/-- The ray ends with FAULT. -/
def Ray.fail (r : Ray) (f : FaultInfo) : Ray := { r with st := .ended 2 f.code f.detail f.addr }
/-- The same for a read that faulted: its walk is counted (05 R103). -/
def State.rayFail (s : State) (r : Ray) (f : FaultInfo) : State × Ray :=
  (if s.ofWalk (s.rayAcc r) f then s.noteAccess (s.rayAcc r) f.addr else s, r.fail f)
/-- The ray ends: HIT or MISS. -/
def Ray.finish (r : Ray) : Ray := { r with st := .ended (if r.hit.isSome then 0 else 1) 0 0 0 }
/-- The step limit is reached (10 R195). -/
def Ray.atLimit (r : Ray) : Bool := r.limit != 0 && decide (r.limit ≤ r.steps)
/-- A broken format: SPACE_RANGE with a detail (10 R196). -/
def rayRange (addr detail : Nat) : FaultInfo := { code := cRange, addr := addr, detail := detail }

/-! ## Hits (10 R193, R195) -/

/-- A candidate qualifies. -/
def Ray.qualifies (r : Ray) (h : Hit) : Bool :=
  (xparam r.tmin).le (xparam h.t) && (xparam h.t).le (xparam r.tbest) &&
  (match r.hit with
    | none => true
    | some c => !(xparam r.tbest).le (xparam h.t) || decide (h.inst < c.inst) || (h.inst == c.inst && decide (h.prim < c.prim)))

/-- A hit committed; a ray with FIRST_HIT ends. -/
def Ray.commit (r : Ray) (h : Hit) : Ray :=
  let r1 := { r with
    tbest := h.t
    hit := some h }
  if bit r.flags 0 then { r1 with st := .ended 0 0 0 0 } else r1

/-! ## Call-outs (10 R197) -/

/-- A call-out table entry: any-hit and intersection offsets, budget code, whether a reserved bit is set. -/
def State.calloutEntry (s : State) (r : Ray) : Except FaultInfo (Nat × Nat × Nat × Bool) :=
  if r.calls = 0 then .ok (0xFFFFFFFF, 0xFFFFFFFF, 0, false) else
  (s.rayRead r (add64 r.calls (16 * ((r.coi + r.sp.off) % 256))) 16).map (fun w =>
    (bits w 31 0, bits w 63 32, bits w 71 64, bits w 127 72 != 0))

/-- The state after that entry has been read. -/
def State.calloutSaw (s : State) (r : Ray) : State :=
  if r.calls = 0 then s else s.rayTouch r (add64 r.calls (16 * ((r.coi + r.sp.off) % 256))) 16

/-- A call-out raised for a candidate, or the ray fails. -/
def State.raise (s : State) (slot : Nat) (r : Ray) (kind entry budget : Nat) (bad : Bool) (h : Hit) : State × Ray :=
  if 14 < budget then (s, { r with st := .ended 2 cCallout cRegister 0 })
  else if bad then (s, { r with st := .ended 2 cCallout cIllegal 0 })
  else
    let w (n : Nat) : W32 := BitVec.ofNat 32 n
    let regs := [w kind, if kind = 0 then h.t else r.tbest, h.u, h.v, w h.prim, w h.inst, w r.id, w (if h.back then 1 else 0)] ++
      r.sp.o ++ [r.tmin] ++ r.sp.d ++ [w r.flags]
    let c : Callout := { ray := slot, pend := r.pend, stack := r.home, grid := r.grid, entry := entry, budget := 16 + 8 * budget,
                         kind := kind, regs := regs, since := s.env.cycle }
    ({ s with spire := { s.spire with gather := s.spire.gather ++ [c] } },
      { r with
        st := .callout
        cand := some h })

/-! ## Leaf records (10 R186, R193, R194) -/

/-- One triangle record of ten words. -/
def State.testTriangle (s : State) (slot : Nat) (r : Ray) (ws : List W32) (nonOpaque : Bool) : State × Ray :=
  match triTest r.sp r.flags ws with
  | none => (s, r)
  | some (t, u, v, back) =>
    let h : Hit := { t := t, u := u, v := v, inst := r.sp.inst, prim := (ws.getD 9 0).toNat, back := back, proc := false,
                     verdict := false, ver := (r.inn.map (·.ver)).getD 0 }
    if !r.qualifies h then (s, r)
    else if bit r.flags 3 || !nonOpaque then (s, r.commit h)
    else match s.calloutEntry r with
    | .error f => s.rayFail r f
    | .ok (any, _, b, bad) =>
      let s1 := s.calloutSaw r
      if any = 0xFFFFFFFF then (s1, r.commit h) else s1.raise slot r 0 any b bad h

/-- One procedural record of ten words. -/
def State.testProcedural (s : State) (slot : Nat) (r : Ray) (ws : List W32) : State × Ray :=
  match boxEnter r.sp r.tmin r.tbest (ws.take 6) with
  | none => (s, r)
  | some _ =>
    match s.calloutEntry r with
    | .error f => s.rayFail r f
    | .ok (_, isect, b, bad) =>
      let s1 := s.calloutSaw r
      if isect = 0xFFFFFFFF then (s1, r) else
      let h : Hit := { t := 0, u := 0, v := 0, inst := r.sp.inst, prim := (ws.getD 9 0).toNat, back := false, proc := true,
                       verdict := true, ver := (r.inn.map (·.ver)).getD 0 }
      s1.raise slot r 1 isect b bad h

/-- A treelet put on the deferred list (10 R192, R196). -/
def Ray.defer (r : Ray) (x : Deferred) : Ray :=
  if 28 ≤ r.deferred.length then r.fail (rayRange ((r.inn.map (·.base)).getD 0) 2) else { r with deferred := r.deferred ++ [x] }

/-- A message of a number that a source sends on virtual channel 2 gets its permit at once: none of its earlier ones waits for one (01 R16;
log 97). -/
def State.rayChannel (s : State) (src sent : Nat) : Bool :=
  !s.spire.rays.any (fun e => e.2.st == .flight && e.2.src == src && !e.2.left) && Config.channelRoom 2 sent s.env.cycle

/-- A ray is bound for a treelet: it joins its queue, or goes there as a message of number `sent` from its stack, which has its permit or
waits for it (01 R16, 10 R190). -/
def Ray.bind (r : Ray) (t home : Nat) (sp : RSpace) (bottom : Bool) (sent : Nat) (left : Bool) : Ray :=
  { r with
    left := left
    treelet := t
    dsp := sp
    dbottom := bottom
    st := if home = r.home then .queued else .flight
    src := 256 + r.home
    sent := sent
    home := home }

/-- One instance record of sixteen words (10 R192). -/
def State.testInstance (s : State) (r : Ray) (ws : List W32) (tn : XFrac) : State × Ray :=
  let w (i : Nat) : Nat := (ws.getD i 0).toNat
  if bits (w 13) 7 0 &&& r.mask = 0 then (s, r) else
  match intoObject ws r.sp (w 14) (bits (w 13) 15 8) with
  | none => (s, r)
  | some sp =>
    match s.treeletHome r (w 12) with
    | .error f => s.rayFail r f
    | .ok home =>
      let s1 := s.homeSaw r (w 12)
      if home ≠ r.home then (s1, r.defer { treelet := w 12, tn := tn, sp := sp, bottom := true })
      else if r.atLimit then (s1, r)
      else
        let o : Option Outer := r.inn.map (fun i => { inn := i, sp := r.sp, stack := r.stack })
        (s1, { (r.bind (w 12) home sp true 0 true) with
          outer := o
          inn := none
          stack := [] })

/-! ## Leaving a treelet (10 R192, R199) -/

/-- A ray that entered an earlier version takes 1 from OLD_RAYS when it leaves it and is in no earlier version of that treelet any more;
`rest`: the treelet in which it stays. -/
def State.leaveOne (s : State) (r : Ray) (i rest : Option Inside) : State :=
  match i with
  | none => s
  | some x =>
    if !x.old || rest.any (fun y => y.old && y.entry == x.entry) then s else
    let a := s.rayAcc r
    let va := add64 r.table (32 * x.treelet + 0x10)
    match s.ownRead a va 4 with
    | none => s.dropLate a.part a.asid va
    | some n => s.lateWrite a va 4 ((n + 2 ^ 32 - 1) % 2 ^ 32)

/-- The deferred entry with the least tn, the earlier of equals. -/
def leastDeferred : List Deferred → Option Deferred
  | [] => none
  | x :: t =>
    match leastDeferred t with
    | none => some x
    | some y => if y.tn.lt x.tn then some y else some x

/-- A treelet's stack is empty: the ray goes back to the top treelet, on to a deferred one, or ends. -/
def State.leaveTreelet (s : State) (r : Ray) : State × Ray :=
  match r.outer with
  | some o =>
    (s.leaveOne r r.inn (some o.inn), { r with
      inn := some o.inn
      outer := none
      treelet := o.inn.treelet
      sp := o.sp
      stack := o.stack })
  | none =>
    let ds := r.deferred.filter (fun d => d.tn.le (xparam r.tbest))
    match leastDeferred ds with
    | none => (s, { r with deferred := [] }.finish)
    | some d =>
      let r1 := { r with deferred := ds.erase d }
      match s.treeletHome r1 d.treelet with
      | .error f => s.rayFail r1 f
      | .ok home =>
        let s1 := (s.homeSaw r1 d.treelet).leaveOne r r.inn none
        (if home = r.home then s1 else (s1.useIds 1).count .spireForwards r.home 1,
          { (r1.bind d.treelet home d.sp d.bottom s1.freshId (home == r.home || s1.rayChannel (256 + r.home) s1.freshId)) with
            inn := none
            stack := [] })

/-! ## The work of a node visit (10 R192, R195) -/

/-- A leaf's child info and alignment checked (10 R185, R196). -/
def Ray.leafBad (r : Ray) (off info : Nat) : Option FaultInfo :=
  match r.inn with
  | none => none
  | some i =>
    let n := bits info 4 0
    let inst := bit info 5
    let a := add64 i.base off
    if n = 0 ∨ 16 < n ∨ (bit info 7 ∧ inst) ∨ (inst ∧ i.bottom) then some (rayRange a 1)
    else if off % (if inst then 64 else 8) ≠ 0 then some { code := cMisaligned, addr := a, detail := 0 }
    else none

/-- A record or node that reaches past the end of its treelet (10 R196). -/
def Ray.pastEnd (r : Ray) (off n : Nat) : Bool := r.inn.any (fun i => decide (i.size * 256 < off + n))

/-- Leaf records and links of a visit done in order, until a node comes next or the ray stands still or ends. -/
def State.rayWork (slot : Nat) : Nat → State → Ray → State × Ray
  | 0, s, r => (s, r)
  | f + 1, s, r =>
    if r.st ≠ .inside then (s, r) else
    match r.stack with
    | [] => if r.atLimit then (s, { r with st := .ended 4 0 0 0 }) else
      let q := s.leaveTreelet r
      State.rayWork slot f q.1 q.2
    | .node _ :: _ => if r.atLimit then (s, { r with st := .ended 4 0 0 0 }) else (s, r)
    | .link t tn :: rest =>
      State.rayWork slot f s (Ray.defer { r with stack := rest }
        { treelet := t, tn := tn, sp := r.sp, bottom := (r.inn.map (·.bottom)).getD false })
    | .leaf off info tn :: rest =>
      match r.leafBad off info with
      | some e => (s, r.fail e)
      | none => State.rayWork slot f s { r with
          stack := .recs off (bits info 4 0) tn (bit info 5) (bit info 6) (bit info 7) :: rest }
    | .recs _ 0 _ _ _ _ :: rest => State.rayWork slot f s { r with stack := rest }
    | .recs off (n + 1) tn inst non proc :: rest =>
      let size := if inst then 64 else 40
      let va := add64 ((r.inn.map (·.base)).getD 0) off
      if r.pastEnd off size then (s, r.fail (rayRange va 1)) else
      match s.rayRead r va size with
      | .error e => s.rayFail r e
      | .ok w =>
        let r1 := { r with stack := .recs (off + size) n tn inst non proc :: rest }
        let s1 := s.rayTouch r va size
        let s2 := if inst then s1 else s1.count .spireTriTests r.home 1
        let q := if inst then s2.testInstance r1 (w32s 16 w) tn
          else if proc then s2.testProcedural slot r1 (w32s 10 w)
          else s2.testTriangle slot r1 (w32s 10 w) non
        State.rayWork slot f q.1 q.2

/-! ## Messages and their places in a unit (10 R188 to R190) -/

/-- The message of a ray, 64 bytes (10 R188). -/
def Ray.message (r : Ray) (state k : Nat) : List Byte :=
  let w (x : Nat) : List Byte := toLe 4 x
  ((r.o ++ [r.tmin] ++ r.d ++ [r.tbest]).map (fun x => toLe 4 x.toNat)).flatten ++ w r.flags ++ [BitVec.ofNat 8 r.mask, BitVec.ofNat 8 r.coi, 0, 0] ++
    toLe 8 r.hitVa ++ w r.id ++ w r.treelet ++ w r.steps ++ w (state + k % 2 ^ 24 * 256)

/-- A ray's overflow entry in the stack where it is: its physical address, and the global number of its slot (10 R189). -/
def State.overflowPa (s : State) (slot : Nat) (r : Ray) : Nat × Nat :=
  let n := bits (s.ctlN .spireSpillSlots r.home) 31 0
  let k := if s.disp.whole then slot / 2 ^ 32 * n + slot % 2 ^ 32 else slot % 2 ^ 32
  (s.ctlN .spireSpillBase r.home + 512 * n + 64 * k, k)

/-- The state with a ray's message written to its overflow entry (10 R190, R201, R202). The slot that 10 R188 puts into the message is the
global one of 10 R189, modulo 2^24 (DESIGN CHOICE, log 111). -/
def State.spillMessage (s : State) (slot : Nat) (r : Ray) (state : Nat) : State :=
  let q := s.overflowPa slot r
  let late : LateW := { part := ((s.grids.get? r.grid).getD noGrid).part, key := physKey q.1, n := 64, w := fromLe (r.message state q.2),
                        add := false }
  (s.lateStore { (s.rayAcc r).ask true none with cached := false } late).count .spireSpills r.home 1

/-- The state with a ray set. -/
def State.setRay (s : State) (slot : Nat) (r : Ray) : State := { s with spire := { s.spire with rays := s.spire.rays.set slot r } }

/-- Messages that a unit holds in its SRAM. -/
def State.unitHolds (s : State) (unit : Nat) : Nat :=
  (s.spire.rays.filter (fun e => e.2.unit == unit && (e.2.st == .queued || (e.2.st == .held && !e.2.out)))).length

/-- A ray stays queued as a held ray; where the unit has filled its place meanwhile, its message is written to its overflow entry (10 R190,
R192). -/
def State.holdRay (s : State) (slot : Nat) (r : Ray) (entry : Nat) : State :=
  let r1 := { r with
    st := .held
    heldAt := entry
    out := decide (16384 ≤ s.unitHolds r.unit) }
  let s1 := (s.setRay slot r1).count .spireHeld r.home 1
  if r1.out then s1.spillMessage slot r1 0 else s1

/-- A ray joins its treelet's queue now, after those that joined before; at a full unit its message is written to its overflow entry
(10 R190). -/
def State.joinQueue (s : State) (slot : Nat) (r : Ray) : State :=
  let r1 := { r with
    arrived := s.env.cycle
    sent := s.freshId }
  let s1 := s.useIds 1
  if 16384 ≤ s.unitHolds r.unit then (s1.setRay slot { r1 with st := .spilled }).spillMessage slot r 0
  else s1.setRay slot { r1 with st := .queued }

/-- Room for the work of one visit: four leaves of sixteen records, their ends, and a few steps more. -/
def rayFuel : Nat := 512

/-- The ray's work done from where it stands. -/
def State.rayGo (s : State) (slot : Nat) (r : Ray) : State :=
  let q := State.rayWork slot rayFuel s r
  if q.2.st = .queued then q.1.joinQueue slot q.2 else q.1.setRay slot q.2

/-- Children in ascending tn, ties by index. -/
def insertChild (x : XFrac × RItem) : List (XFrac × RItem) → List (XFrac × RItem)
  | [] => [x]
  | y :: t => if x.1.lt y.1 then x :: y :: t else y :: insertChild x t

/-- The children of a node of 32 words that a ray enters, in the order in which they are visited. -/
def Ray.children (r : Ray) (ws : List W32) : List (XFrac × RItem) :=
  (List.range 4).foldl (fun acc c =>
    let ref := (ws.getD (28 + c) 0).toNat
    let info := bits (ws.getD 0 0).toNat (8 * c + 7) (8 * c)
    let v := bits ref 29 0
    if bits ref 31 30 = 3 then acc else
    match boxEnter r.sp r.tmin r.tbest ((ws.drop (4 + 6 * c)).take 6) with
    | none => acc
    | some tn => insertChild (tn, match bits ref 31 30 with | 0 => .node v | 1 => .leaf v info tn | _ => .link v tn) acc) []

/-- An item is a node. -/
def RItem.isNode : RItem → Bool | .node _ => true | _ => false

/-- One node visited (10 R192). -/
def State.visitNode (s : State) (slot : Nat) (r : Ray) (off : Nat) (rest : List RItem) : State :=
  match r.inn with
  | none => s
  | some i =>
    let va := add64 i.base off
    if off % 128 ≠ 0 then s.setRay slot (r.fail { code := cMisaligned, addr := va, detail := 0 })
    else if r.pastEnd off 128 then s.setRay slot (r.fail (rayRange va 1))
    else match s.rayRead r va 128 with
    | .error f => (s.rayFail r f).1.setRay slot (r.fail f)
    | .ok w =>
      let kids := (r.children (w32s 32 w)).map (·.2)
      ((s.rayTouch r va 128).count .spireNodeVisits r.home 1).rayGo slot { r with
        steps := r.steps + 1
        budget := r.budget.map (· - 1)
        stack := kids.filter (fun k => !k.isNode) ++ kids.filter RItem.isNode ++ rest }

/-- A ray taken by its unit enters its treelet, or is held at a LOCKED one (10 R192). -/
def State.enterTreelet (s : State) (slot : Nat) (r : Ray) : State × Option Ray :=
  let ea := add64 r.table (32 * r.treelet)
  if r.count ≤ r.treelet then (s.setRay slot (r.fail (rayRange ea 1)), none) else
  match s.rayRead r ea 16 with
  | .error f => ((s.rayFail r f).1.setRay slot (r.fail f), none)
  | .ok w =>
    let s1 := s.rayTouch r ea 16
    let at' := match s.translate (s.rayAcc r) .load ea with | .ok l => l.key 0 | .error _ => 0
    if bits w 103 96 ≠ 0 then (s1.holdRay slot r at', none) else
    let i : Inside := { treelet := r.treelet, entry := at', base := bits w 63 0, size := bits w 127 112, ver := bits w 95 64, bottom := r.dbottom,
                        old := false }
    (s1, some { r with
      st := .inside
      inn := some i
      rootVer := some (r.rootVer.getD i.ver)
      sp := r.dsp
      stack := [.node 0] })

/-- A pre-emption is pending for a ray's grid, or its context is being halted by a SWAP (10 R201, 12 R228). -/
def State.rayPreempt (s : State) (r : Ray) : Bool :=
  let g := (s.grids.get? r.grid).getD noGrid
  g.pre == .pending || ((s.disp.halting.get? g.part).isSome && s.current g)
/-- A ray's grid has been killed. -/
def State.rayKilled (s : State) (r : Ray) : Bool := ((s.grids.get? r.grid).getD noGrid).killed

/-- The node visits that a ray may still make under a pending pre-emption: STEP_BUDGET at first (10 R201). -/
def State.visitsLeft (s : State) (r : Ray) : Nat :=
  r.budget.getD (s.ctlN .stepBudget ((s.grids.get? r.grid).getD noGrid).part)

/-- NODE_VISIT: a ray visits one node. Under a kill it ends there instead; under a pending pre-emption its visits are counted
down (10 R192, R201). -/
def execNodeVisit (ray : Nat) (s : State) : Out State :=
  match s.spire.rays.get? ray with
  | none => .next s
  | some r0 =>
    if r0.st ≠ .inside ∧ r0.st ≠ .taken then .next s
    else if s.rayKilled r0 then .next (s.setRay ray { r0 with st := .ended 3 0 0 0 })
    else if s.rayPreempt r0 ∧ s.visitsLeft r0 = 0 then .next s
    else
      let r := { r0 with budget := if s.rayPreempt r0 then some (s.visitsLeft r0) else none }
      let e := if r.st = .taken ∧ r.inn.isNone then s.enterTreelet ray r else (s, some { r with st := .inside })
      match e.2 with
      | none => .next e.1
      | some r1 =>
        match r1.stack with
        | .node off :: rest => .next (e.1.visitNode ray r1 off rest)
        | _ => .next (e.1.rayGo ray r1)

/-! ## Queues of Spire units (10 R190, R191) -/

/-- The oldest message of each source that waits for a permit of virtual channel 2 leaves, where one has come back (01 R16). -/
def State.raysLeave (s : State) : State :=
  { s with spire := { s.spire with rays := s.spire.rays.map (fun e =>
      if e.2.st = .flight ∧ !e.2.left ∧
          s.spire.rays.all (fun x => x.2.st != .flight || x.2.left || x.2.src != e.2.src || decide (e.2.sent ≤ x.2.sent)) ∧
          Config.channelRoom 2 e.2.sent s.env.cycle
      then (e.1, { e.2 with left := true }) else e) } }

/-- RAY_MESSAGE_ARRIVAL: a ray's message that has left joins its treelet's queue, after those that its source sent to the stack before it:
virtual channel 2 keeps their order (01 R16). -/
def execRayMessageArrival (ray : Nat) (s : State) : Out State :=
  match s.spire.rays.get? ray with
  | none => .next s
  | some r =>
    let first := s.spire.rays.all (fun e =>
      e.2.st != .flight || e.2.src != r.src || e.2.home != r.home || decide (r.sent ≤ e.2.sent))
    if r.st ≠ .flight || !r.left || !first then .next s else .next (s.joinQueue ray r)

/-- Rays that queue at a unit for READY work: in its SRAM or spilled. -/
def State.waiting (s : State) (unit : Nat) : List (Nat × Ray) :=
  s.spire.rays.filter (fun e => e.2.unit == unit && (e.2.st == .queued || e.2.st == .spilled))

/-- Entries sorted by arrival, the oldest first; among equals, the first to join. -/
def insertArrival (x : Nat × Ray) : List (Nat × Ray) → List (Nat × Ray)
  | [] => [x]
  | y :: t => if x.2.arrived < y.2.arrived ∨ (x.2.arrived = y.2.arrived ∧ x.2.sent < y.2.sent) then x :: y :: t
    else y :: insertArrival x t

/-- The treelet that a unit serves next, and whether age chose it (10 R191). -/
def pickTreelet (now : Nat) (w : List (Nat × Ray)) : Option (Nat × Bool) :=
  match leastBy (fun (e : Nat × Ray) => e.2.arrived) w with
  | none => none
  | some e =>
    if usCycles 25 ≤ now - e.2.arrived then some (e.2.treelet, true)
    else
      let ts := (w.map (·.2.treelet)).eraseDups
      let n (t : Nat) : Nat := (w.filter (fun x => x.2.treelet == t)).length
      (leastBy (fun t => (w.length - n t) * 2 ^ 32 + t) ts).map (fun t => (t, false))

/-- Places that a batch freed in a unit's SRAM are refilled from its overflow entries, in order of arrival (10 R190). -/
def State.refill (s : State) (unit : Nat) : State :=
  let spilled := (s.spire.rays.filter (fun e => e.2.unit == unit && (e.2.st == .spilled || (e.2.st == .held && e.2.out)))).foldl
    (fun l x => insertArrival x l) []
  (spilled.take (16384 - s.unitHolds unit)).foldl (fun s' e => s'.setRay e.1 { e.2 with
    st := if e.2.st = .held then .held else .queued
    out := false }) s

/-- SPIRE_BATCH_START: a unit takes every queued ray of one treelet, up to 256, the oldest first. -/
def execSpireBatchStart (unit : Nat) (s : State) : Out State :=
  let w := s.waiting unit
  match pickTreelet s.env.cycle w with
  | none => .next s
  | some (t, aged) =>
    let mine := ((w.filter (fun e => e.2.treelet == t)).foldl (fun l x => insertArrival x l) []).take 256
    let s1 := mine.foldl (fun s' e => s'.setRay e.1 { e.2 with st := .taken }) s
    let s2 := if aged then s1.count .spireAgePicks (unit / 16) 1 else s1
    .next (s2.refill unit)

/-! ## TRACE (10 R187 to R189; 25 R382) -/

/-- What casting comes to for one lane: a fault; a miss whose record is written; a wait, with what the lane has read for it; a ray cast. -/
inductive Cast where
  | fault (s : State) (f : FaultInfo)
  | miss (s : State)
  | wait (s : State) (why : Why) (w x : Nat)
  | cast (s : State)

/-- The words of a hit record (10 R195). -/
def hitWords (t inst prim u v ver status flags id : Nat) : Nat :=
  t % 2 ^ 32 + inst % 2 ^ 32 * 2 ^ 32 + prim % 2 ^ 32 * 2 ^ 64 + u % 2 ^ 32 * 2 ^ 96 + v % 2 ^ 32 * 2 ^ 128 + ver % 2 ^ 32 * 2 ^ 160 +
    (status + 256 * flags) * 2 ^ 192 + id % 2 ^ 32 * 2 ^ 224

/-- A free ray slot of a stack, the lowest (10 R188). -/
def State.freeSlot (s : State) (stack n : Nat) : Option Nat :=
  let used := (s.spire.rays.filter (fun e => e.1 / 2 ^ 32 == stack)).map (·.1 % 2 ^ 32)
  ((List.range (used.length + 1)).find? (fun j => decide (j < n) && !used.contains j)).map (stack * 2 ^ 32 + ·)

/-- A lane's record of a ray that misses without traversal, an ordinary store. -/
def ICtx.castMiss (c : ICtx) (d a : Nat) (s : State) (l : Nat) (hl : Loc) : Cast :=
  let rec' := hitWords (c.g.vget (a + 7) l).toNat 0xFFFFFFFF 0xFFFFFFFF 0 0 0 1 0 (c.g.vget (a + 11) l).toNat
  if s.pinnedAt hl 32 then .wait s (.pin (segsAt 32 [hl])) 0 (hl.key 0)
  else .miss ((c.storeLane 32 s (l, (c.g.wget (a + 8) l).toNat, hl, rec')).modGroup c.gid (fun g => g.vset d l 1))

/-- A lane's ray sent, once its earlier accesses are done and a slot is free; `w` is the scene descriptor that it read, `stack` the home of
the root. -/
def ICtx.castRay (c : ICtx) (d a : Nat) (s : State) (l w stack : Nat) : Cast :=
  let v (i : Nat) : W32 := c.g.vget (a + i) l
  let fl := (v 10).toNat
  if c.g.unperformed (laneBit l) false then .wait s (.fence false) w stack else
  match s.freeSlot stack (bits (s.ctlN .spireSpillSlots stack) 31 0) with
  | none => .wait s (.raySlot stack) w stack
  | some slot =>
    let o := [v 0, v 1, v 2]
    let dir := [v 4, v 5, v 6]
    let space : RSpace := { o := o, d := dir, inst := 0xFFFFFFFF, off := 0 }
    let r : Ray :=
      { gid := c.gid, pend := s.freshId, lane := l, group := if c.g.kind = .team then c.g.index else 0,
        team := if c.g.kind = .task then c.g.task / 64 else (s.teamOf c.g).index, task := c.g.kind == .task,
        strict := c.g.strict, core := c.g.core, pc := c.pc, grid := c.g.grid, asid := (s.gridOf c.g).asid, o := o, d := dir,
        tmin := v 3, tbest := v 7, tmax := v 7, flags := bits fl 15 0, mask := bits fl 23 16, coi := bits fl 31 24,
        hitVa := (c.g.wget (a + 8) l).toNat, id := (v 11).toNat, home := stack, stackNo := stack, src := c.g.core, sent := s.freshId,
        heldAt := 0, left := s.rayChannel c.g.core s.freshId, treelet := bits w 127 96, dsp := space, dbottom := false, steps := 0, table := bits w 63 0, count := bits w 95 64,
        calls := bits w 191 128, limit := bits w 223 192, st := .flight, arrived := s.env.cycle, inn := none, outer := none,
        rootVer := none, sp := space, stack := [], deferred := [], hit := none, cand := none, budget := none }
    let p : Pend := { id := s.freshId, src := .ray slot, pc := c.pc, lanes := laneBit l, regs := [d], sreg := none,
                      writes := [], swrite := 0, bad := [] }
    let s2 := ((s.setRay slot r).useIds 1).modGroup c.gid (fun g => { g with pend := g.pend ++ [p] })
    let s3 := s2.modGrid c.g.grid (fun x => { x with openRays := x.openRays + 1 })
    .cast (match c.prev with
      | some q => s3.metered c.g.core { q with lanes := laneBit l }
      | none => s3)

/-- Casting for one lane: its checks and reads in the order of 10 R187, made once, then its ray. -/
def ICtx.castLane (c : ICtx) (d a : Nat) (s : State) (l : Nat) : Cast :=
  let ill : FaultInfo := { code := cIllegal, addr := 0, detail := c.word }
  let sd := c.g.scene.toNat
  let v (i : Nat) : W32 := c.g.vget (a + i) l
  let h := (c.g.wget (a + 8) l).toNat
  match c.prev with
  | some w0 =>
    let q := w0.found.headD (0, 0, 0)
    (match w0.why with
    | .pin _ => c.castMiss d a s l (locOf q.2.2)
    | _ => c.castRay d a s l q.2.1 q.2.2)
  | none =>
    if sd = 0 then .fault s ill
    else if windowOf sd ≠ .glb then .fault s { code := cRange, addr := sd, detail := 0 }
    else match s.readBlock c.g l sd 64 with
    | .error f => .fault s f
    | .ok segs =>
      let w := fromLe (s.segBytes segs)
      let s0 := (s.noteRead c.g sd 64).useFree 1
      if windowOf h ≠ .glb then .fault s0 { code := cRange, addr := h, detail := 0 } else
      match s0.checkAddr c.g l h 32 32 .store with
      | .error f => .fault s0 f
      | .ok hl =>
        let s1 := s0.touch c.g h
        let table := bits w 63 0
        if bits (v 10).toNat 15 4 ≠ 0 ∨ bits w 511 224 ≠ 0 ∨ table % 32 ≠ 0 ∨ bits w 191 128 % 16 ≠ 0 ∨ bits w 95 64 ≤ bits w 127 96
        then .fault s1 ill
        else
          let dir := [v 4, v 5, v 6]
          if isNan (v 3) ∨ isNan (v 7) ∨ !(xparam (v 3)).le (xparam (v 7)) ∨ !([v 0, v 1, v 2] ++ dir).all finite ∨
              dir.all (fun x => fx x == 0)
          then c.castMiss d a s1 l hl
          else
            let hv := add64 table (32 * bits w 127 96 + 0xD)
            let home : Except FaultInfo (State × Nat) :=
              if !s1.disp.whole then .ok (s1, (s1.gridOf c.g).part)
              else if windowOf hv ≠ .glb then .error { code := cRange, addr := hv, detail := 0 }
              else match s1.readBlock c.g l hv 1 with
              | .error f => .error f
              | .ok sg => .ok ((s1.noteRead c.g hv 1).useFree 1, homeStack (fromLe (s1.segBytes sg)))
            match home with
            | .error f => .fault s1 f
            | .ok (s2, stack) =>
              if bits (s2.ctlN .spireSpillSlots stack) 31 0 = 0 then .fault s2 ill else c.castRay d a s2 l w stack

/-- What the lanes cast so far have come to: the state, faults by lane, waits by lane. -/
structure Casting where
  s : State
  faults : List (Nat × FaultInfo)
  waits : List (Nat × Why × Nat × Nat)

/-- Lanes of a list as a mask. -/
def maskOfList (l : List Nat) : Mask := l.foldl (fun m i => m ||| laneBit i) 0

/-- One lane's casting added to those before it; the walk of a translation that failed is counted (05 R103). -/
def ICtx.castStep (c : ICtx) (d a : Nat) (x : Casting) (l : Nat) : Casting :=
  match c.castLane d a x.s l with
  | .fault s' f => { x with
      s := if s'.ofWalk (s'.accOf c.g) f then s'.noteAccess (s'.accOf c.g) f.addr else s'
      faults := x.faults ++ [(l, f)] }
  | .miss s' | .cast s' => { x with s := s' }
  | .wait s' why w k => { x with
      s := s'
      waits := x.waits ++ [(l, why, w, k)] }

/-- A lane of the path waits by itself, with what it has read. -/
def ICtx.laneWaits (c : ICtx) (s : State) (q : Nat × Why × Nat × Nat) : State :=
  (s.modGroup c.gid (fun g => { g with
    waits := g.waits ++ [{ c.mkWait s (laneBit q.1) q.2.1 with found := [(q.1, q.2.2.1, q.2.2.2)] }] })).useIds 1

/-- TRACE: a fault of a lane ends that lane alone; a lane without a slot waits; the others go on. -/
def execTrace (d a : BitVec 7) (g : BitVec 4) (s : State) : Out State :=
  issue (.trace d a g) s (fun c s1 =>
    if c.part = 0 then c.advance s1 else
    if c.g.kind = .callout then c.illegal s1 c.part else
    let z := (lanesOf c.part).foldl (c.castStep d.toNat a.toNat) { s := s1, faults := [], waits := [] }
    let out := maskOfList (z.faults.map (·.1))
    let stop := maskOfList (z.waits.map (·.1)) ||| out
    let s2 := z.s.modGroup c.gid (fun x => { x.setPc (c.lanes &&& ~~~stop) c.next with live := x.live &&& ~~~out })
    let s3 := z.waits.foldl c.laneWaits (if stop = 0 then c.cures [d.toNat] s2 else s2)
    match z.faults with
    | [] => s3
    | (l, f) :: _ => (s3.recordFault c.g.grid (s3.recOf c.g l c.pc f)).emptied c.gid)

/-! ## The end of a ray (10 R195, R196) -/

/-- The hit record of an ended ray. -/
def Ray.record (r : Ray) (status code detail : Nat) : Nat :=
  if status = 2 then hitWords 0 code detail 0 0 (r.rootVer.getD 0) 2 0 r.id
  else match r.hit with
  | some h => hitWords h.t.toNat h.inst h.prim h.u.toNat h.v.toNat h.ver status
      ((if h.back then 1 else 0) + (if h.proc then 2 else 0) + (if h.verdict then 4 else 0)) r.id
  | none => hitWords r.tmax.toNat 0xFFFFFFFF 0xFFFFFFFF 0 0 (r.rootVer.getD 0) status 0 r.id

/-- RAY_END: the hit record is written, once no engine's pin holds it back, the status lands, the slot is free. -/
def execRayEnd (ray : Nat) (s : State) : Out State :=
  match s.spire.rays.get? ray with
  | none => .next s
  | some r =>
    match r.st with
    | .ended status code detail addr =>
      let g := (s.grids.get? r.grid).getD noGrid
      let b := s.rayAcc r
      let a := { (if r.task then g.taskAcc (r.team * 64) else g.acc r.grid) with
        req := b.req
        cls := b.cls
        stamp := b.stamp }
      if (match s.translate a .store r.hitVa with | .ok l => s.pinnedAt l 32 | .error _ => false) then .next s else
      let s1 := (s.leaveOne r r.inn (r.outer.map (·.inn))).leaveOne r (r.outer.map (·.inn)) none
      let s2 := (s1.lateWrite a r.hitVa 32 (r.record status code detail)).count .spireRaysEnded r.stackNo 1
      let s3 := if status = 2 then
          (s2.count .spireRayFaults r.stackNo 1).recordFault r.grid
            { code := code, kind := 3, lane := r.lane, group := r.group, team := r.team, launch := r.grid, addr := addr, pc := r.pc,
              detail := r.id }
        else s2
      let s4 := s3.modGroup r.gid (fun x =>
        match x.pend.find? (fun p => p.id == r.pend) with
        | some p => x.land { p with writes := p.regs.map (fun d => (d, r.lane, BitVec.ofNat 32 status)) }
        | none => x)
      let s5 := { s4 with spire := { s4.spire with
          rays := s4.spire.rays.erase ray
          parked := s4.spire.parked.filter (· != ray) } }.modGrid r.grid (fun x => { x with openRays := x.openRays - 1 })
      .next ((s5.settleUnit r.gid).settlePreempt r.grid)
    | _ => .next s

/-- A ray parks: its message stands in its overflow entry with state 3, its slot and deferred list are kept, and its place in the unit is
free (10 R190, R201). -/
def State.parkRay (s : State) (slot : Nat) (r : Ray) : State :=
  let s1 := (s.setRay slot { r with
    st := .parked
    out := false }).spillMessage slot r 3
  { s1 with spire := { s1.spire with parked := s1.spire.parked ++ [slot] } }.refill r.unit

/-- RAY_PARK: under pre-emption a ray parks at its call-out or once its visits are used up; a held ray, which can make none, parks
where it is (10 R201). -/
def execRayPark (ray : Nat) (s : State) : Out State :=
  match s.spire.rays.get? ray with
  | none => .next s
  | some r =>
    let may := match r.st with
      | .callout | .held => true
      | .inside | .taken => s.visitsLeft r == 0
      | _ => false
    if !s.rayPreempt r || !may then .next s else .next ((s.parkRay ray r).settlePreempt r.grid)

/-- RAY_ABORT: a kill reaches a ray that is queued, held, spilled, parked, in flight or in a call-out (10 R201). -/
def execRayAbort (ray : Nat) (s : State) : Out State :=
  match s.spire.rays.get? ray with
  | none => .next s
  | some r =>
    let may := match r.st with
      | .ended .. | .inside | .taken => false
      | _ => true
    if !s.rayKilled r || !may then .next s else
    let s1 := s.setRay ray { r with
      st := .ended 3 0 0 0
      cand := none }
    .next ({ s1 with spire := { s1.spire with parked := s1.spire.parked.filter (· != ray) } }.refill r.unit)

/-! ## Call-out groups (10 R197, R198) -/

/-- The gathered call-outs of a stack that would be sent as one group: those of one grid, entry offset and budget. -/
def State.gathered (s : State) (stack : Nat) (k : Callout) : List Callout :=
  s.spire.gather.filter (fun c => c.stack == stack && c.grid == k.grid && c.entry == k.entry && c.budget == k.budget)

/-- A message of a stack's gatherer on virtual channel 3 gets its permit at once (01 R16; log 97). -/
def State.calloutChannel (s : State) (stack : Nat) : Bool :=
  !s.disp.pools.any (fun q => match q.2 with | .calls cs _ _ _ => cs.any (fun c => c.stack == stack && !c.left) | .task .. => false) &&
  Config.channelRoom 3 s.disp.order s.env.cycle

/-- The oldest call-out group of each stack that waits for a permit leaves, where one has come back (01 R16). -/
def State.calloutsLeave (s : State) : State :=
  let stackOf (q : Nat × Ready) : Option (Nat × Nat) := match q.2 with
    | .calls (c :: _) _ _ o => if c.left then none else some (c.stack, o)
    | _ => none
  let mine := s.disp.pools.filterMap stackOf
  { s with disp := { s.disp with pools := s.disp.pools.map (fun q => match q.2, stackOf q with
      | .calls cs g p o, some x =>
        if mine.all (fun y => y.1 != x.1 || decide (x.2 ≤ y.2)) ∧ Config.channelRoom 3 o s.env.cycle
        then (q.1, .calls (cs.map (fun c => { c with left := true })) g p o) else q
      | _, _ => q) } }

/-- Call-outs leave the gatherer as a group and enter the ready pool of the die beside the stack, where their message has its permit or waits
for it. -/
def State.sendGroup (s : State) (stack : Nat) (cs : List Callout) : State :=
  match cs with
  | [] => s
  | k :: _ =>
    let g := (s.grids.get? k.grid).getD noGrid
    ({ s with spire := { s.spire with gather := s.spire.gather.filter (fun c => !cs.contains c) } }.enterPool (stack / 2)
      (fun o => .calls (cs.map (fun (c : Callout) => { c with left := s.calloutChannel stack })) k.grid g.r.prio o)).count .spireCallouts stack cs.length

/-- CALLOUT_GROUP_SEND: 32 gathered call-outs are sent. -/
def execCalloutGroupSend (stack : Nat) (s : State) : Out State :=
  match s.spire.gather.find? (fun c => c.stack == stack && decide (32 ≤ (s.gathered stack c).length)) with
  | none => .next s
  | some k => .next (s.sendGroup stack ((s.gathered stack k).take 32))

/-- CALLOUT_GATHER_TIMEOUT: the oldest gathered call-out has waited 2 us. -/
def execCalloutGatherTimeout (stack : Nat) (s : State) : Out State :=
  match s.spire.gather.find? (fun c => c.stack == stack && decide (usCycles 2 ≤ s.env.cycle - c.since)) with
  | none => .next s
  | some k => .next (s.sendGroup stack ((s.gathered stack k).take 32))

/-- A call-out group as it starts (10 R197). -/
def calloutGroup (s : State) (grid core quarter win : Nat) (cs : List Callout) : Group :=
  let g := (s.grids.get? grid).getD noGrid
  let k := cs.head?
  let x := newGroup .callout grid g 0 0 core quarter .compute ((k.map (·.budget)).getD 16) ((k.map (·.entry)).getD 0) g.r.argp win
  let v := cs.zipIdx.foldl (fun m q => q.1.regs.zipIdx.foldl (fun m' w => Store.put m' (w.2 * 32 + q.2) w.1 0) m) ([] : Store W32)
  { x with
    v := v
    live := maskOf (fun l => decide (l < cs.length))
    rays := cs.zipIdx.map (fun q => (q.2, q.1.ray, q.1.pend))
    lastIssue := s.env.cycle }

/-- CALLOUT_GROUP_DISPATCH: a core restarts a saved call-out group, or takes the next item of a ready pool, where that is a call-out group
which it has room for and no team of a higher priority could come in (09 R172). -/
def execCalloutGroupDispatch (core : Nat) (s : State) : Out State :=
  if 192 ≤ core then .next s else
  match s.takenFor core .callout with
  | some (gid, x) =>
    match s.fitQuarter core x.budget with
    | some q => .next ((s.restart gid x core q).settleResume x.grid)
    | none => .next s
  | none =>
    match s.nextItem core with
    | some (die, .calls cs grid p o) =>
      let g := (s.grids.get? grid).getD noGrid
      (match s.placeItem core (.calls cs grid p o) with
      | none => .next s
      | some (q, win) =>
        if s.teamFirst core p then .next s else
        let s1 : State := { s.useIds 1 with
          disp := { s.disp with pools := s.disp.pools.erase (die, .calls cs grid p o) }
          mem := s.mem.dropRange win (32 * g.r.priv) }
        .next (s1.setGroup s.freshId (calloutGroup s grid core q win cs)))
    | _ => .next s

/-- A verdict given for a ray with an outstanding call-out (10 R198). -/
def Ray.verdict (r : Ray) (h : Hit) (k : Nat) (t : W32) : Ray :=
  let r1 := { r with
    cand := none
    st := if r.st = .parked then .parked else .inside }
  let c : Hit := if h.proc then { h with t := t } else { h with verdict := true }
  if 2 < k ∨ (h.proc ∧ k ≠ 1 ∧ isNan t) then { r1 with st := .ended 2 cCallout 0 0 }
  else if k = 1 then r1
  else
    let r2 := if !h.proc ∨ r1.qualifies c then r1.commit c else r1
    if k = 2 then r2.finish else r2

/-- The state after a lane's verdict: it goes to its ray, unless that has ended; a killed one ends without it (10 R201). -/
def State.giveVerdict (s : State) (slot pend k : Nat) (t : W32) : State :=
  match s.spire.rays.get? slot with
  | none => s
  | some r =>
    match r.cand with
    | some h =>
      if r.pend ≠ pend then s
      else if s.rayKilled r then s.setRay slot { r with
        st := .ended 3 0 0 0
        cand := none }
      else s.rayGo slot (r.verdict h k t)
    | none => s

/-- CALLRET: each lane gives its verdict and ends as by EXIT. -/
def execCallret (d a : BitVec 7) (g : BitVec 4) (s : State) : Out State :=
  issue (.callret d a g) s (fun c s1 =>
    if c.part = 0 then c.advance s1 else
    if c.g.kind ≠ .callout then c.illegal s1 c.part else
    let mine := c.g.rays.filter (fun q => c.part.getLsbD q.1)
    let s2 := mine.foldl (fun s' q => s'.giveVerdict q.2.1 q.2.2 (c.g.vget d.toNat q.1).toNat (c.g.vget a.toNat q.1)) s1
    let s3 := s2.modGroup c.gid (fun x => { x.setPc (c.lanes &&& ~~~c.part) c.next with
      live := x.live &&& ~~~c.part
      rays := x.rays.filter (fun q => !c.part.getLsbD q.1) })
    s3.emptied c.gid)

/-! ## Treelet entries (10 R199; 25 R383) -/

/-- The checks of TREELOCK and TREEPUB on an entry's address: its key, or the fault. -/
def State.treeletEntry (s : State) (g : Group) (lane va : Nat) : Except FaultInfo Nat :=
  if windowOf va ≠ .glb then .error { code := cRange, addr := va, detail := 0 } else
  match s.checkAddr g lane va 32 32 .store with
  | .error f => .error f
  | .ok (.away _ _) => .error { code := cRemote, addr := va, detail := (s.remotePart (s.accOf g) va).getD 0 }
  | .ok (.here k) => match s.mem.poisonAt k 32 with
    | some p => .error (eccAt va p)
    | none => .ok k

/-- TREELOCK: STATE becomes 1, once no engine pins the entry; sD receives the old STATE (04 R75). -/
def execTreelock (d a : BitVec 6) (g : BitVec 4) (s : State) : Out State :=
  issue (.treelock d a g) s (fun c s1 =>
    let va := (c.sget a.toNat).toNat
    let lane := lowLane c.part
    if c.part = 0 then c.advance s1 else
    match c.foundOnce ((s1.treeletEntry c.g lane va).map Loc.here) with
    | .error f => c.fail s1 c.part f
    | .ok l =>
      let k := l.key 0
      if s1.pinnedAt l 32 then c.waitAt s1 c.part (.pin (segsAt 32 [l])) [(lane, va, l)] else
      let old := s1.readMem (keyAdd k 0xC) 1
      if !c.g.stackOk d.toNat (BitVec.ofNat 64 old) then c.fail s1 c.part { code := cStack, addr := old, detail := 0 } else
      let s2 := ((s1.access c.g va 32 l true).combine k 32).writeMem (keyAdd k 0xC) 1 1
      (c.advance s2).modGroup c.gid (fun x => x.sset d.toNat (BitVec.ofNat 64 old)))

/-- A ray is inside the version that stands now of the treelet whose entry lies at a key. -/
def Inside.isOf (i : Inside) (k : Nat) : Bool := i.entry == k && !i.old

/-- The treelets in which a ray is, the inner one first. -/
def Ray.insides (r : Ray) : List Inside := r.inn.toList ++ (r.outer.map (·.inn)).toList

/-- A treelet that has been replaced, as a ray inside it knows it. -/
def Inside.aged (i : Inside) (k : Nat) : Inside := { i with old := i.old || i.entry == k }

/-- The rays inside the version being replaced are marked old, wherever they are inside it; each is counted once, by the first TREEPUB that
finds it in a version that stands (10 R199). -/
def State.markOld (s : State) (k : Nat) : State × Nat :=
  let counts (r : Ray) : Bool := r.insides.any (·.isOf k) && !r.insides.any (fun i => i.entry == k && i.old)
  let rays := s.spire.rays.map (fun e => (e.1, { e.2 with
    inn := e.2.inn.map (·.aged k)
    outer := e.2.outer.map (fun o => { o with inn := o.inn.aged k }) }))
  ({ s with spire := { s.spire with rays := rays } }, (s.spire.rays.filter (fun e => counts e.2)).length)

/-- The rays held at the treelet whose entry lies at a key return to their queue (10 R191, R199). -/
def State.freeHeld (s : State) (k : Nat) : State :=
  { s with spire := { s.spire with rays := s.spire.rays.map (fun e =>
      if e.2.st = .held ∧ e.2.heldAt = k then
        (e.1, { e.2 with
          st := if e.2.out then .spilled else .queued
          out := false
          arrived := s.env.cycle })
      else e) } }

/-- A new BASE and the next VERSION stand in a treelet's entry. -/
def State.publish (s : State) (k b : Nat) : State :=
  let m := s.markOld k
  ((((m.1.writeMem (keyAdd k 0x10) 4 (s.readMem (keyAdd k 0x10) 4 + m.2)).writeMem k 8 b).writeMem (keyAdd k 8) 4
    (s.readMem (keyAdd k 8) 4 + 1)).writeMem (keyAdd k 0xC) 1 0).freeHeld k

/-- TREEPUB: a new BASE and VERSION; held rays of the treelet return to its queue. Its checks are made once; then it waits for its lanes'
earlier accesses, and while an engine pins the entry (04 R75, 07 R130). -/
def execTreepub (d a : BitVec 6) (g : BitVec 4) (s : State) : Out State :=
  issue (.treepub d a g) s (fun c s1 =>
    let va := (c.sget a.toNat).toNat
    let b := (c.sget d.toNat).toNat
    let lane := lowLane c.part
    if c.part = 0 then c.advance s1 else
    match c.foundOnce ((s1.treeletEntry c.g lane va).map Loc.here) with
    | .error f => c.fail s1 c.part f
    | .ok l =>
      let k := l.key 0
      if b % 128 ≠ 0 ∨ windowOf b ≠ .glb ∨ canonical b = false then c.fail s1 c.part { code := cMisaligned, addr := b, detail := 128 }
      else if c.g.unperformed c.part false then c.waitAt s1 c.part (.fence false) [(lane, va, l)]
      else if s1.pinnedAt l 32 then c.waitAt s1 c.part (.pin (segsAt 32 [l])) [(lane, va, l)]
      else if s1.readMem (keyAdd k 0xC) 1 = 0 then c.illegal s1 c.part
      else c.advance (((s1.access c.g va 32 l true).combine k 32).publish k b))

/-! ## REPACK (10 R200; 25 R368) -/

/-- A group holds live lanes, those of a group taken at a site among them (25 R368). -/
def Group.holdsLanes (g : Group) : Bool := g.live != 0 || (g.savedLive != 0 && (g.place == .saving || g.place == .taken))

/-- The groups that take part in a REPACK: those of the team that hold live lanes, in ascending group number; a task or call-out
group alone. -/
def State.repackGroups (s : State) (gid : Nat) (g : Group) : List (Nat × Group) :=
  if g.kind ≠ .team then [(gid, g)] else
  let gs := (s.members g.team).filter (fun e => e.2.holdsLanes)
  gs.foldl (fun l x => let (a, b) := l.span (fun y => decide (y.2.index < x.2.index)); a ++ x :: b) []

/-- A wait at a REPACK: its fields. -/
def Why.repackOf : Why → Option (Nat × Nat) | .repack d a => some (d, a) | _ => none

/-- Every live lane of a group is at a REPACK; a group that has been taken is not. -/
def Group.atRepack (g : Group) : Bool :=
  g.live != 0 && g.live &&& ~~~(g.waits.foldl (fun m w => if w.why.repackOf.isSome then m ||| w.lanes else m) (0 : Mask)) == 0

/-- Every group that takes part is at a REPACK, and nothing of them is pending. -/
def State.repackReady (s : State) (gid : Nat) (g : Group) : Bool :=
  (s.repackGroups gid g).all (fun e => e.2.atRepack && e.2.pend.isEmpty)

/-- The places at which a group waits in REPACKs: PC, vector and scalar field, and the set of registers that it keeps. -/
def Group.repackAt (g : Group) : List (Nat × Nat × Nat × W64) :=
  (g.waits.filterMap (fun w => w.why.repackOf.map (fun q => (w.pc, q.1, q.2, if q.2 = 0 then 0 else w.snap.getD q.2 0)))).eraseDups

/-- Lanes in the order of their keys, group and lane. -/
def insertKey (x : Nat × Nat × Nat) : List (Nat × Nat × Nat) → List (Nat × Nat × Nat)
  | [] => [x]
  | y :: t => if x.1 < y.1 then x :: y :: t else y :: insertKey x t

/-- One group after the lanes have moved: position l takes the values of `from' l`, a group and a lane. -/
def Group.repacked (x : Group) (gs : List (Nat × Group)) (src : List (Nat × Nat)) (keep : Nat) (free : Nat) (pc : Nat) : Group :=
  let srcOf (l : Nat) : Option (Group × Nat) := (src[l]?).bind (fun q => (gs[q.1]?).map (fun e => (e.2, q.2)))
  let vs := ((List.range x.budget).map (fun r => (List.range 32).filterMap (fun l =>
    match srcOf l with
    | none => none
    | some (y, k) => some (r * 32 + l, if bit keep (r / 2) then y.vget r k else Config.freeWord (free + r * 32 + l))))).flatten
  let live := maskOf (fun l => decide (l < src.length))
  { x with
    v := vs.foldl (fun m e => Store.put m e.1 e.2 0) []
    p := (List.range 7).foldl (fun m i => Store.put m (i + 1) (maskOf (fun l => match srcOf l with | some (y, k) => y.pget (i + 1) k | none => false)) 0) []
    live := live
    pcs := (lanesOf live).foldl (fun m l => Store.put m l ((pc + 4) % 2 ^ 32) 0) []
    waits := []
    rays := (List.range src.length).filterMap (fun l => (srcOf l).bind (fun q =>
      (q.1.rays.find? (fun e => e.1 == q.2)).map (fun e => (l, e.2))))
    poison := x.poison.filter (fun r => decide (256 ≤ r) && decide (r < 320)) ++ ((gs.map (fun e => e.2.poison)).flatten.eraseDups).filter
      (fun r => decide (320 ≤ r) || (bit keep (r / 2) && decide (r < x.budget))) }

/-- The lanes of a list of groups move. -/
def State.doRepack (s : State) (gs : List (Nat × Group)) (pc d : Nat) (keep : Nat) : State :=
  let lanes := (gs.zipIdx.map (fun q => (lanesOf q.1.2.live).map (fun l => ((q.1.2.vget d l).toNat, q.2, l)))).flatten
  let order := (lanes.foldl (fun l x => insertKey x l) []).map (fun q => (q.2.1, q.2.2))
  let s1 := gs.zipIdx.foldl (fun s' q =>
    s'.setGroup q.1.1 (q.1.2.repacked gs ((order.drop (32 * q.2)).take 32) keep (s.env.freeCtr + 4096 * q.2) pc)) s
  (gs.foldl (fun s' e => s'.emptied e.1) s1).useFree (4096 * gs.length)

/-- A fault of a REPACK ends every group that takes part, and no lane moves; `f` gives each group's lane, PC and fault (25 R368). -/
def State.failRepack (s : State) (gs : List (Nat × Group)) (f : Nat × Group → Nat × Nat × FaultInfo) : State :=
  gs.foldl (fun t e => t.takeFault e.1 (f e).1 (f e).2.1 (f e).2.2) s

/-- The lowest lane that a group holds. -/
def Group.lowest (g : Group) : Nat := lowLane (if g.live = 0 then g.savedLive else g.live)

/-- Where a group stands as a REPACK of its team fails: at its own REPACK, or where its lowest lane is. -/
def Group.repackPc (g : Group) : Nat := (g.repackAt.head?.map (·.1)).getD (g.pcOf g.lowest)

/-- REPACK: lanes wait for the team's; then they are sorted by key and move with their kept registers. The last ones to come find all ready
as they issue; where a result was still pending, the wait ends once it has landed. -/
def execRepack (d : BitVec 7) (a : BitVec 6) (s : State) : Out State :=
  issue (.repack d a) s (fun c s1 =>
    let keep := (c.sget a.toNat).toNat
    match (List.range 64).find? (fun i => bit keep i && decide (c.g.budget ≤ 2 * i)) with
    | some i => s1.failRepack (s1.repackGroups c.gid c.g) (fun e =>
        let f : FaultInfo := { code := cRegister, addr := 0, detail := 2 * i }
        if e.1 = c.gid then (lowLane c.lanes, c.pc, f) else (e.2.lowest, e.2.repackPc, f))
    | none =>
      let s2 := c.waitFor s1 c.lanes (.repack d.toNat a.toNat)
      let g2 := (s2.groups.get? c.gid).getD c.g
      if !s2.repackReady c.gid g2 then s2 else
      let gs := s2.repackGroups c.gid g2
      let same := gs.all (fun e => e.2.repackAt == [(c.pc, d.toNat, a.toNat, c.sget a.toNat)] && e.2.role == c.g.role)
      if same then s2.doRepack gs c.pc d.toNat keep
      else s2.failRepack gs (fun e =>
        let w := e.2.repackAt.headD (c.pc, d.toNat, a.toNat, 0)
        (e.2.lowest, w.1, { code := cIllegal, addr := 0, detail := (encode (.repack (BitVec.ofNat 7 w.2.1) (BitVec.ofNat 6 w.2.2.1))).getD 0 })))

end Sys2Proof.Machine
end

