-- ==== Sys2Proof/Machine/Draw.lean ====
section
/-! DEFINITION. The commands DRAW_LARGE and CLASSIFY: triangle classification, the fixed rasteriser, and material binning
(11 R209 to R215). -/
namespace Sys2Proof.Machine

/-! ## Descriptors (11 R209, R212) -/

/-- A draw descriptor. -/
structure Draw where
  verts : Nat
  index : Nat
  count : Nat
  first : Nat
  vis : Nat
  w : Nat
  h : Nat
  thresh : W32
  list : Nat
  cap : Nat
  soft : Nat
deriving DecidableEq, Repr

/-- A draw descriptor from its 64 bytes. -/
def drawOf (x : Nat) : Draw :=
  let f (o n : Nat) : Nat := x / 2 ^ (8 * o) % 2 ^ (8 * n)
  { verts := f 0 8, index := f 8 8, count := f 0x10 4, first := f 0x14 4, vis := f 0x18 8, w := f 0x20 2, h := f 0x22 2,
    thresh := BitVec.ofNat 32 (f 0x24 4), list := f 0x28 8, cap := f 0x30 4, soft := f 0x38 8 }

/-- A classify descriptor. -/
structure Classify where
  vis : Nat
  w : Nat
  h : Nat
  table : Nat
  entries : Nat
  mats : Nat
  shaders : Nat
  template : Nat
deriving DecidableEq, Repr

/-- A classify descriptor from its 64 bytes. -/
def classifyOf (x : Nat) : Classify :=
  let f (o n : Nat) : Nat := x / 2 ^ (8 * o) % 2 ^ (8 * n)
  { vis := f 0 8, w := f 8 2, h := f 0xA 2, table := f 0x10 8, entries := f 0x18 4, mats := f 0x1C 4, shaders := f 0x20 8,
    template := f 0x28 8 }

/-! ## Triangles (11 R210, R211) -/

/-- A vertex: x, y in pixels and z as depth. -/
structure Vert where
  x : W32
  y : W32
  z : W32
deriving DecidableEq, Repr

/-- The three vertices of a triangle, read through its indices. -/
def State.triangle (s : State) (a : Acc) (d : Draw) (i : Nat) : Except FaultInfo (List Vert) :=
  match s.readVa a (add64 d.index (12 * i)) 12 1 with
  | .error f => .error f
  | .ok w => (List.range 3).mapM (fun j =>
      (s.readVa a (add64 d.verts (16 * (w / 2 ^ (32 * j) % 2 ^ 32))) 16 1).map (fun v =>
        { x := BitVec.ofNat 32 v, y := BitVec.ofNat 32 (v / 2 ^ 32), z := BitVec.ofNat 32 (v / 2 ^ 64) }))

/-- The state after a triangle's indices and vertices have been read. -/
def State.triSaw (s : State) (a : Acc) (d : Draw) (i : Nat) : State :=
  let ia := add64 d.index (12 * i)
  match s.readVa a ia 12 1 with
  | .error _ => s.sawAll a [(ia, 12)]
  | .ok w => s.sawAll a ((ia, 12) :: (List.range 3).map (fun j => (add64 d.verts (16 * (w / 2 ^ (32 * j) % 2 ^ 32)), 16)))

/-- A point in units of 2^-149 pixels. -/
abbrev Pt := Int × Int

/-- The edge function of a and b at p: twice the signed area of the triangle they make. -/
def edge (a b p : Pt) : Int := (b.1 - a.1) * (p.2 - a.2) - (b.2 - a.2) * (p.1 - a.1)

/-- A point is inside an edge, or on it where the edge is a top or a left edge of a triangle of positive area: y runs down. -/
def inEdge (a b p : Pt) : Bool :=
  let e := edge a b p
  decide (0 < e) || (e == 0 && (decide (b.2 < a.2) || (b.2 == a.2 && decide (a.1 < b.1))))

/-- A vertex's point. -/
def Vert.pt (v : Vert) : Pt := (fx v.x, fx v.y)

/-- Twice the signed area of a triangle, in units of 2^-298. -/
def area2 (t : List Vert) : Int :=
  match t with
  | [a, b, c] => edge a.pt b.pt c.pt
  | _ => 0

/-- The centre of a pixel. -/
def centre (px py : Nat) : Pt := ((2 * px + 1 : Nat) * 2 ^ 148, (2 * py + 1 : Nat) * 2 ^ 148)

/-- The depth key of a pixel that a triangle covers, when the fragment is kept (11 R211). -/
def fragment (t : List Vert) (px py : Nat) : Option Nat :=
  match if area2 t < 0 then [t.getD 0 ⟨0, 0, 0⟩, t.getD 2 ⟨0, 0, 0⟩, t.getD 1 ⟨0, 0, 0⟩] else t with
  | [a, b, c] =>
    let p := centre px py
    if !(inEdge a.pt b.pt p && inEdge b.pt c.pt p && inEdge c.pt a.pt p) then none
    else if !(finite a.z && finite b.z && finite c.z) then none
    else
      let n := edge b.pt c.pt p * fx a.z + edge c.pt a.pt p * fx b.z + edge a.pt b.pt p * fx c.z
      if n < 0 then none else
      let key := roundRatio .f32 .rne false n.natAbs ((area2 [a, b, c]).natAbs * 2 ^ 149)
      if 0x3F800000 < key then none else some key
  | _ => none

/-- The pixels that a triangle can cover: first and last column and row. -/
def Draw.box (d : Draw) (t : List Vert) : Nat × Nat × Nat × Nat :=
  let lo (l : List Int) : Nat := (l.foldl min (l.headD 0) / 2 ^ 149).toNat
  let hi (n : Nat) (l : List Int) : Nat := min n ((l.foldl max (l.headD 0) / 2 ^ 149 + 1).toNat)
  let xs := t.map (fun v => fx v.x)
  let ys := t.map (fun v => fx v.y)
  (lo xs, hi d.w xs, lo ys, hi d.h ys)

/-- Where a triangle goes. -/
inductive TriClass where
  | dropped | large | small
deriving DecidableEq, Repr

/-- The class of a triangle (11 R210). An infinite x or y has no exact area: a free choice (log 3). -/
def classOf (ctr : Nat) (thresh : W32) (t : List Vert) : TriClass :=
  if t.any (fun v => isNan v.x || isNan v.y || isNan v.z) then .dropped
  else if t.any (fun v => !finite v.x || !finite v.y) then
    (match Config.freeChoice ctr % 3 with | 0 => .dropped | 1 => .large | _ => .small)
  else if area2 t = 0 then .dropped
  else
    let small := match f32 thresh with
      | .nan => false
      | .inf s => !s
      | .fin s _ _ => !s && decide (((area2 t).natAbs : Int) < 2 * fx thresh * 2 ^ 149)
    if small then .small else .large

/-! ## Progress of a command that writes as it goes (11 R214) -/

/-- A command under way: the state, the small-triangle list's counts, and the fault that has ended it. -/
structure Drawn where
  s : State
  n : Nat
  refused : Nat
  bad : Option FaultInfo

/-- The I/O die whose visibility counters a partition's commands raise. -/
def State.visDie (s : State) (part : Nat) : Nat := s.lowDie part / 2

/-- The rasteriser's update of a pixel's word: an unsigned maximum at its home (04 R75, 07 R133). -/
def Drawn.update (x : Drawn) (a : Acc) (va word : Nat) : Drawn :=
  if x.bad.isSome then x else
  match x.s.storeLoc a va 8 with
  | .error f => { x with bad := some f }
  | .ok (.here k) => { x with s := x.s.lateStore (ownAsk a.part true) { part := a.part, key := k, n := 8, w := word, add := false, most := true } }
  | .ok (.away p pa) => { x with s := x.s.turretWrite p ((ownAsk a.part true).msg p 3 8 [pa, 8, 0x3A, word]) }

/-- A fragment of a triangle, or, where a coordinate is infinite, a free one. -/
def Drawn.frag (x : Drawn) (t : List Vert) (px py : Nat) : Drawn × Option Nat :=
  if t.all (fun v => finite v.x && finite v.y) then (x, fragment t px py)
  else
    let w := (Config.freeWord64 x.s.env.freeCtr).toNat
    ({ x with s := x.s.useFree 1 }, if w % 2 = 0 then none else some (w / 2 % 0x3F800001))

/-- A triangle of the fixed rasteriser. -/
def Drawn.raster (x : Drawn) (a : Acc) (d : Draw) (t : List Vert) (id : Nat) : Drawn :=
  let b := if t.all (fun v => finite v.x && finite v.y) then d.box t else (0, d.w, 0, d.h)
  (List.range (b.2.2.2 - b.2.2.1)).foldl (fun x1 j => (List.range (b.2.1 - b.1)).foldl (fun x2 i =>
    let px := b.1 + i
    let py := b.2.2.1 + j
    let r := x2.frag t px py
    match r.2 with
    | none => r.1
    | some key => r.1.update a (add64 d.vis (8 * (py * d.w + px))) (key * 2 ^ 32 + id)) x1) x

/-- A triangle of the small-triangle list. -/
def Drawn.enlist (x : Drawn) (a : Acc) (d : Draw) (id die : Nat) : Drawn :=
  if d.cap ≤ x.n then { x with
    refused := x.refused + 1
    s := x.s.count .visTrisDropped die 1 }
  else
    let va := add64 d.list (0x10 + 4 * x.n)
    match x.s.storeLoc a va 4 with
    | .error f => { x with bad := some f }
    | .ok (.here k) => { x with
        n := x.n + 1
        s := (x.s.lateStore (ownAsk a.part true) { part := a.part, key := k, n := 4, w := id, add := false }).count .visTrisSmall die 1 }
    | .ok (.away p pa) => { x with
        n := x.n + 1
        s := (x.s.turretWrite p ((ownAsk a.part true).msg p 1 4 [pa, 4, id])).count .visTrisSmall die 1 }

/-- One triangle. -/
def Drawn.tri (x : Drawn) (a : Acc) (d : Draw) (die i : Nat) : Drawn :=
  if x.bad.isSome then x else
  let s0 := x.s.triSaw a d i
  match x.s.triangle a d i with
  | .error f => { x with
      s := s0
      bad := some f }
  | .ok t =>
    let id := (d.first + i) % 2 ^ 32
    let x1 := { x with s := s0.useFree 1 }
    match classOf x.s.env.freeCtr d.thresh t with
    | .dropped => { x1 with s := x1.s.count .visTrisDropped die 1 }
    | .large => ({ x1 with s := x1.s.count .visTrisFixed die 1 }).raster a d t id
    | .small => x1.enlist a d id die

/-- The list's header is written. -/
def Drawn.header (x : Drawn) (a : Acc) (d : Draw) : Drawn :=
  if x.bad.isSome then x else
  match x.s.storeLoc a d.list 16 with
  | .error f => { x with bad := some f }
  | .ok (.here k) =>
    let late : LateW := { part := a.part, key := k, n := 8, w := x.n % 2 ^ 32 + x.refused % 2 ^ 32 * 2 ^ 32, add := false }
    { x with s := x.s.lateStore (ownAsk a.part true) late }
  | .ok (.away p pa) => { x with
      s := x.s.turretWrite p ((ownAsk a.part true).msg p 1 8 [pa, 8, x.n % 2 ^ 32 + x.refused % 2 ^ 32 * 2 ^ 32]) }

/-- DRAW_LARGE: classifies triangles in order, rasterises the large ones, lists the small ones, and launches the software grid
(11 R209 to R211, R214; 13 R243). -/
def execDrawLarge (q : Nat) (s : State) : Out State :=
  command q 5 s (fun x e s1 =>
    let a := x.acc
    let s0 := s1.sawAll a [(e.a, 64)]
    match s1.readVa a e.a 64 64 with
    | .error f => .stop s0 f
    | .ok w =>
      let d := drawOf w
      let die := s1.visDie x.part
      let x0 : Drawn := { s := s0.useFree 1, n := 0, refused := 0, bad := none }
      let r := ((List.range d.count).foldl (fun (y : Drawn) i => y.tri a d die i) x0).header a d
      match r.bad with
      | some f => .stop r.s f
      | none =>
        if d.soft = 0 then .accepted r.s [] else
        let s3 := r.s.sawAll a [(d.soft, 128)]
        match r.s.readVa a d.soft 128 128 with
        | .error f => .stop s3 f
        | .ok v =>
          let g := (s3.useFree 1).acceptRecord (x.launcher s3 q false) d.soft v none
          .accepted g.1 (if g.2 = 0 then [] else [g.2]))

/-! ## CLASSIFY (11 R212, R213) -/

/-- What the binner knows of one pixel: its material, its place, its triangle and its depth key. -/
structure Pix where
  mat : Nat
  x : Nat
  y : Nat
  id : Nat
  key : Nat
deriving DecidableEq, Repr

/-- A classification under way: the state, the pixels of the tile so far, and the fault that has ended it. -/
structure Binned where
  s : State
  px : List Pix
  bad : Option FaultInfo

/-- The state after `n` bytes have been read, one free value on. -/
def State.sawOne (s : State) (a : Acc) (va n : Nat) : State := (s.sawAll a [(va, n)]).useFree 1

/-- One pixel read and kept, or skipped and counted on an I/O die. -/
def Binned.pixel (a : Acc) (c : Classify) (die : Nat) (x : Binned) (p : Nat × Nat) : Binned :=
  if x.bad.isSome then x else
  let va := add64 c.vis (8 * (p.2 * c.w + p.1))
  let s1 := x.s.sawOne a va 8
  let skip (s' : State) : Binned := { x with s := s'.count .matPixelsSkipped die 1 }
  match x.s.readVa a va 8 8 with
  | .error f => { x with
      s := s1
      bad := some f }
  | .ok w =>
    let id := w % 2 ^ 32
    if w = 0 ∨ c.entries ≤ id then skip s1 else
    let s2 := s1.sawOne a (add64 c.table (2 * id)) 2
    match s1.readVa a (add64 c.table (2 * id)) 2 1 with
    | .error f => { x with
        s := s2
        bad := some f }
    | .ok m =>
      if c.mats ≤ m then skip s2
      else { x with
        s := s2
        px := x.px ++ [{ mat := m, x := p.1, y := p.2, id := id, key := w / 2 ^ 32 }] }

/-- A list in pieces of 32, the last one shorter. -/
def chunks32 {α : Type} : Nat → List α → List (List α)
  | 0, _ => []
  | f + 1, l => if l.isEmpty then [] else l.take 32 :: chunks32 f (l.drop 32)

/-- The pixels of a tile, in row-major order. -/
def Classify.tile (c : Classify) (tx ty : Nat) : List (Nat × Nat) :=
  ((List.range (min 64 (c.h - 64 * ty))).map (fun j =>
    (List.range (min 64 (c.w - 64 * tx))).map (fun i => (64 * tx + i, 64 * ty + j)))).flatten

/-- A classification as far as it has come: the state, the shading groups of the tiles so far, and the fault that has ended it. -/
structure Shaded where
  s : State
  shades : List Shade
  bad : Option FaultInfo

/-- One bin: the material's entry is read, and its pixels go in pieces of 32. -/
def Shaded.bin (a : Acc) (c : Classify) (kept : List Pix) (x : Shaded) (m : Nat) : Shaded :=
  if x.bad.isSome then x else
  let va := add64 c.shaders (4 * m)
  let s1 := x.s.sawOne a va 4
  match x.s.readVa a va 4 1 with
  | .error f => { x with
      s := s1
      bad := some f }
  | .ok off =>
    let new := (chunks32 4097 (kept.filter (fun p => p.mat == m))).map (fun l =>
      ({ entry := off, mat := m,
         px := l.map (fun p => (BitVec.ofNat 32 (p.x + p.y * 65536), BitVec.ofNat 32 p.id, BitVec.ofNat 32 p.key)) } : Shade))
    { x with
      s := s1
      shades := x.shades ++ new }

/-- One tile: its pixels are read, then binned by ascending material. -/
def Shaded.tile (a : Acc) (c : Classify) (die : Nat) (x : Shaded) (t : Nat × Nat) : Shaded :=
  if x.bad.isSome then x else
  let b := (c.tile t.1 t.2).foldl (Binned.pixel a c die) { s := x.s, px := [], bad := none }
  ((sortBy id (b.px.map (·.mat))).eraseDups).foldl (Shaded.bin a c b.px) { x with
    s := b.s
    bad := b.bad }

/-- CLASSIFY: bins a visibility buffer by material and launches one grid of shading groups (11 R212 to R214; 13 R243). -/
def execClassify (q : Nat) (s : State) : Out State :=
  command q 6 s (fun x e s1 =>
    let a := x.acc
    let s0 := s1.sawOne a e.a 64
    match s1.readVa a e.a 64 64 with
    | .error f => .stop s0 f
    | .ok w =>
      let c := classifyOf w
      let die := s1.visDie x.part
      let tiles := ((List.range (ceilDiv c.h 64)).map (fun ty => (List.range (ceilDiv c.w 64)).map (fun tx => (tx, ty)))).flatten
      let b := tiles.foldl (Shaded.tile a c die) { s := s0, shades := [], bad := none }
      let s2 := b.s.sawOne a c.template 128
      match b.bad, b.s.readVa a c.template 128 128 with
      | some f, _ => .stop b.s f
      | none, .error f => .stop s2 f
      | none, .ok v =>
        let g := s2.acceptRecord (x.launcher s2 q false) c.template v (some b.shades)
        .accepted g.1 (if g.2 = 0 then [] else [g.2]))

end Sys2Proof.Machine
end

