-- ==== Sys2Proof/Machine/Requests.lean ====
section
/-! DEFINITION. The system request ring and the requests of Campanile: modes, queues, shoot-downs, control registers, presence,
breaks, pools, ACCEPT (05 R98, R100; 12 R222, R230; 13 R235 to R241, R247). -/
namespace Sys2Proof.Machine

/-! ## The ring (13 R236) -/

/-- The put count. -/
def State.reqPut (s : State) : Nat := s.readMem (physKey 0x040000007FF0) 8
/-- The take count. -/
def State.reqTake (s : State) : Nat := s.readMem (physKey 0x040000007FF8) 8
/-- Where request `n` lies. -/
def reqAddr (n : Nat) : Nat := 0x040000008000 + 64 * (n % 256)
/-- Operand `i` of request `n`. -/
def State.reqWord (s : State) (n i : Nat) : Nat := s.readMem (physKey (reqAddr n + 8 + 8 * i)) 8
/-- The number and code of the request that Campanile serves next. -/
def State.headRequest (s : State) : Option (Nat × Nat) :=
  let n := s.reqTake
  if s.reqPut ≤ n then none else some (n, s.readMem (physKey (reqAddr n)) 2)

/-- A request is done: its status is written, then take passes it. After an overrun take ends at the put count of then. -/
def State.reqDone (s : State) (n status : Nat) : State :=
  let s1 := s.writeMem (physKey (reqAddr n + 2)) 2 status
  match s.ctrl.skip with
  | some (e, f) =>
    if n + 1 = e then
      let s2 := s1.writeMem (physKey 0x040000007FF8) 8 f
      { s2 with ctrl := { s2.ctrl with skip := none } }
    else s1.writeMem (physKey 0x040000007FF8) 8 (n + 1)
  | none => s1.writeMem (physKey 0x040000007FF8) 8 (n + 1)

/-- The put count is stored; a put more than 256 ahead of take skips requests. Where an earlier one has set a count at which serving stops,
it stays, and the requests that the new put adds are skipped too (13 R236). -/
def State.storePut (s : State) (put : Nat) : State :=
  let s1 := s.writeMem (physKey 0x040000007FF0) 8 put
  let take := s.reqTake
  if put ≤ take + 256 then s1 else
  let q := s.ctrl.skip.getD (take + 256, take + 256)
  { (s1.count .sysReqOverrun 0 (put - q.2)) with ctrl := { s1.ctrl with skip := some (q.1, put) } }

/-- What serving a request comes to: a status and the state after it, or it is not done yet. -/
inductive ReqRes where
  | status (n : Nat) (s : State)
  | later (s : State)

/-- THE FRAME OF A SYSTEM REQUEST: the head of the ring has this code; Campanile serves it and writes its status last. It serves none while
a message of its waits for a permit of a command link (13 R233). `k` gets the operands x0 to x6. -/
def request (code : Nat) (s : State) (k : List Nat → State → ReqRes) : Out State :=
  if s.campanileWaits then .next s else
  match s.headRequest with
  | none => .next s
  | some (n, c) =>
    if c ≠ code then .next s else
    match k ((List.range 7).map (s.reqWord n)) s with
    | .status st s1 => .next (s1.reqDone n st)
    | .later s1 => .next s1

/-- Done. -/
def done (s : State) : ReqRes := .status 1 s
/-- Refused. -/
def refused (s : State) : ReqRes := .status 2 s
/-- Malformed. -/
def malformed (s : State) : ReqRes := .status 3 s

/-- SYSTEM_REQUEST_PUT: the put count is stored; a request of an unknown code at the head gets status 3 (13 R236). -/
def execSystemRequestPut (put : Nat) (s : State) : Out State :=
  let s1 := s.storePut (put % 2 ^ 64)
  match s1.headRequest with
  | some (n, c) => if !s1.campanileWaits ∧ (c = 0 ∨ 0x10 < c) then .next (s1.reqDone n 3) else .next s1
  | none => .next s1

/-! ## Modes (01 R14; 12 R230; 13 R237) -/

/-- A partition exists in the current mode. -/
def State.hasPart (s : State) (p : Nat) : Bool := if s.disp.whole then p == 0 else decide (p < 8) && bit s.disp.slices p

/-- A grid runs or is saved, of a partition and context when given. -/
def State.gridsOf (s : State) (which : Grid → Bool) : Bool := s.grids.any (fun e => e.2.state != .done && which e.2)

/-- SET_MODE: refused unless no queue is mapped and no grid runs or is saved, and, for partitioned mode, before its feature is
accepted. A change of mode places every byte of HBM anew (06 R109): its contents are free values then (log 63). TLB entries go, for the
partitions that they are tagged with are made anew. The memory of a slice that no partition holds any more keeps its bytes, and requests
that arrive on a port still reach it: 01 R14 says only that such a slice is powered down (DESIGN CHOICE, log 99). -/
def execSetMode (s : State) : Out State :=
  request 1 s (fun x s1 =>
    let m := x.getD 0 0
    let sl := x.getD 1 0
    if 1 < m ∨ 255 < sl then malformed s1
    else if s1.ctrl.queues.any (fun e => e.2.mapped) ∨ s1.gridsOf (fun _ => true) ∨ (m = 1 ∧ !s1.accepted 0) then refused s1
    else
      let whole := m == 0
      let s2 := if whole = s1.disp.whole then s1
        else { s1 with mem := s1.mem.drop (fun k => k % 4 == 0 && inHbm (k / 4) 1) }
      done { s2 with
        mmu := { s2.mmu with tlb := [] }
        disp := { s2.disp with
          whole := whole
          slices := if whole then 0xFF else sl
          ctxs := []
          running := List.replicate 8 0 } })

/-! ## Queues (13 R237, R240, R241) -/

/-- A queue with the fields of a control block's copy. -/
def Queue.load (q : Queue) (block w : Nat) : Queue :=
  let f (o n : Nat) : Nat := w / 2 ^ (8 * o) % 2 ^ (8 * n)
  { q with
    mapped := true
    block := block
    base := f 0 8
    size := f 8 4
    asid := f 0xC 2
    prio := f 0xE 1
    part := f 0xF 1 % 8
    ctx := f 0xF 1 / 8 % 2
    root := f 0x10 8
    tail := f 0x18 8
    headBlk := f 0x20 8
    gang := f 0x28 4
    fa := f 0x30 8
    ring := f 0x38 8 }

/-- MAP_QUEUE: the copy in force is read; the queue is eligible for a slot. Its head count, and a FAULTED state, are those of its
head block; otherwise it is UNMAPPED until a Turret serves it (13 R234, R237, R240 to R242). A slot of another partition or context is given
up. -/
def execMapQueue (s : State) : Out State :=
  request 2 s (fun x s1 =>
    let n := x.getD 0 0
    let cb := x.getD 1 0
    if 4095 < n ∨ cb % 64 ≠ 0 ∨ !(inHbm cb 192 || inTier cb 192 || s1.inCupola cb 192) then malformed s1
    else if !s1.ctrl.acceptDone then refused s1
    else
      let sel := s1.ownView (physKey cb) 8 % 2
      let copy := cb + 0x40 + 0x40 * sel
      let was := s1.queue n
      let q0 := was.load cb (s1.ownView (physKey copy) 64)
      if !s1.hasPart q0.part ∨ (s1.disp.ctxs.get? (q0.part * 2 + q0.ctx)).isNone then refused s1
      else
        let s0 := s1.sawPhys q0.part [(cb, 8), (copy, 64)]
        let s2 := if was.slot.isSome ∧ (was.part ≠ q0.part ∨ was.ctx ≠ q0.ctx) then s0.dropSlot true n else s0
        let old := s2.queue n
        let q := old.load cb (s1.ownView (physKey copy) 64)
        let sp : Space := { root := q.root, ring := q.ring, part := q.part, ctx := q.ctx }
        let s3 : State := { s2 with mmu := { s2.mmu with spaces := s2.mmu.spaces.set (spaceKey q.part q.asid) sp } }
        let head := (s3.ownRead q.acc q.headBlk 8).getD q.head
        let st := bits ((s3.ownRead q.acc (add64 q.headBlk 8) 8).getD 0) 63 56
        let tail := (s3.ownRead q.acc q.tail 8).getD head
        let s4 := s3.sawAll q.acc [(q.headBlk, 16), (q.tail, 8)]
        let q1 := { q with
          age := if old.mapped then old.age else s1.env.fresh
          head := head
          seen := tail
          state := if st = 2 ∨ old.state = 2 then 2 else if q.slot.isSome then q.state else 3 }
        done ((((s4.setQueue n q1).useIds 1).giveSlots q.part).examine n))

/-- UNMAP_QUEUE: the queue's slot is taken away; running grids go on (13 R237). -/
def execUnmapQueue (s : State) : Out State :=
  request 3 s (fun x s1 =>
    let n := x.getD 0 0
    if 4095 < n then malformed s1
    else if !(s1.queue n).mapped then done s1
    else
      let s2 := s1.dropSlot true n
      done ((s2.setQueue n { s2.queue n with mapped := false }).giveSlots (s1.queue n).part))

/-- RESET_QUEUE: FAULTED becomes RUNNING; the command at the head is tried again (13 R237, R243). -/
def execResetQueue (s : State) : Out State :=
  request 4 s (fun x s1 =>
    let n := x.getD 0 0
    let q := s1.queue n
    if 4095 < n then malformed s1
    else if q.state ≠ 2 then done s1
    else done ((s1.putQueue n { q with state := if q.mapped then 0 else 3 }).examine n))

/-! ## Shoot-downs (05 R98) -/

/-- A shoot-down's range meets a run of addresses (05 R91: VA [56:0] index). -/
def rangeMeets (va len base size : Nat) : Bool :=
  let v := va % 2 ^ 57
  decide (base < v + len) && decide (v < base + size)

/-- Lanes wait with locations that translation has given them, for an access that has still to be made: a store, a reduction, an atomic or a
copy. -/
def Wait.translated (w : Wait) : Bool :=
  (!w.found.isEmpty || !w.plans.isEmpty) && (match w.why with | .pin _ | .go _ | .fence _ | .room | .grant => true | _ => false)

/-- Accesses of an address space that have been translated and have still to be performed at their homes: those that lanes wait to make,
copies, engine work, writes to other parts, loads and atomics whose data has not come from there, and writes of the T9 that wait at pinned
lines. -/
def State.spaceBusy (s : State) (asid : Nat) : Bool :=
  !s.msys.late.isEmpty ||
  s.groups.any (fun e => (s.gridOf e.2).asid == asid &&
    (!e.2.unacked.isEmpty || e.2.pend.any (fun p => match p.src with | .remote .. => true | _ => false) ||
      e.2.waits.any Wait.translated || s.eng.copies.any (fun c => c.gid == e.1))) ||
  s.eng.ops.any (fun o => !o.complete && ((s.grids.get? ((s.teams.get? o.team).getD noTeam).grid).getD noGrid).asid == asid)

/-- SHOOTDOWN: every TLB entry of the range is dropped, but for those inside a hold; it is done once the accesses that used them are
performed; x3 returns the count of pages found HELD (05 R98). -/
def execShootdown (s : State) : Out State :=
  request 8 s (fun x s1 =>
    let asid := x.getD 0 0
    let va := x.getD 1 0
    let len := x.getD 2 0
    if 65535 < asid then malformed s1 else
    let s2 := { s1 with mmu := { s1.mmu with tlb := s1.mmu.tlb.filter (fun e =>
      e.held || !(e.asid == asid && rangeMeets va len e.leaf.base e.leaf.size)) } }
    if s1.spaceBusy asid then .later s2 else
    let held := (s1.mmu.held.filter (fun h => h.asid == asid && rangeMeets va len (h.page * 4096) 4096)).map (·.page)
    let parts := (List.range 8).filter (fun p => (s1.mmu.spaces.get? (spaceKey p asid)).isSome)
    let dies := if s1.disp.whole then [0, 1, 2, 3] else ((if parts.isEmpty then [0] else parts).map s1.lowDie).eraseDups
    let s3 := s2.writeMem (physKey (reqAddr s1.reqTake + 8 + 24)) 8 held.eraseDups.length
    done (dies.foldl (fun s' d => s'.count .shootdownAcks d 1) s3))

/-! ## Control registers (13 R235, R237) -/

/-- Which row of the opcode table serves a WRITE_REG. -/
inductive WriteKind where
  | malformed | refused | plain | join | leave | domain | remap | pin | family
deriving DecidableEq, Repr

/-- The register of a directory index: FEATURES and ACCEPT are the last two entries. -/
def regAt (i : Nat) : Option CtlReg := (ctlTable[i]?).map (·.1)

/-- How a WRITE_REG to a unit of a register with a value is served. -/
def State.writeKind (s : State) (i u v : Nat) : WriteKind :=
  match regAt i with
  | none => if i < ctlTable.length + 2 then (if u = 0 then .refused else .malformed) else .malformed
  | some r =>
    if r.units ≤ u then .malformed
    else if r.wmask = 0 then .refused
    else match r with
    | .fabGrpCtl =>
      if bit v 63 then (if !s.accepted 6 then .refused else if bit (s.ctlN r u) 63 then .plain else .join)
      else if bit (s.ctlN r u) 63 then .leave else .plain
    | .fabDomain => if bit (s.ctlN r u) 63 then .refused else if bit v 63 then .domain else .plain
    | .memRemapCtl => if bit v 16 then .remap else .plain
    | .memCupolaPin => .pin
    | .memBlockFamily => if (v % 8 == 5 || v % 8 == 6) && !s.accepted 2 then .refused else .family
    | .dbgCtl => if bit v 0 && !s.accepted 8 then .refused else .plain
    | _ => .plain

/-- The register with the bits that WRITE_REG writes taken from a value. PWR_GRANTS stays at the shader dies' limit, from which module reset
sets it, or below (01 R12, 13 R249; log 15). -/
def State.writeCtl (s : State) (r : CtlReg) (u v0 : Nat) : State :=
  let v := if r = .pwrGrants then min 48 (v0 % 256) else v0
  let m := BitVec.ofNat 64 r.wmask
  s.ctlSet r u ((s.ctlGet r u &&& ~~~m) ||| (BitVec.ofNat 64 v &&& m))

/-- THE FRAME OF A WRITE_REG that a row of its own serves. -/
def writeRequest (kind : WriteKind) (s : State) (k : CtlReg → Nat → Nat → State → ReqRes) : Out State :=
  request 9 s (fun x s1 =>
    let i := x.getD 0 0
    let u := x.getD 1 0
    let v := x.getD 2 0
    if s1.writeKind i u v ≠ kind then .later s1 else
    match regAt i with
    | none => .later s1
    | some r => k r u v s1)

/-- WRITE_REG: an RW register without an effect of its own; refusals and malformed requests (13 R237). -/
def execWriteReg (s : State) : Out State :=
  request 9 s (fun x s1 =>
    let i := x.getD 0 0
    let u := x.getD 1 0
    let v := x.getD 2 0
    match s1.writeKind i u v, regAt i with
    | .malformed, _ => malformed s1
    | .refused, _ => refused s1
    | .plain, some r => done (s1.writeCtl r u v)
    | _, _ => .later s1)

/-! ## Presence, breaks, pools, ACCEPT -/

/-- PRESENCE: a page is granted, and its dispatcher goes on; or refused, and the work unit fails with NOT_PRESENT, reason 7
(05 R100; 13 R237, R239). -/
def execPresence (s : State) : Out State :=
  request 0xA s (fun x s1 =>
    let seq := x.getD 0 0
    if 1 < x.getD 1 0 then malformed s1 else
    match s1.mmu.asked.find? (fun q => q.seq == seq && !q.granted) with
    | none => refused s1
    | some q =>
      let f : FaultInfo := { code := cNotPresent, addr := q.va, detail := pfDetail 7 q.level }
      let a : Acc := { place := 204, core := 4096, asid := q.asid, root := 0, part := q.part, strict := false, task := q.task, owner := q.owner }
      let drop (p : Presence) : Option Presence :=
        if p.part = q.part ∧ p.seq = seq then (if x.getD 1 0 = 1 then some { p with granted := true } else none) else some p
      let s2 := { s1 with mmu := { s1.mmu with asked := s1.mmu.asked.filterMap drop } }
      if x.getD 1 0 = 1 then done s2
      else if q.task then
        match s2.disp.pools.find? (fun p => match p.2 with
          | .task b g _ _ => b == q.owner && ((s2.grids.get? g).getD noGrid).asid == q.asid && ((s2.grids.get? g).getD noGrid).part == q.part
          | .calls .. => false) with
        | some (die, .task b g _ _) => done ((s1.endAsking a die).failTask g b die f)
        | _ => done s2
      else
        match s2.grids.get? q.owner with
        | none => done s2
        | some g => done (if s2.awaits g then (s1.endAsking a (s1.lowDie q.part)).refuseGrid q.owner (some f) else s2))

/-- RELEASE_BREAK: a group halted by BRK goes on (12 R222). -/
def execReleaseBreak (s : State) : Out State :=
  request 0xC s (fun x s1 =>
    let team := x.getD 1 0
    if 2 ^ 48 ≤ team ∨ 7 < x.getD 2 0 then malformed s1 else
    match s1.groups.find? (fun e => e.2.halted && e.2.grid == x.getD 0 0 &&
        (s1.teamOf e.2).index == team && e.2.index == x.getD 2 0) with
    | none => refused s1
    | some e => done (s1.setGroup e.1 { e.2 with halted := false }))

/-- The regions of a context's pools, as base and size. -/
def State.regions (s : State) (part : Nat) (c : Ctx) : List (Nat × Nat) :=
  [(c.park, 17 * 1024 * 256 * (s.coresOf part).length), (c.priv.base, c.priv.size), (c.hold.base, c.hold.size),
   (c.save.base, c.save.size)]

/-- Two regions share a byte. -/
def regionsMeet (a b : Nat × Nat) : Bool := decide (0 < a.2) && decide (0 < b.2) && decide (a.1 < b.1 + b.2) && decide (b.1 < a.1 + a.2)

/-- A list holds no two regions that share a byte. -/
def apart : List (Nat × Nat) → Bool
  | [] => true
  | r :: t => t.all (fun q => !regionsMeet r q) && apart t

/-- A pool descriptor's context. -/
def ctxOf (w : Nat) : Ctx :=
  let f (i : Nat) : Nat := w / 2 ^ (64 * i) % 2 ^ 64
  { park := f 0, priv := { base := f 1, size := f 2, used := 0 }, hold := { base := f 3, size := f 4, used := 0 },
    save := { base := f 5, size := f 6, used := 0 } }

/-- SET_POOLS: the memory that the T9 keeps for a context (13 R238). -/
def execSetPools (s : State) : Out State :=
  request 0xF s (fun x s1 =>
    let part := bits (x.getD 0 0) 7 0
    let ctx := bits (x.getD 0 0) 8 8
    let pa := x.getD 1 0
    if 2 ^ 9 ≤ x.getD 0 0 ∨ !s1.hasPart part ∨ (s1.disp.whole ∧ ctx ≠ 0) ∨ pa % 64 ≠ 0 ∨ !s1.hbmOf part pa 64 then malformed s1
    else if s1.ctrl.queues.any (fun e => e.2.mapped && e.2.part == part && e.2.ctx == ctx) ∨
        s1.gridsOf (fun g => g.part == part && g.ctx == ctx) then refused s1
    else
      let c := ctxOf (s1.ownView (physKey pa) 64)
      let s1 := s1.sawPhys part [(pa, 64)]
      let rs := s1.regions part c
      let others := match s1.disp.ctxs.get? (part * 2 + (1 - ctx)) with
        | some o => if s1.disp.whole then [] else s1.regions part o
        | none => []
      if !rs.all (fun r => r.1 % 4096 == 0 && r.2 % 4096 == 0 && s1.hbmOf part r.1 r.2) ∨ !apart rs ∨
          rs.any (fun r => others.any (regionsMeet r)) then malformed s1
      else done { s1 with disp := { s1.disp with ctxs := s1.disp.ctxs.set (part * 2 + ctx) c } })

/-- ACCEPT: written once, with a subset of FEATURES (13 R247). -/
def execAccept (s : State) : Out State :=
  request 0x10 s (fun x s1 =>
    let a := BitVec.ofNat 128 (x.getD 0 0 + x.getD 1 0 * 2 ^ 64)
    if s1.ctrl.acceptDone ∨ a &&& ~~~features ≠ 0 then refused s1
    else done { s1 with ctrl := { s1.ctrl with
      accept := a
      acceptDone := true } })

/-- Events held back are written while their rings have room (13 R239). -/
def State.eventsAgain (s : State) : State := s.drainEvents s.ctrl.events []

/-- EVENT_TAKE_COUNT: the take count of an event ring is written; events held back are written while there is room (13 R239). -/
def execEventTakeCount (ring take : Nat) (s : State) : Out State := .next (s.setRingWord ring 16 (take % 2 ^ 64)).eventsAgain

end Sys2Proof.Machine
end

