-- ==== Sys2Proof/Machine/Firmware.lean ====
section
/-! DEFINITION. Firmware slots, attestation, watchdogs, soft errors and module reset (00 R4; 04 R84; 12 R231, R232; 13 R234,
R246, R248). -/
namespace Sys2Proof.Machine

/-! ## Firmware images (13 R246) -/

/-- Bytes at a physical address that a request names lie in memory. -/
def State.inMemory (s : State) (pa n : Nat) : Bool := inHbm pa n || inTier pa n || s.inCupola pa n

/-- The 48 bytes of a SHA-384 digest. -/
def digest (l : List Byte) : List Byte := toLe 48 (Config.sha384 l).toNat

/-- An image of 160 bytes of header and a body: its parts checked, or none. -/
def imageOf (bs : List Byte) (minimum : Nat) : Option Image :=
  let w := fromLe (bs.take 16)
  let body := bs.drop 160
  let version := bits w 127 96
  if bits w 31 0 = 0x57464E47 ∧ bits w 63 32 = 1 ∧ bits w 95 64 = body.length ∧ (bs.drop 16).take 48 = digest body ∧
      Config.firmwareKeyAccepts (bs.take 64) ((bs.drop 64).take 96) = true ∧ minimum ≤ version
  then some { body := body, version := version } else none

/-- FW_INSTALL: refused for the running slot, and when the signature or the security version fails (13 R246). -/
def execFwInstall (s : State) : Out State :=
  request 0xD s (fun x s1 =>
    let slot := x.getD 0 0
    let pa := x.getD 1 0
    let n := x.getD 2 0
    if 1 < slot ∨ !s1.inMemory pa n then malformed s1
    else if slot = s1.fw.running ∨ n < 160 then refused s1
    else
      let s2 := s1.sawPhys 0 [(pa, n)]
      match imageOf (s1.viewBytes (physKey pa) n) s1.fw.minimum with
      | none => refused s2
      | some i => done { s2 with fw := { s2.fw with
          slots := s2.fw.slots.set slot i
          next := some slot } })

/-- FW_COMMIT: the trial image sets COMMIT; the fused minimum rises to its security version (13 R246). -/
def execFwCommit (s : State) : Out State :=
  if !s.fw.trial then .next s else
  let v := (s.fw.slots.getD s.fw.running { body := [], version := 0 }).version
  let s1 := s.ctlSet .fwStatus 0 4
  .next { s1 with fw := { s1.fw with
    trial := false
    minimum := max s1.fw.minimum v } }

/-- FW_STATUS as it reads: COMMIT, TRIAL and SLOT. -/
def State.fwStatusWord (s : State) : Nat :=
  bits (s.ctlN .fwStatus 0) 2 2 * 4 + (if s.fw.trial then 2 else 0) + s.fw.running % 2

/-! ## Reset (00 R4, 06 R388) -/

/-- The part after a module reset that boots a slot: every register at its reset value, memory unwritten; firmware slots and the
fused minimum stay, time goes on, and the model's own inputs and counters too. -/
def State.boot (s : State) (slot : Nat) (trial : Bool) : State :=
  { State.reset with
    env := { s.env with
      resetAt := s.env.cycle
      turn := 0 }
    fw := { s.fw with
      running := slot
      next := none
      trial := trial
      started := s.env.cycle } }

/-- MODULE_RESET: an image installed since the last reset boots on trial. An image on trial that has not committed stays on trial, its 30 s
beginning again with its start (13 R246). -/
def execModuleReset (s : State) : Out State :=
  match s.fw.next with
  | some n => .next (s.boot n true)
  | none => .next (s.boot s.fw.running s.fw.trial)

/-- FW_TRIAL_TIMEOUT: 30 s pass without COMMIT; the part is reset from the other slot and FW_REVERTED is posted. An image that was installed
there during the trial boots on trial (13 R246). -/
def execFwTrialTimeout (s : State) : Out State :=
  if !s.fw.trial || decide (s.env.cycle - s.fw.started < usCycles 30000000) then .next s else
  let slot := 1 - s.fw.running
  .next ((s.boot slot s.fw.next.isSome).post { ring := 0, code := 8, part := 0, w := 0, x := slot, y := 0, z := 0 })

/-- The commands of a queue whose grids have no final STATUS yet, as the grids show them. -/
def State.runOf (s : State) (n : Nat) : List Cmd :=
  s.grids.filterMap (fun e => match e.2.cmd with
    | some (q, k) => if q = n ∧ e.2.status = 0 then some { n := k, grids := [e.1] } else none
    | none => none)

/-- What a restarted Turret knows of a queue: the copy of its control block that is in force, its head block, its tail word, its fault
area and its grids. The time that a WAIT has waited, which none of these holds, begins again (13 R234, R240 to R243; log 100). -/
def State.rebuilt (s : State) (n : Nat) : Queue :=
  let q := s.queue n
  let sel := s.ownView (physKey q.block) 8 % 2
  let q1 := { q.load q.block (s.ownView (physKey (q.block + 0x40 + 0x40 * sel)) 64) with
    part := q.part
    ctx := q.ctx }
  let head := (s.ownRead q1.acc q1.headBlk 8).getD q.head
  let w := (s.ownRead q1.acc (add64 q1.headBlk 8) 8).getD q.status
  { q1 with
    head := head
    seen := (s.ownRead q1.acc q1.tail 8).getD head
    state := bits w 63 56
    op := bits w 15 8
    code := bits w 7 0
    waitSince := none
    faRecs := if q1.fa = 0 then 0 else (s.ownRead q1.acc q1.fa 8).getD q.faRecs
    run := s.runOf n }

/-- What a rebuilding of a queue reads. -/
def State.sawQueue (s : State) (n : Nat) : State :=
  let q := s.queue n
  let sel := s.ownView (physKey q.block) 8 % 2
  let q1 := s.rebuilt n
  ((s.sawPhys q.part [(q.block, 8), (q.block + 0x40 + 0x40 * sel, 64)]).sawAll q1.acc [(q1.headBlk, 16), (q1.tail, 8)]).sawAll q1.acc
    (if q1.fa = 0 then [] else [(q1.fa, 8)])

/-- A queue is rebuilt, and what it then asks for is done. -/
def State.rebuild (s : State) (n : Nat) : State := ((s.setQueue n (s.rebuilt n)).sawQueue n).examine n

/-- A Turret restarts: it reads again what it needs of the queues that it serves. -/
def State.restartTurret (s : State) (turret : Nat) : State :=
  ((s.ctrl.queues.filter (fun e => e.2.mapped && e.2.slot.any (fun k => turretOf k == turret))).map (·.1)).foldl (fun t n => t.rebuild n) s

/-- Campanile restarts: it reads again what it needs of the queues without a slot, whose WAITs begin again; the queues' ages are equal, and a put
count more than 256 ahead is met as if it had just been stored (13 R234, R236; log 100). Events held back are kept, for R239 drops none. -/
def State.restartCampanile (s : State) : State :=
  let take := s.reqTake
  let skip := if take + 256 < s.reqPut then some (take + 256, s.reqPut) else none
  let s1 : State := { s with ctrl := { s.ctrl with
      skip := skip
      queues := s.ctrl.queues.map (fun e => (e.1, { e.2 with
        age := s.env.fresh })) } }
  (s.ctrl.queues.filter (fun e => e.2.mapped && e.2.slot.isNone)).foldl (fun t e => t.rebuild e.1) (s1.useIds 1)

/-- WATCHDOG_FIRE: a firmware core, Turret 0 to 47 or else Campanile, restarts from the running slot and rebuilds what it knew from queue
control blocks, head blocks, event rings and hardware counters. No data-plane work stops, and no command runs twice (13 R234). -/
def execWatchdogFire (core : Nat) (s : State) : Out State := .next (if core < 48 then s.restartTurret core else s.restartCampanile)

/-! ## Attestation (13 R248) -/

/-- The 208 bytes of a report that are signed. -/
def State.report (s : State) (nonce : List Byte) : List Byte :=
  let body (i : Nat) : List Byte := (s.fw.slots.getD i { body := [], version := 0 }).body
  let other := body (1 - s.fw.running)
  toLe 4 1 ++ toLe 4 (if s.disp.whole then 0 else 1 + s.disp.slices % 256 * 256) ++ toLe 16 features.toNat ++
  toLe 16 s.ctrl.accept.toNat ++ toLe 8 s.self ++ nonce ++ digest (body s.fw.running) ++
  (if other.isEmpty then List.replicate 48 0 else digest other) ++ toLe 4 s.fw.minimum ++ List.replicate 12 0

/-- ATTEST: reads a nonce and writes a signed report (13 R248). -/
def execAttest (s : State) : Out State :=
  request 0xE s (fun x s1 =>
    let np := x.getD 0 0
    let rp := x.getD 1 0
    if !s1.inMemory np 48 ∨ !s1.inMemory rp 304 then malformed s1 else
    let r := s1.report (s1.viewBytes (physKey np) 48)
    let late : LateW := { part := 0, key := physKey rp, n := 304, w := fromLe (r ++ toLe 96 (Config.identitySign r).toNat), add := false }
    done ((s1.sawPhys 0 [(np, 48)]).lateStore (ownAsk 0 true) late))

/-! ## Soft errors (04 R84, 12 R231) -/

/-- The four 16-byte units of the 64-byte sector of a key are poisoned. -/
def Memory.poisonSector (m : Memory) (k place : Nat) : Memory :=
  let base := k / 4 / 64 * 64 * 4 + k % 4
  (List.range 4).foldl (fun m' i => m'.poisonUnit (unitOf (keyAdd base (16 * i))) place) m

/-- The partition that counts a soft error: that of the stack, of the group's core or of the team's core. -/
def State.eccPart (s : State) (place unit : Nat) : Nat :=
  if place ≤ 2 then s.partOfStack (stackOfRange (unit / 4))
  else if place = 4 then ((s.groups.get? (unit / 512)).map (fun g => s.partOfCore g.core)).getD 0
  else if place = 5 then ((s.teams.get? (unit / 16)).map (fun t => s.partOfCore t.core)).getD 0
  else ((s.teams.find? (fun e => e.2.scrId == unit / 4 / 2 ^ 24)).map (fun e => s.partOfCore e.2.core)).getD 0

/-- A register's number within its group names a register that can hold an error: vR by R, sN by 256 + N, pN by 320 + N. -/
def poisonable (r : Nat) : Bool := decide (r < 128) || (decide (256 < r) && decide (r < 320)) || (decide (320 < r) && decide (r < 328))

/-- ECC_ERROR: a soft error is corrected and counted, or its unit is poisoned (12 R231). `unit` is the key of a byte for memory,
Cupola, L2 and core SRAM; 512 x group + register for a register; 16 x team + tile for a tile. -/
def execEccError (place unit fatal : Nat) (s : State) : Out State :=
  let part := s.eccPart place unit
  if fatal = 0 then .next (s.count .eccCorrected part 1) else
  match place with
  | 4 =>
    if !poisonable (unit % 512) || (s.groups.get? (unit / 512)).isNone then .next s else
    .next ((s.modGroup (unit / 512) (fun g => { g with poison := (g.poison ++ [unit % 512]).eraseDups })).count .eccPoisoned part 1)
  | 5 => .next ((s.modTeam (unit / 16) (fun t => t.poisonTile (unit % 16))).count .eccPoisoned part 1)
  | p =>
    if 3 < p then .next s else
    .next ({ s with
      mem := s.mem.poisonSector unit p
      eng := { s.eng with ops := s.eng.ops.map (fun (o : MxOp) => o.taint unit) } }.count .eccPoisoned part 1)

end Sys2Proof.Machine
end

