-- ==== Sys2Proof/Machine/MemSys.lean ====
section
/-! DEFINITION. The memory system's own events: schedulers, refreshes, Cupola, remap sweeps, pins, block families and hotness
(06 R106 to R122). -/
namespace Sys2Proof.Machine

/-! ## Schedulers (06 R106 to R108, R116, R117) -/

/-- The request that a pseudo-channel starts next (06 R106). -/
def State.chosen (s : State) (pc : Nat) : Option MemReq :=
  let l := s.msys.reqs.filter (fun q => q.pc == pc)
  match leastBy (fun (q : MemReq) => q.arrived) (l.filter (fun q => decide (4000 ≤ s.podTime - q.arrived))) with
  | some q => some q
  | none =>
    match leastBy (fun (q : MemReq) => q.cls) l with
    | none => none
    | some m =>
      let same := l.filter (fun q => q.cls == m.cls)
      match leastBy (fun (q : MemReq) => q.deadline.getD 0) (same.filter (fun q => q.deadline.isSome)) with
      | some q => some q
      | none => same.head?

/-- The requester and deadline by which a request is judged when it is served, and those of the requests whose data it brings. Data for a
pending result is judged when it lands (06 R108). -/
def MemReq.due (q : MemReq) : List (Nat × Nat) :=
  match q.deadline with
  | some d => if q.serves = none then q.judge ++ [(q.requester, d)] else q.judge
  | none => q.judge

/-- The entry of a base die's footprint predictor for a 2 MiB region and a sector (06 R117, log 74). -/
def predictorEntry (stack pa sector : Nat) : Nat := stack * 4096 + (pa / 0x200000 * 32 + sector) % 4096

/-- The Cupola lines of a base die. -/
def State.linesOf (s : State) (stack : Nat) : List (Nat × CLine) := s.msys.cupola.filter (fun e => e.1 / 2 ^ 19 / 64 == stack)

/-- The lines that a base die's Cupola can hold: those of 48 MiB less what is reserved and, while a sweep runs, staged (06 R116, R118). -/
def State.cupolaLines (s : State) (stack : Nat) : Nat :=
  let span := if s.disp.whole then 0 else stack
  512 * (48 - s.ctlN .memCupolaPin stack - (if bit (s.ctlN .memRemapCtl span) 15 then 16 else 0))

/-- A line of a stack leaves, the choice being free; the predictor learns what was touched (06 R117). -/
def State.evict (s : State) (stack : Nat) : State :=
  let l := s.linesOf stack
  match l[Config.freeChoice s.env.freeCtr % l.length]? with
  | none => s
  | some (k, c) =>
    { s with msys := { s.msys with
        cupola := s.msys.cupola.erase k
        predictor := s.msys.predictor.put c.entry c.touched 0 } }.useFree 1

/-- Lines leave until a base die's Cupola holds at most `n` (06 R118). -/
def State.shrink (s : State) (stack n : Nat) : State :=
  (List.range ((s.linesOf stack).length - n)).foldl (fun t _ => t.evict stack) s

/-- A bank opens a row: an activation, and a row conflict when another row was open (06 R109, R114, R115). -/
def State.openRow (s : State) (q : MemReq) : State :=
  let bank := q.pc * 16 + q.addr / 2048 % 16
  let row := q.addr / 32768
  let s1 := { s with msys := { s.msys with rows := s.msys.rows.set bank row } }
  match s.msys.rows.get? bank with
  | some r =>
    if r = row then s else
    ((s1.count .memPcAct q.pc 1).count .memPcRowconf q.pc 1).count .memFamRowconf (q.span * 8 + q.family) 1
  | none => s1.count .memPcAct q.pc 1

/-- The key of a request's Cupola line: one 2 KiB row of one pseudo-channel. -/
def MemReq.line (q : MemReq) : Nat := q.pc * 2 ^ 19 + q.addr / 2048
/-- The sector of the line that a request is for. -/
def MemReq.sec (q : MemReq) : Nat := q.addr / 64 % 32

/-- The granule of HBM, by its number, that lies in a slot of a pseudo-channel of a request's span, if one does (06 R109, R110). -/
def State.granuleAt (s : State) (q : MemReq) (slot : Nat) : Option Nat :=
  let sp := s.span
  let b := slot / sp.s
  let pc := q.pc - (if s.disp.whole then 0 else 64 * q.span)
  ((List.range 65536).find? (fun g => s.familyPlace q.span q.family (s.version q.span q.family b) b g == (pc, slot % sp.s))).map
    (fun g => q.span * 2 ^ 28 + b * 65536 + g)

/-- A sector of a request's row is stored: of a compressed granule, as many lie in its slot as its size code says (06 R119, log 76). -/
def State.sectorStored (s : State) (q : MemReq) (i : Nat) : Bool :=
  if q.family ≠ 5 ∧ q.family ≠ 6 then true else
  ((s.granuleAt q (q.addr / 2048 * 8 + i / 4)).bind s.packCode).all (fun c => decide (i % 4 ≤ c))

/-- The class-3 requests that fetch the missing sector of a request and those that the predictor's mask names, but for sectors held, being
fetched or not stored (06 R117, R119). Their stamp is that of class 3, and no unit that R108 numbers has made them: neither R104 nor R108 says
so (log 109). With the missing sector's data come those of the request, which is judged then (06 R108). -/
def State.fillsFor (s : State) (q : MemReq) (c : CLine) (due : List (Nat × Nat)) : List MemReq :=
  let mask := laneBit q.sec ||| s.msys.predictor.getD (predictorEntry (q.pc / 64) (q.sector * 64) q.sec) 0
  ((lanesOf mask).filter (fun i => !c.held.getLsbD i && !s.msys.reqs.any (fun p => p.fill && p.line == q.line && p.sec == i) &&
      (i == q.sec || s.sectorStored q i))).zipIdx.map
    (fun x => { q with
      id := s.env.fresh + x.2
      addr := q.addr / 2048 * 2048 + 64 * x.1
      cls := 3
      deadline := s.deadline (s.stampOf (if s.disp.whole then 0 else q.span) 3)
      arrived := s.podTime
      requester := 506
      write := false
      fill := true
      serves := none
      judge := if x.1 = q.sec then due else [] })

/-- A request whose sector is not held has it fetched; a read's data come with it, and a write commits at once. -/
def State.fetchFor (s : State) (q : MemReq) (c : CLine) : State :=
  let due := if q.write then [] else q.due
  let s1 := if q.write then s.noteMisses q.due else s
  let join (p : MemReq) : MemReq := if p.fill && p.line == q.line && p.sec == q.sec then { p with judge := p.judge ++ due } else p
  (s1.fillsFor q c due).foldl (fun t f => t.enqueue f) { s1 with msys := { s1.msys with reqs := s1.msys.reqs.map join } }

/-- An access to HBM passes through its stack's Cupola: the sector is touched; where it is not held, it is fetched, and a line is made
for it, in a full Cupola in place of another (06 R116, R117). -/
def State.throughCupola (s : State) (q : MemReq) : State :=
  let new : CLine := { held := 0, touched := 0, entry := predictorEntry (q.pc / 64) (q.sector * 64) q.sec }
  let room := s.cupolaLines (q.pc / 64)
  if room = 0 then s.fetchFor q new else
  let s1 := if (s.msys.cupola.get? q.line).isSome then s else s.shrink (q.pc / 64) (room - 1)
  let c := (s1.msys.cupola.get? q.line).getD new
  let s2 := { s1 with msys := { s1.msys with cupola := s1.msys.cupola.set q.line { c with touched := c.touched ||| laneBit q.sec } } }
  if c.held.getLsbD q.sec then s2.noteMisses q.due else s2.fetchFor q c

/-- A fetched sector opens its row and comes into its line, if that is still held. -/
def State.fillSector (s : State) (q : MemReq) : State :=
  { s with msys := { s.msys with cupola := s.msys.cupola.modify q.line (fun c => { c with held := c.held ||| laneBit q.sec }) } }.openRow q

/-- MEM_REQUEST_START: a pseudo-channel starts the request that R106 chooses. The tier has no Cupola (06 R121). -/
def execMemRequestStart (pc : Nat) (s : State) : Out State :=
  match s.chosen pc with
  | none => .next s
  | some q =>
    let s1 : State := { s with msys := { s.msys with reqs := s.msys.reqs.erase q } }
    .next (if 512 ≤ pc then s1.noteMisses q.due else if q.fill then (s1.noteMisses q.due).fillSector q else s1.throughCupola q)

/-! ## Refresh (06 R120) -/

/-- A bank's open row is closed by a refresh. -/
def State.closeRow (s : State) (pc bank : Nat) : State :=
  { s with msys := { s.msys with rows := s.msys.rows.erase (pc * 16 + bank) } }

/-- A request waits for a bank. -/
def State.bankAsked (s : State) (pc bank : Nat) : Bool := s.msys.reqs.any (fun q => q.pc == pc && q.addr / 2048 % 16 == bank)

/-- REFRESH_DUE: the refresh is postponed while the bank holds fewer than 8, or issued, alone or with postponed ones; the choice is free,
for R120 does not say when the normal schedule issues postponed refreshes (log 94). The time that requests to the bank then wait is counted,
and is a free value (06 R115, log 15). -/
def execRefreshDue (pc bank : Nat) (s : State) : Out State :=
  let k := pc * 16 + bank
  let n := s.msys.postponed.getD k 0
  let x := Config.freeChoice s.env.freeCtr
  let left (m : Nat) : State := { s with msys := { s.msys with postponed := s.msys.postponed.put k m 0 } }
  if n < 8 ∧ x % 2 = 1 then .next ((left (n + 1)).useFree 1)
  else
    let s1 := (left (n - x / 2 % (n + 1))).closeRow pc bank
    .next ((if s.bankAsked pc bank then s1.count .memPcRefstall pc (Config.spentNs s.env.freeCtr) else s1).useFree 1)

/-- ALERT_BACKOFF: all 8 postponed refreshes if the bank holds 8, then the `n` refresh-management commands, before any request; the time
they take is a free value (log 15). -/
def execAlertBackoff (pc bank n : Nat) (s : State) : Out State :=
  let k := pc * 16 + bank
  let full := s.msys.postponed.getD k 0 = 8
  let s1 := s.count .memPcAlert pc 1
  let s2 := if full then { s1 with msys := { s1.msys with postponed := s1.msys.postponed.put k 0 0 } } else s1
  .next (if full ∨ n ≠ 0 then ((s2.closeRow pc bank).count .memPcRefstall pc (Config.spentNs s.env.freeCtr)).useFree 1 else s2)

/-! ## Remap sweeps (06 R112 to R114) -/

/-- The stacks of a span. -/
def State.stacksOf (s : State) (span : Nat) : List Nat := if s.disp.whole then List.range 8 else [span]

/-- A sweep of a family to a target version begins; its staging takes Cupola capacity of each base die of the span (06 R118). -/
def State.startSweep (s : State) (span fam target : Nat) : State :=
  let c := s.ctlN .memRemapCtl span
  let s1 := s.ctlSet .memRemapCtl span (BitVec.ofNat 64
    (setBits (setBits (setBits (setBits c 63 48 0) 23 20 fam) 19 18 target) 15 15 1))
  let s2 : State := { s1 with msys := { s1.msys with sweeps := s1.msys.sweeps.set span (fam, target) } }
  (s.stacksOf span).foldl (fun t k => t.shrink k (t.cupolaLines k)) s2

/-- The current version of a family in a control register's value. -/
def currentVersion (c fam : Nat) : Nat := bits c (33 + 2 * fam) (32 + 2 * fam)

/-- REMAP_START: FAMILY, TARGET and AUTO are written, and a sweep begins, or the START is ignored and counted (00 R3, 06 R113). -/
def execRemapStart (s : State) : Out State :=
  writeRequest .remap s (fun r u v s1 =>
    let busy := bit (s1.ctlN .memRemapCtl u) 15
    let fam := bits v 23 20
    let target := bits v 19 18
    let s2 := s1.writeCtl r u v
    if busy ∨ 4 < fam ∨ target = currentVersion (s1.ctlN r u) fam then done (s2.count .memRemapRefused u 1)
    else done (s2.startSweep u fam target))

/-- The remap engines' requests for a block, granule by granule: class 3, no deadline; each is that of the stack where the granule lies
(06 R104, R108). -/
def State.blockAsked (s : State) (span at' : Nat) (write : Bool) : State :=
  (List.range 65536).foldl (fun t g =>
    let pa := at' + 256 * g
    t.requests { part := span, requester := 498 + t.servedBy pa, cls := 3, stamp := 0xFFF, write := write, carried := none } pa 256) s

/-- REMAP_BLOCK_MOVE: the engine moves one block under the target version, reading it where it lies and writing it where it then lies, and
the pointer passes it; after the span's last block the target is current, the sweep ends and POINTER reads 0, which R112 leaves open (log 93).
No physical address changes. The move is one step (log 15). -/
def execRemapBlockMove (span : Nat) (s : State) : Out State :=
  let c := s.ctlN .memRemapCtl span
  if !bit c 15 then .next s else
  let at' := (if s.disp.whole then 0 else 0x1000000000 * span) + 0x1000000 * bits c 63 48
  let fam := (s.sweep span).1
  let moved := versionFamily (bits (s.ctlN .memBlockFamily (at' / 0x1000000)) 2 0) = fam
  let s0 := if moved then s.blockAsked span at' false else s
  let p := bits c 63 48 + 1
  let last := if s.disp.whole then 32768 else 4096
  let c1 := if p < last then setBits c 63 48 p
    else setBits (setBits (setBits c 63 48 0) 15 15 0) (33 + 2 * fam) (32 + 2 * fam) (s.sweep span).2
  let s1 := s0.ctlSet .memRemapCtl span (BitVec.ofNat 64 c1)
  .next (if moved then s1.blockAsked span at' true else s1)

/-- A family's conflicts have passed the threshold in this window and nothing has acted on it yet (06 R114). -/
def State.overThreshold (s : State) (span fam : Nat) : Bool :=
  decide (span < 8) && decide (fam < 8) && decide (s.ctlN .memRemapThresh span < s.ctlN .memFamRowconf (span * 8 + fam)) &&
  !s.msys.passed.contains (span * 8 + fam)

/-- REMAP_THRESHOLD_PASSED: a sweep to the next version, or the event REMAP_WANTED, or a refusal while a sweep runs (06 R114). With AUTO = 0
while a sweep runs, where R114 names both, the model counts the refusal and posts no event (log 93). -/
def execRemapThresholdPassed (span family : Nat) (s : State) : Out State :=
  if !s.overThreshold span family then .next s else
  let c := s.ctlN .memRemapCtl span
  let s1 := { s with msys := { s.msys with passed := s.msys.passed ++ [span * 8 + family] } }
  let f := versionFamily family
  if bit c 15 then .next (s1.count .memRemapRefused span 1)
  else if bit c 17 then .next (s1.startSweep span f ((currentVersion c f + 1) % 4))
  else .next (s1.post { ring := 0, code := 4, part := span, w := 0, x := span, y := family, z := 0 })

/-- A span's window is over. -/
def State.windowOver (s : State) (span : Nat) : Bool :=
  decide (span < 8) && decide (1000 * bits (s.ctlN .memRemapWindow span) 31 0 ≤ s.podTime - s.msys.window.getD span 0)

/-- MEM_REMAP_WINDOW: the family counts of a span restart at 0 (06 R114). -/
def execMemRemapWindow (span : Nat) (s : State) : Out State :=
  if !s.windowOver span then .next s else
  let s1 := (List.range 8).foldl (fun s' f => s'.ctlSet .memFamRowconf (span * 8 + f) 0) s
  .next { s1 with msys := { s1.msys with
    passed := s1.msys.passed.filter (fun k => k / 8 != span)
    window := s1.msys.window.set span s.podTime } }

/-! ## Pins and block families (06 R111, R118, R119) -/

/-- CUPOLA_PIN_WRITE: capacity reserved; a value above 32 is refused; lowering drops what it releases (06 R118). -/
def execCupolaPinWrite (s : State) : Out State :=
  writeRequest .pin s (fun r u v s1 =>
    if 32 < v then refused s1 else
    let base := 0x030000000000 + 0x3000000 * u
    let old := s1.ctlN r u
    let s2 := if v < old then { s1 with mem := s1.mem.drop (fun k =>
        k % 4 == 0 && decide (base + 0x100000 * v ≤ k / 4) && decide (k / 4 < base + 0x100000 * old)) } else s1
    done ((s2.writeCtl r u v).shrink u ((s2.writeCtl r u v).cupolaLines u)))

/-- Bytes of memory moved within a block: `f` gives the new granule of an old one. -/
def Memory.moveBlock (m : Memory) (block : Nat) (f : Nat → Nat) : Memory :=
  let inB (k : Nat) : Bool := k % 4 == 0 && k / 4 / 0x1000000 == block
  let mv (k : Nat) : Nat := physKey (block * 0x1000000 + f (k / 4 % 0x1000000 / 256) * 256 + k / 4 % 256)
  let mvUnit (k : Nat) : Nat := unitOf (mv (k / 4 * 16 * 4))
  let unitIn (k : Nat) : Bool := k % 4 == 0 && k / 4 * 16 / 0x1000000 == block
  { ((m.cells.filter (fun c => inB c.1)).foldl (fun t c => t.put (mv c.1) c.2) (m.drop inB)) with
    poison := (m.poison.filter (fun c => unitIn c.1)).foldl (fun t c => Store.set t (mvUnit c.1) c.2) (m.poison.filter (fun c => !unitIn c.1))
    red := (m.red.filter (fun c => inB c.1)).foldl (fun t c => Store.set t (mv c.1) c.2) (m.red.filter (fun c => !inB c.1)) }

/-- Where a granule's bytes appear once the block is read under another family: the granule that the new family places where the
old one placed this. -/
def State.newGranule (s : State) (span b old new g : Nat) : Nat :=
  let at' := s.familyPlace span old (s.version span old b) b g
  ((List.range 65536).find? (fun j => s.familyPlace span new (s.version span new b) b j == at')).getD g

/-- The bytes of a block that are listed. -/
def Memory.blockCells (m : Memory) (block : Nat) : List Host.Cell := m.cells.filter (fun c => c.1 % 4 == 0 && c.1 / 4 / 0x1000000 == block)

/-- BLOCK_FAMILY_WRITE: the block is read in place under the new family; no data moves in HBM; family 5 or 6 clears the block's
compression metadata (06 R111, R119). -/
def execBlockFamilyWrite (s : State) : Out State :=
  writeRequest .family s (fun r u v s1 =>
    let old := bits (s1.ctlN r u) 2 0
    let new := bits v 2 0
    let span := if s1.disp.whole then 0 else u / 4096
    let b := if s1.disp.whole then u else u % 4096
    let s2 := if old = new then s1 else { s1 with mem := s1.mem.moveBlock u (s1.newGranule span b old new) }
    let s3 := if new = 5 ∨ new = 6 then
        { s2 with msys := { s2.msys with cleared := s2.msys.cleared.set u (s2.mem.blockCells u) } } else s2
    done (s3.writeCtl r u v))

/-- A byte of the compression metadata area: the codes of four granules, the lowest in the low bits. -/
def State.packByte (s : State) (i : Nat) : Byte :=
  match (List.range 4).mapM (fun j => s.packCode (4 * i + j)) with
  | some l => BitVec.ofNat 8 (l.zipIdx.foldl (fun x q => x + q.1 * 4 ^ q.2) 0)
  | none => Config.freeByte (physKey (0x040020000000 + i))

/-! ## Hotness (06 R122) -/

/-- An I/O die's halving period is over. -/
def State.epochOver (s : State) (d : Nat) : Bool :=
  let us := bits (s.ctlN .memHotEpoch d) 31 0
  decide (d < 2) && us != 0 && decide (1000 * us ≤ s.podTime - s.msys.epoch.getD d 0)

/-- MEM_HOT_EPOCH: every hotness counter of an I/O die is halved, rounding down. -/
def execMemHotEpoch (iodie : Nat) (s : State) : Out State :=
  if !s.epochOver iodie then .next s else
  let half (e : Nat × Nat) : Option (Nat × Nat) :=
    if e.1 / 524288 ≠ iodie then some e else if e.2 < 2 then none else some (e.1, e.2 / 2)
  .next { s with msys := { s.msys with
    hot := s.msys.hot.filterMap half
    epoch := s.msys.epoch.set iodie s.podTime } }

end Sys2Proof.Machine
end

