-- ==== Sys2Proof/Machine/Memory.lean ====
section
/-! DEFINITION. Loads, stores, atomics, reductions, fences and cache operations (07 R131, R135, R136; 22 R309 to R312; 23 R328;
24 R346 to R350, R361; 25 R365, R366, R379, R380). -/
namespace Sys2Proof.Machine

/-- LD.U8 (24 R346, R347). -/
def execLdU8 (d a o : BitVec 7) (g : BitVec 4) (s : State) : Out State :=
  loadOp (.ldU8 d a o g) d.toNat a.toNat o 1 false s

/-- LD.S8 (24 R346, R347). -/
def execLdS8 (d a o : BitVec 7) (g : BitVec 4) (s : State) : Out State :=
  loadOp (.ldS8 d a o g) d.toNat a.toNat o 1 true s

/-- LD.U16 (24 R346, R347). -/
def execLdU16 (d a o : BitVec 7) (g : BitVec 4) (s : State) : Out State :=
  loadOp (.ldU16 d a o g) d.toNat a.toNat o 2 false s

/-- LD.S16 (24 R346, R347). -/
def execLdS16 (d a o : BitVec 7) (g : BitVec 4) (s : State) : Out State :=
  loadOp (.ldS16 d a o g) d.toNat a.toNat o 2 true s

/-- LD.32 (24 R346, R347). -/
def execLd32 (d a o : BitVec 7) (g : BitVec 4) (s : State) : Out State :=
  loadOp (.ld32 d a o g) d.toNat a.toNat o 4 false s

/-- LD.64 (24 R346, R347). -/
def execLd64 (d a o : BitVec 7) (g : BitVec 4) (s : State) : Out State :=
  loadOp (.ld64 d a o g) d.toNat a.toNat o 8 false s

/-- LD.128 (24 R346, R347). -/
def execLd128 (d a o : BitVec 7) (g : BitVec 4) (s : State) : Out State :=
  loadOp (.ld128 d a o g) d.toNat a.toNat o 16 false s

/-- LDRO.32 (24 R349). -/
def execLdro32 (d a o : BitVec 7) (g : BitVec 4) (s : State) : Out State :=
  ldroOp (.ldro32 d a o g) d.toNat a.toNat o 4 s

/-- LDRO.128 (24 R349). -/
def execLdro128 (d a o : BitVec 7) (g : BitVec 4) (s : State) : Out State :=
  ldroOp (.ldro128 d a o g) d.toNat a.toNat o 16 s

/-- ST.8 (25 R380). -/
def execSt8 (d a o : BitVec 7) (g : BitVec 4) (s : State) : Out State :=
  storeOp (.st8 d a o g) d.toNat a.toNat o 1 s

/-- ST.16 (25 R380). -/
def execSt16 (d a o : BitVec 7) (g : BitVec 4) (s : State) : Out State :=
  storeOp (.st16 d a o g) d.toNat a.toNat o 2 s

/-- ST.32 (25 R380). -/
def execSt32 (d a o : BitVec 7) (g : BitVec 4) (s : State) : Out State :=
  storeOp (.st32 d a o g) d.toNat a.toNat o 4 s

/-- ST.64 (25 R380). -/
def execSt64 (d a o : BitVec 7) (g : BitVec 4) (s : State) : Out State :=
  storeOp (.st64 d a o g) d.toNat a.toNat o 8 s

/-- ST.128 (25 R380). -/
def execSt128 (d a o : BitVec 7) (g : BitVec 4) (s : State) : Out State :=
  storeOp (.st128 d a o g) d.toNat a.toNat o 16 s

/-- ATOM.ADD of 32 or 64 bits (22 R309, R310). -/
def execAtomAdd (d a : BitVec 7) (w : BitVec 1) (g : BitVec 4) (s : State) : Out State :=
  atomForm (.atomAdd d a w g) d.toNat a.toNat w 0 s

/-- ATOM.MIN.S of 32 or 64 bits (22 R309, R310). -/
def execAtomMinS (d a : BitVec 7) (w : BitVec 1) (g : BitVec 4) (s : State) : Out State :=
  atomForm (.atomMinS d a w g) d.toNat a.toNat w 1 s

/-- ATOM.MAX.S of 32 or 64 bits (22 R309, R310). -/
def execAtomMaxS (d a : BitVec 7) (w : BitVec 1) (g : BitVec 4) (s : State) : Out State :=
  atomForm (.atomMaxS d a w g) d.toNat a.toNat w 2 s

/-- ATOM.MIN.U of 32 or 64 bits (22 R309, R310). -/
def execAtomMinU (d a : BitVec 7) (w : BitVec 1) (g : BitVec 4) (s : State) : Out State :=
  atomForm (.atomMinU d a w g) d.toNat a.toNat w 3 s

/-- ATOM.MAX.U of 32 or 64 bits (22 R309, R310). -/
def execAtomMaxU (d a : BitVec 7) (w : BitVec 1) (g : BitVec 4) (s : State) : Out State :=
  atomForm (.atomMaxU d a w g) d.toNat a.toNat w 4 s

/-- ATOM.AND of 32 or 64 bits (22 R309, R310). -/
def execAtomAnd (d a : BitVec 7) (w : BitVec 1) (g : BitVec 4) (s : State) : Out State :=
  atomForm (.atomAnd d a w g) d.toNat a.toNat w 5 s

/-- ATOM.OR of 32 or 64 bits (22 R309, R310). -/
def execAtomOr (d a : BitVec 7) (w : BitVec 1) (g : BitVec 4) (s : State) : Out State :=
  atomForm (.atomOr d a w g) d.toNat a.toNat w 6 s

/-- ATOM.XOR of 32 or 64 bits (22 R309, R310). -/
def execAtomXor (d a : BitVec 7) (w : BitVec 1) (g : BitVec 4) (s : State) : Out State :=
  atomForm (.atomXor d a w g) d.toNat a.toNat w 7 s

/-- ATOM.EXCH of 32 or 64 bits (22 R309, R310). -/
def execAtomExch (d a : BitVec 7) (w : BitVec 1) (g : BitVec 4) (s : State) : Out State :=
  atomForm (.atomExch d a w g) d.toNat a.toNat w 8 s

/-- ATOMCAS: the low part of D is compared, the high part is the new value (22 R311). -/
def execAtomcas (d a : BitVec 7) (w : BitVec 1) (g : BitVec 4) (s : State) : Out State :=
  let n := if w = 0 then 4 else 8
  let k := if w = 0 then 1 else 2
  atomOp (.atomcas d a w g) d.toNat a.toNat n 9
    (fun r l x => if x = r.operand d.toNat l n then r.operand (d.toNat + k) l n else x)
    (fun r l => [r.operand d.toNat l n, r.operand (d.toNat + k) l n]) s

/-- RED.ADD.32 (25 R366). -/
def execRedAdd32 (d a : BitVec 7) (g : BitVec 4) (s : State) : Out State :=
  redOp (.redAdd32 d a g) d.toNat a.toNat 4 0x38 (redExact 4 (atomNew 0 4)) s

/-- RED.ADD.64 (25 R366). -/
def execRedAdd64 (d a : BitVec 7) (g : BitVec 4) (s : State) : Out State :=
  redOp (.redAdd64 d a g) d.toNat a.toNat 8 0x39 (redExact 8 (atomNew 0 8)) s

/-- RED.MAX.U64 (25 R366). -/
def execRedMaxU64 (d a : BitVec 7) (g : BitVec 4) (s : State) : Out State :=
  redOp (.redMaxU64 d a g) d.toNat a.toNat 8 0x3A (redExact 8 (max)) s

/-- RED.MIN.S32 (25 R366). -/
def execRedMinS32 (d a : BitVec 7) (g : BitVec 4) (s : State) : Out State :=
  redOp (.redMinS32 d a g) d.toNat a.toNat 4 0x3B (redExact 4 (atomNew 1 4)) s

/-- RED.MAX.S32 (25 R366). -/
def execRedMaxS32 (d a : BitVec 7) (g : BitVec 4) (s : State) : Out State :=
  redOp (.redMaxS32 d a g) d.toNat a.toNat 4 0x3C (redExact 4 (atomNew 2 4)) s

/-- RED.OR.32 (25 R366). -/
def execRedOr32 (d a : BitVec 7) (g : BitVec 4) (s : State) : Out State :=
  redOp (.redOr32 d a g) d.toNat a.toNat 4 0x3D (redExact 4 ((· ||| ·))) s

/-- RED.FADD.F32: the order in which addends combine is open (07 R133, log 13). -/
def execRedFaddF32 (d a : BitVec 7) (g : BitVec 4) (s : State) : Out State :=
  redOp (.redFaddF32 d a g) d.toNat a.toNat 4 0x3E (fun s k x => s.redFadd k (BitVec.ofNat 32 x)) s

/-- RED.RZADD: channel sums (03 R61). -/
def execRedRzadd (d a : BitVec 7) (g : BitVec 4) (s : State) : Out State :=
  redOp (.redRzadd d a g) d.toNat a.toNat 8 0x3F
    (redExact 8 (fun o x => (rzAdd (BitVec.ofNat 64 o) (BitVec.ofNat 64 x)).toNat)) s

/-- The lowest lane of a list of lanes with addresses. -/
def minLane (l : List (Nat × Nat)) (d : Nat) : Nat := (l.map (·.1)).foldl min d

/-- A core's L1 has written its lines back: the lines of which `p` speaks (07 R136; log 105). -/
def State.writeBack (s : State) (p : Nat × Nat → Bool) : State :=
  { s with mmu := { s.mmu with dirty := s.mmu.dirty.filter (fun q => !p q) } }

/-- FENCE: the model has one order of accesses, so a fence waits and orders nothing more (07 R129, R131, log 4). A discarded remote
write of a participating lane is raised by its next FENCE.POD (14 R253). After a fence of DIE or wider, the core has written its lines
back (log 105). -/
def execFence (sc : BitVec 3) (g : BitVec 4) (s : State) : Out State :=
  issue (.fence sc g) s (fun c s1 =>
    let part := c.part
    let mine := c.g.dropped.filter (fun q => part.getLsbD q.1)
    if part = 0 then c.advance s1
    else if c.g.unperformed part (sc == 6) then c.waitFor s1 part (.fence (sc == 6))
    else match if sc == 6 then mine else [] with
      | q :: _ =>
        let s2 := s1.modGroup c.gid (fun r => { r with dropped := r.dropped.filter (fun x => !part.getLsbD x.1) })
        c.failLane (c.metered s2 (fun _ => false)) (minLane mine q.1) (unreachableAt q.2)
      | [] => c.metered ((c.advance s1).writeBack (fun q => decide (4 ≤ sc.toNat) && q.1 == c.g.core)) (fun _ => false))

/-- PREF: no effect that a program can see (24 R361). -/
def execPref (a : BitVec 7) (g : BitVec 4) (s : State) : Out State :=
  regOp (.pref a g) s (fun _ r => r)

/-- INVRO: the core's read-only cache and fetched code are dropped (07 R135). -/
def execInvro (g : BitVec 4) (s : State) : Out State :=
  issue (.invro g) s (fun c s1 => c.advance (if c.part = 0 then s1 else s1.roDrop c.g.core))

/-- The checks of a lane's CFLUSH or CINV: a global address, without alignment (07 R136). -/
def State.checkLine (s : State) (g : Group) (lane va : Nat) : Except FaultInfo Loc :=
  if windowOf va ≠ .glb then .error { code := cRange, addr := va, detail := 0 } else s.checkAddr g lane va 1 1 .load

/-- One lane's line: translated, and its partials combined; a flush writes its dirty bytes back, a drop leaves them. Of a remote page, whose
writes leave at once, no line is dirty. -/
def ICtx.lineLane (c : ICtx) (flush : Bool) (s : State) (q : Nat × Nat × Loc) : State :=
  match q.2.2 with
  | .here k =>
    ((s.touch c.g q.2.1).combine (physKey (k / 4 / 128 * 128)) 128).writeBack (fun e => flush && e == (c.g.core, k / 4 / 128))
  | .away _ _ => s.touch c.g q.2.1

/-- The lines of lanes that the core's L1 has to write back. -/
def State.dirtyLines (s : State) (core : Nat) (l : List Loc) : List Seg :=
  (segsAt 1 l).filterMap (fun q =>
    if s.mmu.dirty.contains (core, q.key / 4 / 128) then some { key := physKey (q.key / 4 / 128 * 128), len := 128 } else none)

/-- CFLUSH and CINV: the addresses of all lanes are checked first, without alignment. CFLUSH writes dirty lines back, and waits while one of
them is pinned in the L2; CINV leaves them (07 R136, 23 R328, log 105). -/
def lineOp (i : Instr) (a : Nat) (flush : Bool) (s : State) : Out State :=
  issue i s (fun c s1 =>
    match c.checkedOnce (fun l => (s1.checkLine c.g l (c.g.wget a l).toNat).map (fun x => ((c.g.wget a l).toNat, x))) with
    | .error (l, f) => c.failAt s1 l f (fun l => (c.g.wget a l).toNat)
    | .ok xs =>
      let held := if flush then (s1.dirtyLines c.g.core (xs.map (·.2.2))).filter (fun q => s1.pinned q.key q.len) else []
      if held.isEmpty then c.advance (xs.foldl (c.lineLane flush) s1) else c.waitAt s1 c.part (.pin held) xs)

/-- CFLUSH (07 R136). -/
def execCflush (a : BitVec 7) (g : BitVec 4) (s : State) : Out State :=
  lineOp (.cflush a g) a.toNat true s

/-- CINV (07 R136). -/
def execCinv (a : BitVec 7) (g : BitVec 4) (s : State) : Out State :=
  lineOp (.cinv a g) a.toNat false s

end Sys2Proof.Machine
end

