-- ==== Sys2Proof/Machine/Fabric.lean ====
section
/-! DEFINITION. Dexlink: links, unreachable parts, reduction and multicast groups, the domain number, and requests that arrive on a
port, from other parts or from the host (13 R235; 14 R250 to R264). -/
namespace Sys2Proof.Machine

/-! ## Links (14 R250, R251, R253) -/

/-- LINK_RESEND: a damaged flit is sent again in its place (14 R250). -/
def execLinkResend (port : Nat) (s : State) : Out State := .next (if port < 18 then s.count .fabLinkRetries port 1 else s)

/-- LINK_UP: the port's link is up; parts may be reached again (14 R253, R263). -/
def execLinkUp (port : Nat) (s : State) : Out State :=
  if 18 ≤ port then .next s else
  .next { s with fab := { s.fab with
    links := s.fab.links ||| BitVec.ofNat 18 (2 ^ port)
    unreachable := [] } }

/-- LINK_TAKEN_OUT_OF_SERVICE: the port's link is down; traffic keeps its order (14 R251). -/
def execLinkTakenOutOfService (port : Nat) (s : State) : Out State :=
  if 18 ≤ port then .next s else
  .next { s with fab := { s.fab with links := s.fab.links &&& ~~~BitVec.ofNat 18 (2 ^ port) } }

/-! ## Group entries (14 R254 to R260) -/

/-- Fields of FAB_GRP_CTL. -/
def grpNo (c : Nat) : Nat := bits c 11 0
def grpMembers (c : Nat) : Nat := bits c 28 16
def grpTimeout (c : Nat) : Nat := max 1 (bits c 47 32)
def grpFormat (c : Nat) : Nat := bits c 61 60
def grpMulticast (c : Nat) : Bool := bit c 62

/-- Two joins agree: GROUP, KIND, FORMAT, MEMBERS and TIMEOUT (14 R255). -/
def joinsAgree (a b : Nat) : Bool :=
  grpNo a == grpNo b && grpMulticast a == grpMulticast b && grpFormat a == grpFormat b && grpMembers a == grpMembers b &&
  grpTimeout a == grpTimeout b

/-- The joined entries of a group number. -/
def State.entriesOf (s : State) (grp : Nat) : List Nat :=
  (List.range 64).filter (fun e => bit (s.ctlN .fabGrpCtl e) 63 && grpNo (s.ctlN .fabGrpCtl e) == grp)

/-- The VALID bit of an entry set or cleared. -/
def State.setValid (s : State) (e : Nat) (v : Bool) : State :=
  s.ctlSet .fabGrpCtl e (BitVec.ofNat 64 (setBits (s.ctlN .fabGrpCtl e) 63 63 (if v then 1 else 0)))

/-- FAB_GRP_JOIN: the fields are written, VALID still reading 0; a join goes to the switches (14 R254, R255). -/
def execFabGrpJoin (s : State) : Out State :=
  writeRequest .join s (fun r u v s1 =>
    let s2 := s1.writeCtl r u (v % 2 ^ 63)
    done ((s2.setGrpRound u { noRound with asked := true }).send
      { dest := switches, vc := 4, op := 15, words := [s2.self, s2.ctlN r u] }))

/-- A write of `n` bytes of the T9 to memory of this part, by physical address; dropped and reported elsewhere (12 R387). -/
def State.partWrite (s : State) (pa n w : Nat) : State :=
  let part := s.partOfStack (s.servedBy pa)
  if s.inMemory pa n then s.lateStore (ownAsk part true) { part := part, key := physKey pa, n := n, w := w, add := false }
  else s.dropLate 0 0 pa

/-- Where the completion word and the destination of an entry lie. -/
def State.doneAt (s : State) (e : Nat) : Nat := bits (s.ctlN .fabGrpDone e) 51 3 * 8
def State.dstAt (s : State) (e : Nat) : Nat := bits (s.ctlN .fabGrpDst e) 51 8 * 256

/-- The completion word of an entry written (14 R258). -/
def State.writeDone (s : State) (e status round : Nat) : State := s.partWrite (s.doneAt e) 8 (status * 2 ^ 56 + round % 2 ^ 56)

/-- This member has contributed to the round under way. -/
def GrpRound.given (r : GrpRound) : Bool := r.busy && r.go.isNone

/-- The first round to which a member may still contribute: rounds that were aborted before are over. -/
def GrpRound.nextRound (r : GrpRound) : Nat := max (if r.busy then r.round - 1 else r.round) (r.late.getD 0) + 1

/-- The round of a reduce entry that is under way is aborted: no destination is written, the completion word takes 0x14. A
contribution that this member has still to make to it will be discarded (14 R259). -/
def State.abortRound (s : State) (e : Nat) : State :=
  let r := s.grpRound e
  let s1 := s.count .fabRedAborts 0 1
  if r.given then (s1.writeDone e 0x14 r.round).setGrpRound e { r with busy := false }
  else (s1.writeDone e 0x14 r.nextRound).setGrpRound e { r with late := some r.nextRound }

/-- The same where a member leaves or cannot be reached. A member that has not contributed cannot see whether another has begun the round:
that is a free choice (log 90), where the group is live and has another member. -/
def State.abortUnderWay (s : State) (e : Nat) : State :=
  if (s.grpRound e).given then s.abortRound e
  else if !(s.grpRound e).live || decide (grpMembers (s.ctlN .fabGrpCtl e) ≤ 1) then s
  else if Config.freeChoice s.env.freeCtr % 2 = 1 then (s.useFree 1).abortRound e
  else s.useFree 1

/-- A group ends for all its members: rounds under way end, its entries read VALID 0 (14 R255, R259). -/
def State.endGroup (s : State) (grp : Nat) : State :=
  let s1 := (s.entriesOf grp).foldl (fun s' e =>
    let r := s'.grpRound e
    let s2 := if !grpMulticast (s'.ctlN .fabGrpCtl e) then s'.abortUnderWay e
      else if r.busy then s'.writeDone e 0x14 r.round else s'
    (s2.setValid e false).setGrpRound e noRound) s
  { s1 with fab := { s1.fab with joins := Store.erase s1.fab.joins grp } }

/-- FAB_GRP_LEAVE: clearing VALID ends the group (14 R255). -/
def execFabGrpLeave (s : State) : Out State :=
  writeRequest .leave s (fun r u v s1 =>
    let grp := grpNo (s1.ctlN r u)
    done (((s1.endGroup grp).writeCtl r u v).send { dest := switches, vc := 4, op := 17, words := [s1.self, grp] }))

/-- JOIN_REACHES_SWITCH: a join of a part with the fields of its FAB_GRP_CTL. One that differs from earlier joins is refused; the
group is live once MEMBERS have joined (14 R255). -/
def execJoinReachesSwitch (part ctl : Nat) (s : State) : Out State :=
  let grp := grpNo ctl
  let js := s.fab.joins.getD grp []
  let mine := (List.range 64).find? (fun e => (s.grpRound e).asked && joinsAgree (s.ctlN .fabGrpCtl e) ctl)
  if part = s.self ∧ mine.isNone then .next s
  else if js.any (fun j => !joinsAgree j.2 ctl) ∨ grpMembers ctl ≤ js.length then
    match if part = s.self then mine else none with
    | some e => .next ((s.setGrpRound e noRound).count .fabJoinRefused 0 1)
    | none => .next s
  else
    let s1 := { s with fab := { s.fab with joins := s.fab.joins.set grp (js ++ [(part, ctl)]) } }
    let s2 := match if part = s.self then mine else none with
      | some e => (s1.setGrpRound e noRound).setValid e true
      | none => s1
    if js.length + 1 < grpMembers ctl then .next s2
    else .next ((s2.entriesOf grp).foldl (fun s' e => s'.setGrpRound e { s'.grpRound e with live := true }) s2)

/-- FAB_DOMAIN_SET: the part's domain number, until module reset (14 R262). -/
def execFabDomainSet (s : State) : Out State := writeRequest .domain s (fun r u v s1 => done (s1.writeCtl r u v))

/-! ## Rounds (14 R256 to R260) -/

/-- GO_STORE: the release of the lane that stored is done; the window's 256 bytes contribute to the member's next round, or are
discarded by the switches when that round was aborted (14 R256, R259). -/
def execGoStore (entry : Nat) (s : State) : Out State :=
  let r := s.grpRound entry
  match r.go with
  | none => .next s
  | some (gid, lane) =>
    if !r.live ∨ ((s.groups.get? gid).map (fun g => g.unperformed (laneBit lane) true)).getD false then .next s
    else
      let pa := bits (s.ctlN .fabGrpWin entry) 51 12 * 4096
      let k := physKey pa
      let s1 := s.ownAccess (s.partOfStack (s.servedBy pa)) k 256 false
      let m : Msg := { dest := switches, vc := 4, op := 16, words := [grpNo (s.ctlN .fabGrpCtl entry), r.round, s.ownView k 256],
                       data := some 256 }
      let late := decide (r.round ≤ r.late.getD 0)
      .next (if late then ((s1.count .fabRedAborts 0 1).setGrpRound entry { r with
          busy := false
          go := none }).send m
        else (s1.setGrpRound entry { r with
          go := none
          data := s.viewBytes k 256
          since := s1.env.cycle }).send m)

/-- The sum of two elements of a format (14 R257). -/
def elemAdd (fmt x y : Nat) : Nat :=
  match fmt with
  | 0 => (x + y) % 2 ^ 32
  | 1 => (x + y) % 2 ^ 64
  | 2 => (fadd32 .rne (BitVec.ofNat 32 x) (BitVec.ofNat 32 y)).toNat
  | _ => (rzAdd (BitVec.ofNat 64 x) (BitVec.ofNat 64 y)).toNat
/-- Bytes of an element. -/
def elemSize (fmt : Nat) : Nat := if fmt % 2 = 0 ∧ fmt < 3 then 4 else 8
/-- The element-by-element sum of two contributions of 256 bytes (14 R257). -/
def sumWords (fmt a b : Nat) : Nat :=
  let n := elemSize fmt
  (List.range (256 / n)).foldl (fun x i =>
    x + elemAdd fmt (a / 2 ^ (8 * n * i) % 2 ^ (8 * n)) (b / 2 ^ (8 * n * i) % 2 ^ (8 * n)) * 2 ^ (8 * n * i)) 0
/-- The sum of a round along the tree: what is added before this part's contribution, then what is added after it. -/
def roundSum (fmt own : Nat) (before after : List Nat) : Nat :=
  match before ++ own :: after with
  | [] => own
  | x :: t => t.foldl (sumWords fmt) x

/-- The destination of an entry written. -/
def State.deliver (s : State) (e w : Nat) : State := s.partWrite (s.dstAt e) 256 w

/-- A round's data wait while the line of its destination or completion word is pinned, so that the word is written after them (04 R75, 14
R258). -/
def State.deliveryHeld (s : State) (e : Nat) : Bool :=
  s.lateHeld (physKey (s.dstAt e)) 256 || s.lateHeld (physKey (s.doneAt e)) 8

/-- ROUND_DELIVERY: a reduce round completes with the sums that join this part's contribution on the tree; or a multicast round
arrives, as data, round number and sender, and is acknowledged; or this member's own has been acknowledged by every reachable member
(14 R258, R260). The acknowledgement goes on virtual channel 4, as the data do (log 34). What arrives for a group that has ended is received and
no more, and so is all before FAB_DOMAIN is set (14 R262, R264). -/
def execRoundDelivery (entry : Nat) (before after : List Nat) (s : State) : Out State :=
  let r := s.grpRound entry
  let c := s.ctlN .fabGrpCtl entry
  if !bit c 63 ∨ !r.live ∨ !bit (s.ctlN .fabDomain 0) 63 then
    .next (if before.isEmpty && after.isEmpty then s else s.countRx none 256)
  else if s.deliveryHeld entry then .next s
  else if grpMulticast c then
    match before with
    | w :: n :: from' => .next ((((s.countRx none 256).deliver entry w).writeDone entry 1 n).send
        { dest := from'.headD switches, vc := 4, op := 22, words := [grpNo c, n], data := some 0 })
    | _ =>
      if !r.busy ∨ r.go.isSome then .next s else
      let others := ((s.fab.joins.getD (grpNo c) []).map (·.1)).filter (· != s.self)
      let lost := others.any s.fab.unreachable.contains
      let s1 := (others.filter (fun p => !s.fab.unreachable.contains p)).foldl (fun t _ => t.countRx none 0) s
      .next (((s1.deliver entry (fromLe r.data)).writeDone entry (if lost then 0x14 else 1) r.round).setGrpRound entry
        { r with busy := false })
  else if !r.busy ∨ r.go.isSome then .next s
  else
    .next ((((s.countRx none 256).deliver entry (roundSum (grpFormat c) (fromLe r.data) before after)).writeDone entry 1 r.round).setGrpRound
      entry { r with busy := false })

/-- REDUCE_ROUND_TIMEOUT: TIMEOUT passes after a round's first contribution, of this member or of another (14 R259). -/
def execReduceRoundTimeout (entry : Nat) (s : State) : Out State :=
  let c := s.ctlN .fabGrpCtl entry
  let r := s.grpRound entry
  if !bit c 63 ∨ grpMulticast c ∨ !r.live then .next s else .next (s.abortRound entry)

/-! ## Unreachable parts (14 R253, R259) -/

/-- A group's accesses to a part that cannot be reached: loads and atomics raise their fault when they land, writes are discarded,
for the next FENCE.POD of their lanes to report. -/
def Group.lose (g : Group) (part : Nat) : Group :=
  { g with
    pend := g.pend.map (fun p => match p.src with
      | .remote q a _ _ =>
        if q = part then { p with
          src := .ready
          bad := p.bad ++ [(unreachableAt a, if p.regs = [] then p.agent else lowLane p.lanes)] } else p
      | _ => p)
    unacked := g.unacked.filter (fun q => q.2.2 != part)
    dropped := g.dropped ++ (g.unacked.filter (fun q => q.2.2 == part)).map (fun q => (q.1, q.2.1)) }

/-- What the copies and drains of a group have sent there is discarded: their pieces are done (04 R82, 07 R138). -/
def State.losePieces (s : State) (gid part : Nat) : State :=
  let s1 := ((s.copyPieces gid).filter (fun q => q.2.2 == part)).foldl State.pieceDone s
  ((s1.drainPieces gid).filter (fun q => q.2 == part)).foldl (fun t q =>
    match t.eng.ops.find? (fun o => o.team == q.1.team && o.seq == q.1.seq) with
    | some o => t.drainPieceDone (o, part)
    | none => t) s1

/-- A group's traffic to a part that cannot be reached is given up; its discarded writes are counted. -/
def State.loseTraffic (part : Nat) (s : State) (e : Nat × Group) : State :=
  let n := (e.2.unacked.filter (fun q => q.2.2 == part)).length + ((s.copyPieces e.1).filter (fun q => q.2.2 == part)).length +
    ((s.drainPieces e.1).filter (fun q => q.2 == part)).length
  (((s.count .fabDroppedWrites 0 n).modGroup e.1 (fun g => g.lose part)).losePieces e.1 part).settleUnit e.1

/-- HOME_UNREACHABLE: accesses to the part end as 14 R253 lays down, and reduce rounds of groups it is in are aborted. -/
def execHomeUnreachable (part : Nat) (s : State) : Out State :=
  if part = s.self ∨ s.fab.unreachable.contains part then .next s else
  let s1 := { s with fab := { s.fab with unreachable := s.fab.unreachable ++ [part] } }
  let s2 := s1.groups.foldl (State.loseTraffic part) s1
  .next ((List.range 64).foldl (fun s' e =>
    let c := s'.ctlN .fabGrpCtl e
    if bit c 63 && !grpMulticast c && (s'.fab.joins.getD (grpNo c) []).any (fun j => j.1 == part)
    then s'.abortUnderWay e else s') s2)

/-! ## The control range (13 R235, 14 R263) -/

/-- The identity block. -/
def State.identity (s : State) : List Byte :=
  toLe 4 0x39544E47 ++ toLe 4 1 ++ toLe 16 Config.serial.toNat ++ toLe 16 features.toNat ++ toLe 4 s.fab.links.toNat ++
  toLe 4 (s.ctlN .fabDomain 0) ++ List.replicate 16 0

/-- A control register as the directory shows it. The power of a shader die is 0 until it has been averaged over a first millisecond, and never
above a quarter of what the shader dies may draw (01 R12, 13 R249; log 15). -/
def State.ctlShown (s : State) (r : CtlReg) (u : Nat) : Nat :=
  match r with
  | .fwStatus => s.fwStatusWord
  | .pwrDieMw => if s.env.cycle - s.env.resetAt < usCycles 1000 then 0 else Config.dieMilliwatts u s.env.cycle % 475001
  | _ => s.ctlN r u

/-- The byte at an offset of the control range; none outside its areas. -/
def State.controlByte (s : State) (o : Nat) : Option Byte :=
  if o < 0x40 then some (s.identity.getD o 0)
  else if 0x400 ≤ o ∧ o < 0x800 then some (Config.certByte (o - 0x400))
  else if 0x800 ≤ o ∧ o < 0x810 then some ((toLe 16 features.toNat).getD (o - 0x800) 0)
  else if 0x810 ≤ o ∧ o < 0x820 then some ((toLe 16 s.ctrl.accept.toNat).getD (o - 0x810) 0)
  else if 0x1000 ≤ o ∧ o < 0x7000 then some (directoryBytes.getD (o - 0x1000) 0)
  else if 0x7FF0 ≤ o ∧ o < 0xC000 + 8256 then some (s.byte (physKey (0x040000000000 + o)))
  else if 0x10000 ≤ o ∧ o < 0x1000000 then
    match regAt ((o - 0x10000) / 0x1000) with
    | some r => if r = .memBlockFamily ∨ r.units ≤ o % 0x1000 / 8 then none
      else some ((toLe 8 (s.ctlShown r (o % 0x1000 / 8))).getD (o % 8) 0)
    | none => none
  else if 0x1000000 ≤ o ∧ o < 0x1008000 then some (BitVec.ofNat 8 (s.ctlN .memBlockFamily (o - 0x1000000)))
  else if 0x10000000 ≤ o ∧ o < 0x10200000 then
    let i := (o - 0x10000000) / 0x100000 * 524288 + o % 0x100000 / 2
    some ((toLe 2 (s.msys.hot.getD i 0)).getD (o % 2) 0)
  else if 0x20000000 ≤ o ∧ o < 0x40000000 then some (s.packByte (o - 0x20000000))
  else none

/-- Bytes of the control range that system software may write: the put count, the request ring, the take count of the system
event ring. Any other store there is ignored. -/
def State.controlWrite (s : State) (o n w : Nat) : State :=
  if o = 0x7FF0 ∧ n = 8 then s.storePut (w % 2 ^ 64)
  else if o = 0xC010 ∧ n = 8 then
    let s1 := s.setRingWord 0 16 (w % 2 ^ 64)
    s1.drainEvents s1.ctrl.events []
  else if 0x8000 ≤ o ∧ o + n ≤ 0xC000 then s.writeMem (physKey (0x040000000000 + o)) n w
  else s

/-! ## Requests that arrive on a port (14 R252, R262) -/

/-- The new value of an atomic by its number: 0 to 8 as ATOM, 9 as ATOMCAS with the compare value in the low half of the data. -/
def atomValue (op n old data : Nat) : Nat :=
  if op = 9 then (if old = data % 2 ^ (8 * n) then data / 2 ^ (8 * n) % 2 ^ (8 * n) else old)
  else atomNew op n old (data % 2 ^ (8 * n))

/-- A reduction by its operation code (25 R366) at a key. -/
def State.reduceBy (s : State) (op k x : Nat) : State :=
  match op with
  | 0x38 => redExact 4 (atomNew 0 4) s k (x % 2 ^ 32)
  | 0x39 => redExact 8 (atomNew 0 8) s k (x % 2 ^ 64)
  | 0x3A => redExact 8 max s k (x % 2 ^ 64)
  | 0x3B => redExact 4 (atomNew 1 4) s k (x % 2 ^ 32)
  | 0x3C => redExact 4 (atomNew 2 4) s k (x % 2 ^ 32)
  | 0x3D => redExact 4 (· ||| ·) s k (x % 2 ^ 32)
  | 0x3E => s.redFadd k (BitVec.ofNat 32 x)
  | _ => redExact 8 (fun o y => (rzAdd (BitVec.ofNat 64 o) (BitVec.ofNat 64 y)).toNat) s k (x % 2 ^ 64)

/-- A response with `n` bytes of data, back through the port by which its request came (14 R252). A memory access is answered on virtual
channel 1; a management access on its own, channel 5, for which the spec names no channel of the answer (DESIGN CHOICE, log 34). -/
def State.respond (s : State) (port vc cls stamp : Nat) (words : List Nat) (n : Nat) : State :=
  s.send { dest := switches + 1 + port, vc := vc, op := 18, words := words, data := some n, cls := cls % 4, stamp := stamp % 4096,
           port := some port }

/-- A memory request is queued as its ingress port's, with the class and stamp it carries (06 R104, R108). -/
def State.ingress (s : State) (port cls stamp pa n : Nat) (write : Bool) : State :=
  s.requests { part := s.partOfStack (s.servedBy pa), requester := 480 + port, cls := cls % 4, stamp := stamp % 4096, write := write,
               carried := none } pa n

/-- The bytes of data that a message brings (14 R250): a compare-and-swap brings two operands; a fault record 32 bytes, a count 16, a steal
48. -/
def ingressBytes (op size : Nat) : Nat :=
  match op % 32 with
  | 0 | 20 | 17 => 0
  | 2 => if op / 32 = 9 then 2 * size else size
  | 13 => 16
  | 14 => 32
  | 19 => 48
  | _ => size

/-- A remote store, atomic or reduction must wait for bytes that the matrix engine has still to read (04 R75). -/
def State.ingressHeld (s : State) (op addr size : Nat) : Bool :=
  decide (1 ≤ op % 32) && decide (op % 32 ≤ 3) && s.pinned (physKey addr) size

/-- A fault record received for a grid that this part launched, from its four words in one number (08 R155). -/
def recOfWords (w : Nat) : FRec :=
  { code := bits w 4 0, kind := bits w 7 5, lane := bits w 12 8, group := bits w 15 13, team := bits w 63 16, launch := bits w 127 64,
    addr := bits w 191 128, pc := bits w 223 192, detail := bits w 255 224 }

/-- FABRIC_INGRESS_REQUEST: the low 5 bits of `op` say what arrives: 0 read, 1 write, 2 atomic, 3 reduction (its operation from bit
5 on), 13 teams and parts that have completed and 14 a fault record for a grid launched here, 17 a leave of a group, 19 a steal to be logged
here, 20 and 21 a management read and write of the control range. Before FAB_DOMAIN is set only the last two are answered (14 R252, R261,
R262). -/
def execFabricIngressRequest (port op addr size data cls stamp : Nat) (s : State) : Out State :=
  if 18 ≤ port then .next s else
  let k := op % 32
  let s1 := s.countRx (some port) (ingressBytes op size)
  if k = 20 then
    match (List.range size).mapM (fun i => s1.controlByte (addr - 0x040000000000 + i)) with
    | some bs => if inControl addr then .next (s1.respond port 5 cls stamp [fromLe bs] size) else .fault (.physicalHole addr)
    | none => .fault (.physicalHole addr)
  else if k = 21 then
    if inControl addr then .next ((s1.controlWrite (addr - 0x040000000000) size data).respond port 5 cls stamp [] 0)
    else .fault (.physicalHole addr)
  else if !bit (s1.ctlN .fabDomain 0) 63 then .next s1
  else if k = 13 then
    match s1.grids.get? addr with
    | some g => .next ((s1.setGrid addr { g with
        others := g.others + size
        partsDone := g.partsDone + data }).writeCw addr)
    | none => .next s1
  else if k = 14 then
    match s1.grids.get? addr with
    | some g => .next (s1.noteFault addr g (recOfWords data))
    | none => .next s1
  else if k = 17 then .next (s1.endGroup (addr % 4096))
  else if k = 19 then
    .next (s1.logSteal addr (bits data 63 0, bits data 127 64, bits data 143 128, bits data 191 144, bits data 255 192, bits data 319 256))
  else if 3 < k then .next s1
  else if !s1.inMemory addr size then .fault (.physicalHole addr)
  else if s1.ingressHeld op addr size then .next s1
  else
    let key := physKey addr
    let s2 := s1.ingress port cls stamp addr size (k != 0)
    let answer (s' : State) (words : List Nat) : Out State := .next (s'.respond port 1 cls stamp words (if words = [] then 0 else size))
    match k with
    | 0 => answer (s2.combine key size) [s2.readMem key size]
    | 1 => answer ((s2.combine key size).writeMem key size (data % 2 ^ (8 * size))) []
    | 2 =>
      let s3 := s2.combine key size
      let o := s3.readMem key size
      answer (s3.writeMem key size (atomValue (op / 32) size o data)) [o]
    | _ => answer (s2.reduceBy (op / 32) key data) []

end Sys2Proof.Machine
end

