-- ==== Sys2Proof/Machine/Flags.lean ====
section
/-! DEFINITION. The condition codes of CMP and FCMP (15 R271, R272): the T9's only flags are the predicates they write. -/
namespace Sys2Proof.Machine

/-- CMP's condition by its code; codes 10 to 15 are none (15 R271). -/
def cmpCond (cc : Nat) (a b : W32) : Bool :=
  match cc with
  | 0 => a == b
  | 1 => a != b
  | 2 => a.slt b
  | 3 => a.sle b
  | 4 => b.slt a
  | 5 => b.sle a
  | 6 => a.ult b
  | 7 => a.ule b
  | 8 => b.ult a
  | 9 => b.ule a
  | _ => false

/-- Order of two FP32 encodings that are no NaNs: -0 equals +0 (15 R272). -/
def fltOrd (a b : W32) : Ordering :=
  let k (w : W32) : Int := if w.getLsbD 31 then -(w.toNat % 2 ^ 31 : Nat) else (w.toNat : Int)
  compare (k a) (k b)

/-- FCMP's condition by its code; codes 7 and 15 are none (15 R272). -/
def fcmpCond (cc : Nat) (a b : W32) : Bool :=
  let un := isNan a || isNan b
  let o := fltOrd a b
  let rel : Bool := match cc % 8 with
    | 0 => o == .eq
    | 1 => o != .eq
    | 2 => o == .lt
    | 3 => o != .gt
    | 4 => o == .gt
    | 5 => o != .lt
    | 6 => cc == 6
    | _ => false
  if cc < 8 then !un && rel else un || rel

end Sys2Proof.Machine
end

