-- ==== Sys2Proof/Machine/Vector.lean ====
section
/-! DEFINITION. Integer vector operations, selects, shuffles, compares, immediates, predicates, votes and folds
(15 R266, R271, R274, R275; 22 R307, R308, R313; 23 R329, R330; 24 R351 to R360; 25 R363, R367, R375 to R377, R385). -/
namespace Sys2Proof.Machine

/-! ## Shapes -/

/-- A vector instruction of two sources (22 R308). -/
def vec2 (i : Instr) (d a b : Nat) (f : W32 → W32 → W32) (s : State) : Out State :=
  regOp i s (fun part g => g.vsetBy part d (fun l => f (g.vget a l) (g.vget b l)))
/-- A vector instruction of one source (22 R308). -/
def vec1 (i : Instr) (d a : Nat) (f : W32 → W32) (s : State) : Out State :=
  regOp i s (fun part g => g.vsetBy part d (fun l => f (g.vget a l)))
/-- A vector instruction of two sources that also reads its destination (24 R352). -/
def vec3 (i : Instr) (d a b : Nat) (f : W32 → W32 → W32 → W32) (s : State) : Out State :=
  regOp i s (fun part g => g.vsetBy part d (fun l => f (g.vget a l) (g.vget b l) (g.vget d l)))
/-- The same, where FPMODE.RM is read at issue (23 R339). -/
def vecF (i : Instr) (d a b : Nat) (f : RM → W32 → W32 → W32 → W32) (s : State) : Out State :=
  regOp i s (fun part g => g.vsetBy part d (fun l => f g.rm (g.vget a l) (g.vget b l) (g.vget d l)))

/-! ## Results -/

/-- IMM7 sign-extended (15 R269). -/
def immOf (i : BitVec 7) : W32 := i.signExtend 32
/-- Bits [63:32] of the signed product (24 R352). -/
def mulhOf (a b : W32) : W32 := BitVec.ofInt 32 (a.toInt * b.toInt / 2 ^ 32)
/-- The smaller, as signed. -/
def minOf (a b : W32) : W32 := if b.slt a then b else a
/-- The larger, as signed. -/
def maxS (a b : W32) : W32 := if a.slt b then b else a
/-- Shift left by bits [4:0] (25 R375). -/
def shlOf (a b : W32) : W32 := a <<< (b.toNat % 32)
/-- Logical shift right by bits [4:0] (25 R375). -/
def shrOf (a b : W32) : W32 := a >>> (b.toNat % 32)
/-- Arithmetic shift right by bits [4:0] (25 R375). -/
def sarOf (a b : W32) : W32 := a.sshiftRight (b.toNat % 32)
/-- Magnitude, wrapping (22 R307). -/
def absOf (a : W32) : W32 := if a.getLsbD 31 then -a else a
/-- Number of set bits (24 R352). -/
def popcOf (a : W32) : W32 := BitVec.ofNat 32 (laneCount a)
/-- Zero bits above the highest set bit (23 R329). -/
def clzOf (a : W32) : W32 := BitVec.ofNat 32 (if a = 0 then 32 else 31 - Nat.log2 a.toNat)
/-- Bits reversed (22 R307). -/
def brevOf (a : W32) : W32 := maskOf (fun i => a.getLsbD (31 - i))
/-- A shift amount as a word. -/
def shiftBy (i : BitVec 5) : W32 := i.setWidth 32

/-! ## The 16-bit forms: the effect of the 32-bit form with A = D and G = 0 (15 R266) -/

/-- NOP: no effect (24 R358). -/
def execNop  (s : State) : Out State :=
  regOp .nop s (fun _ g => g)

/-- MOV in 16 bits (15 R266). -/
def execMov16 (d : BitVec 6) (b : BitVec 5) (s : State) : Out State :=
  vec1 (.mov16 d b) d.toNat b.toNat (fun x => x) s

/-- ADD in 16 bits (15 R266). -/
def execAdd16 (d : BitVec 6) (b : BitVec 5) (s : State) : Out State :=
  vec2 (.add16 d b) d.toNat d.toNat b.toNat (· + ·) s

/-- SUB in 16 bits (15 R266). -/
def execSub16 (d : BitVec 6) (b : BitVec 5) (s : State) : Out State :=
  vec2 (.sub16 d b) d.toNat d.toNat b.toNat (· - ·) s

/-- MUL in 16 bits (15 R266). -/
def execMul16 (d : BitVec 6) (b : BitVec 5) (s : State) : Out State :=
  vec2 (.mul16 d b) d.toNat d.toNat b.toNat (· * ·) s

/-- AND in 16 bits (15 R266). -/
def execAnd16 (d : BitVec 6) (b : BitVec 5) (s : State) : Out State :=
  vec2 (.and16 d b) d.toNat d.toNat b.toNat (· &&& ·) s

/-- OR in 16 bits (15 R266). -/
def execOr16 (d : BitVec 6) (b : BitVec 5) (s : State) : Out State :=
  vec2 (.or16 d b) d.toNat d.toNat b.toNat (· ||| ·) s

/-- XOR in 16 bits (15 R266). -/
def execXor16 (d : BitVec 6) (b : BitVec 5) (s : State) : Out State :=
  vec2 (.xor16 d b) d.toNat d.toNat b.toNat (· ^^^ ·) s

/-- SHL in 16 bits (15 R266). -/
def execShl16 (d : BitVec 6) (b : BitVec 5) (s : State) : Out State :=
  vec2 (.shl16 d b) d.toNat d.toNat b.toNat shlOf s

/-- SHR in 16 bits (15 R266). -/
def execShr16 (d : BitVec 6) (b : BitVec 5) (s : State) : Out State :=
  vec2 (.shr16 d b) d.toNat d.toNat b.toNat shrOf s

/-- MIN in 16 bits (15 R266). -/
def execMin16 (d : BitVec 6) (b : BitVec 5) (s : State) : Out State :=
  vec2 (.min16 d b) d.toNat d.toNat b.toNat minOf s

/-- MAX in 16 bits (15 R266). -/
def execMax16 (d : BitVec 6) (b : BitVec 5) (s : State) : Out State :=
  vec2 (.max16 d b) d.toNat d.toNat b.toNat maxS s

/-! ## Three-operand forms -/

/-- ADD (22 R307). -/
def execAdd (d a b : BitVec 7) (g : BitVec 4) (s : State) : Out State :=
  vec2 (.add d a b g) d.toNat a.toNat b.toNat (· + ·) s

/-- SUB (25 R375). -/
def execSub (d a b : BitVec 7) (g : BitVec 4) (s : State) : Out State :=
  vec2 (.sub d a b g) d.toNat a.toNat b.toNat (· - ·) s

/-- MUL (24 R352). -/
def execMul (d a b : BitVec 7) (g : BitVec 4) (s : State) : Out State :=
  vec2 (.mul d a b g) d.toNat a.toNat b.toNat (· * ·) s

/-- MULH (24 R352). -/
def execMulh (d a b : BitVec 7) (g : BitVec 4) (s : State) : Out State :=
  vec2 (.mulh d a b g) d.toNat a.toNat b.toNat mulhOf s

/-- MIN (24 R352). -/
def execMin (d a b : BitVec 7) (g : BitVec 4) (s : State) : Out State :=
  vec2 (.min d a b g) d.toNat a.toNat b.toNat minOf s

/-- MAX (24 R352). -/
def execMax (d a b : BitVec 7) (g : BitVec 4) (s : State) : Out State :=
  vec2 (.max d a b g) d.toNat a.toNat b.toNat maxS s

/-- AND (22 R307). -/
def execAnd (d a b : BitVec 7) (g : BitVec 4) (s : State) : Out State :=
  vec2 (.and d a b g) d.toNat a.toNat b.toNat (· &&& ·) s

/-- OR (24 R352). -/
def execOr (d a b : BitVec 7) (g : BitVec 4) (s : State) : Out State :=
  vec2 (.or d a b g) d.toNat a.toNat b.toNat (· ||| ·) s

/-- XOR (25 R375). -/
def execXor (d a b : BitVec 7) (g : BitVec 4) (s : State) : Out State :=
  vec2 (.xor d a b g) d.toNat a.toNat b.toNat (· ^^^ ·) s

/-- SHL (25 R375). -/
def execShl (d a b : BitVec 7) (g : BitVec 4) (s : State) : Out State :=
  vec2 (.shl d a b g) d.toNat a.toNat b.toNat shlOf s

/-- SHR (25 R375). -/
def execShr (d a b : BitVec 7) (g : BitVec 4) (s : State) : Out State :=
  vec2 (.shr d a b g) d.toNat a.toNat b.toNat shrOf s

/-- SAR (25 R375). -/
def execSar (d a b : BitVec 7) (g : BitVec 4) (s : State) : Out State :=
  vec2 (.sar d a b g) d.toNat a.toNat b.toNat sarOf s

/-- MAD: a × b + old d (24 R352). -/
def execMad (d a b : BitVec 7) (g : BitVec 4) (s : State) : Out State :=
  vec3 (.mad d a b g) d.toNat a.toNat b.toNat (fun x y z => x * y + z) s

/-- SEL: the guard selects, and every live lane of the path takes part (25 R376). -/
def execSel (d a b : BitVec 7) (g : BitVec 4) (s : State) : Out State :=
  regOp (.sel d a b g) s (fun part r =>
    let m := r.guarded part g
    r.vsetBy part d.toNat (fun l => if m.getLsbD l then r.vget a.toNat l else r.vget b.toNat l))

/-- SHFL: another lane's register; an exited lane gives 0 (25 R377). -/
def execShfl (d a b : BitVec 7) (g : BitVec 4) (s : State) : Out State :=
  regOp (.shfl d a b g) s (fun part r => r.vsetBy part d.toNat (fun l =>
    let k := (r.vget b.toNat l).toNat % 32
    if r.live.getLsbD k then r.vget a.toNat k else 0))

/-- LEA: a pair plus a sign-extended register (24 R351). -/
def execLea (d a b : BitVec 7) (g : BitVec 4) (s : State) : Out State :=
  regOp (.lea d a b g) s (fun part r => r.wsetBy part d.toNat (fun l => r.wget a.toNat l + (r.vget b.toNat l).signExtend 64))

/-! ## Immediate forms -/

/-- ADDI (22 R307). -/
def execAddi (d a i : BitVec 7) (g : BitVec 4) (s : State) : Out State :=
  vec1 (.addi d a i g) d.toNat a.toNat (fun x => x + immOf i) s

/-- ANDI (22 R307). -/
def execAndi (d a i : BitVec 7) (g : BitVec 4) (s : State) : Out State :=
  vec1 (.andi d a i g) d.toNat a.toNat (fun x => x &&& immOf i) s

/-- ORI (24 R352). -/
def execOri (d a i : BitVec 7) (g : BitVec 4) (s : State) : Out State :=
  vec1 (.ori d a i g) d.toNat a.toNat (fun x => x ||| immOf i) s

/-- XORI (25 R375). -/
def execXori (d a i : BitVec 7) (g : BitVec 4) (s : State) : Out State :=
  vec1 (.xori d a i g) d.toNat a.toNat (fun x => x ^^^ immOf i) s

/-- SHLI (25 R375). -/
def execShli (d a : BitVec 7) (i : BitVec 5) (g : BitVec 4) (s : State) : Out State :=
  vec1 (.shli d a i g) d.toNat a.toNat (fun x => shlOf x (shiftBy i)) s

/-- SHRI (25 R375). -/
def execShri (d a : BitVec 7) (i : BitVec 5) (g : BitVec 4) (s : State) : Out State :=
  vec1 (.shri d a i g) d.toNat a.toNat (fun x => shrOf x (shiftBy i)) s

/-- SARI (25 R375). -/
def execSari (d a : BitVec 7) (i : BitVec 5) (g : BitVec 4) (s : State) : Out State :=
  vec1 (.sari d a i g) d.toNat a.toNat (fun x => sarOf x (shiftBy i)) s

/-- MOVI, unguarded (24 R355). -/
def execMovi (d : BitVec 7) (i : BitVec 18) (s : State) : Out State :=
  regOp (.movi d i) s (fun part r => r.vsetBy part d.toNat (fun _ => i.signExtend 32))

/-- MOVHI, unguarded: bits [31:18] replaced (24 R355). -/
def execMovhi (d : BitVec 7) (i : BitVec 14) (s : State) : Out State :=
  vec1 (.movhi d i) d.toNat d.toNat (fun x => i ++ x.setWidth 18) s

/-! ## Compares -/

/-- CMP (23 R330). -/
def execCmp (p : BitVec 3) (a b : BitVec 7) (c g : BitVec 4) (s : State) : Out State :=
  regOp (.cmp p a b c g) s (fun part r =>
    r.pset p.toNat part (maskOf (fun l => cmpCond c.toNat (r.vget a.toNat l) (r.vget b.toNat l))))

/-- FCMP (23 R341). -/
def execFcmp (p : BitVec 3) (a b : BitVec 7) (c g : BitVec 4) (s : State) : Out State :=
  regOp (.fcmp p a b c g) s (fun part r =>
    r.pset p.toNat part (maskOf (fun l => fcmpCond c.toNat (r.vget a.toNat l) (r.vget b.toNat l))))

/-! ## One-operand forms of class 0x3C -/

/-- MOV (24 R352). -/
def execMov (d a : BitVec 7) (g : BitVec 4) (s : State) : Out State :=
  vec1 (.mov d a g) d.toNat a.toNat (fun x => x) s

/-- NOT (24 R352). -/
def execNot (d a : BitVec 7) (g : BitVec 4) (s : State) : Out State :=
  vec1 (.not d a g) d.toNat a.toNat (fun x => ~~~x) s

/-- ABS (22 R307). -/
def execAbs (d a : BitVec 7) (g : BitVec 4) (s : State) : Out State :=
  vec1 (.abs d a g) d.toNat a.toNat (absOf) s

/-- POPC (24 R352). -/
def execPopc (d a : BitVec 7) (g : BitVec 4) (s : State) : Out State :=
  vec1 (.popc d a g) d.toNat a.toNat (popcOf) s

/-- CLZ (23 R329). -/
def execClz (d a : BitVec 7) (g : BitVec 4) (s : State) : Out State :=
  vec1 (.clz d a g) d.toNat a.toNat (clzOf) s

/-- BREV (22 R307). -/
def execBrev (d a : BitVec 7) (g : BitVec 4) (s : State) : Out State :=
  vec1 (.brev d a g) d.toNat a.toNat (brevOf) s

/-- MOVS: the scalar is read once (24 R356). -/
def execMovs (d : BitVec 7) (a : BitVec 6) (g : BitVec 4) (s : State) : Out State :=
  regOp (.movs d a g) s (fun part r => r.vsetBy part d.toNat (fun _ => (r.sget a.toNat).setWidth 32))

/-- MOVS.HI (24 R356). -/
def execMovsHi (d : BitVec 7) (a : BitVec 6) (g : BitVec 4) (s : State) : Out State :=
  regOp (.movsHi d a g) s (fun part r => r.vsetBy part d.toNat (fun _ => (r.sget a.toNat >>> 32).setWidth 32))

/-- RDLANE: the lowest participating lane's register, split-phase (25 R363). -/
def execRdlane (d a : BitVec 7) (g : BitVec 4) (s : State) : Out State :=
  issue (.rdlane d a g) s (fun c s1 =>
    let x := c.g.vget a.toNat (lowLane c.part)
    c.pendV s1 .ready c.part [d.toNat] ((lanesOf c.part).map (fun l => (d.toNat, l, x))) [])

/-! ## Votes, masks and folds over the participating lanes -/

/-- VSOME (25 R385). -/
def execVsome (d a : BitVec 3) (g : BitVec 4) (s : State) : Out State :=
  regOp (.vsome d a g) s (fun part r =>
    r.pset d.toNat part (if r.pmask a.toNat &&& part = 0 then 0 else BitVec.allOnes 32))

/-- VEVERY (25 R385). -/
def execVevery (d a : BitVec 3) (g : BitVec 4) (s : State) : Out State :=
  regOp (.vevery d a g) s (fun part r =>
    r.pset d.toNat part (if r.pmask a.toNat &&& part = part then BitVec.allOnes 32 else 0))

/-- BADGE (22 R313). -/
def execBadge (d : BitVec 6) (a : BitVec 3) (g : BitVec 4) (s : State) : Out State :=
  scalarOp (.badge d a g) d.toNat s (fun part r => (r.pmask a.toNat &&& part).setWidth 64)

/-- MATES (24 R353). -/
def execMates (d a : BitVec 7) (g : BitVec 4) (s : State) : Out State :=
  regOp (.mates d a g) s (fun part r => r.vsetBy part d.toNat (fun l =>
    maskOf (fun k => part.getLsbD k && r.vget a.toNat k == r.vget a.toNat l)))

/-- The values that REFOLD folds, in ascending lane order (25 R367). -/
def foldVals (part : Mask) (r : Group) (a : Nat) : List W32 := (lanesOf part).map (r.vget a)
/-- The first value folded with the others. -/
def foldWith (f : W32 → W32 → W32) (l : List W32) : W32 := l.tail.foldl f (l.headD 0)

/-- REFOLD.ADD: the exact sum (25 R367). -/
def execRefoldAdd (d : BitVec 6) (a : BitVec 7) (g : BitVec 4) (s : State) : Out State :=
  scalarOp (.refoldAdd d a g) d.toNat s (fun part r =>
    (foldVals part r a.toNat).foldl (fun x y => x + y.signExtend 64) 0)

/-- REFOLD.MIN (25 R367). -/
def execRefoldMin (d : BitVec 6) (a : BitVec 7) (g : BitVec 4) (s : State) : Out State :=
  scalarOp (.refoldMin d a g) d.toNat s (fun part r => (foldWith minOf (foldVals part r a.toNat)).signExtend 64)

/-- REFOLD.MAX (25 R367). -/
def execRefoldMax (d : BitVec 6) (a : BitVec 7) (g : BitVec 4) (s : State) : Out State :=
  scalarOp (.refoldMax d a g) d.toNat s (fun part r => (foldWith maxS (foldVals part r a.toNat)).signExtend 64)

/-- REFOLD.MINU (25 R367). -/
def execRefoldMinu (d : BitVec 6) (a : BitVec 7) (g : BitVec 4) (s : State) : Out State :=
  scalarOp (.refoldMinu d a g) d.toNat s (fun part r => (foldWith (fun x y => if y.ult x then y else x) (foldVals part r a.toNat)).setWidth 64)

/-- REFOLD.MAXU (25 R367). -/
def execRefoldMaxu (d : BitVec 6) (a : BitVec 7) (g : BitVec 4) (s : State) : Out State :=
  scalarOp (.refoldMaxu d a g) d.toNat s (fun part r => (foldWith (fun x y => if x.ult y then y else x) (foldVals part r a.toNat)).setWidth 64)

/-- REFOLD.FADD: FP32 in ascending lane order (25 R367). Over one lane no addition is made, and the bits pass as they are: where 03 R47 would
have a NaN of an arithmetic operation canonical, the model follows the steps of R367 (DESIGN CHOICE, log 106). -/
def execRefoldFadd (d : BitVec 6) (a : BitVec 7) (g : BitVec 4) (s : State) : Out State :=
  scalarOp (.refoldFadd d a g) d.toNat s (fun part r =>
    (foldWith (fadd32 r.rm) (foldVals part r a.toNat)).setWidth 64)

/-! ## Predicates -/

/-- PPACK (24 R360). -/
def execPpack (d : BitVec 7) (g : BitVec 4) (s : State) : Out State :=
  regOp (.ppack d g) s (fun part r => r.vsetBy part d.toNat (fun l =>
    BitVec.ofNat 32 ((List.range 8).foldl (fun n i => n + (if r.pget i l then 2 ^ i else 0)) 0)))

/-- PUNPACK (24 R360). -/
def execPunpack (a : BitVec 7) (g : BitVec 4) (s : State) : Out State :=
  regOp (.punpack a g) s (fun part r => ((List.range 7).map (· + 1)).foldl (fun r1 i =>
    r1.pset i part (maskOf (fun l => (r.vget a.toNat l).getLsbD i))) r)

/-- PAND (24 R359). -/
def execPand (d a : BitVec 3) (g : BitVec 4) (s : State) : Out State :=
  regOp (.pand d a g) s (fun part r => r.pset d.toNat part (r.pmask d.toNat &&& r.pmask a.toNat))

/-- POR (24 R359). -/
def execPor (d a : BitVec 3) (g : BitVec 4) (s : State) : Out State :=
  regOp (.por d a g) s (fun part r => r.pset d.toNat part (r.pmask d.toNat ||| r.pmask a.toNat))

/-- PXOR (24 R359). -/
def execPxor (d a : BitVec 3) (g : BitVec 4) (s : State) : Out State :=
  regOp (.pxor d a g) s (fun part r => r.pset d.toNat part (r.pmask d.toNat ^^^ r.pmask a.toNat))

/-- PNOT (24 R359). -/
def execPnot (d a : BitVec 3) (g : BitVec 4) (s : State) : Out State :=
  regOp (.pnot d a g) s (fun part r => r.pset d.toNat part (~~~(r.pmask a.toNat)))

/-! ## Windows (05 R89, R90) -/

/-- A cast to an offset: all ones unless the address lies in the window (05 R90). -/
def castTo (top hi lo tag n a : Nat) : W32 :=
  BitVec.ofNat 32 (if bits a 63 56 = top ∧ bits a 55 hi = 0 ∧ (lo = 0 ∨ bits a 31 24 = tag) then a % 2 ^ n else 0xFFFFFFFF)
/-- A cast from an offset (05 R90). -/
def castFrom (top : Nat) (x : Nat) : W64 := BitVec.ofNat 64 (top * 2 ^ 56 + x)

/-- SPTEST: which window (05 R90). -/
def execSptest (d : BitVec 3) (a : BitVec 7) (w : BitVec 2) (g : BitVec 4) (s : State) : Out State :=
  regOp (.sptest d a w g) s (fun part r => r.pset d.toNat part (maskOf (fun l =>
    match windowOf (r.wget a.toNat l).toNat with
    | .prv => w == 0
    | .scr => w == 1
    | .clu => w == 2
    | .glb => w == 3)))

/-- SPCAST.TOPRV (05 R90). -/
def execSpcastToprv (d a : BitVec 7) (g : BitVec 4) (s : State) : Out State :=
  regOp (.spcastToprv d a g) s (fun part r => r.vsetBy part d.toNat (fun l =>
    castTo 0xFC 24 0 0 24 (r.wget a.toNat l).toNat))

/-- SPCAST.TOCLU (05 R90). -/
def execSpcastToclu (d a : BitVec 7) (g : BitVec 4) (s : State) : Out State :=
  regOp (.spcastToclu d a g) s (fun part r => r.vsetBy part d.toNat (fun l =>
    castTo 0xFD 26 0 0 26 (r.wget a.toNat l).toNat))

/-- SPCAST.TOSCR (05 R90). -/
def execSpcastToscr (d a : BitVec 7) (g : BitVec 4) (s : State) : Out State :=
  regOp (.spcastToscr d a g) s (fun part r => r.vsetBy part d.toNat (fun l =>
    castTo 0xFE 32 1 r.core 24 (r.wget a.toNat l).toNat))

/-- SPCAST.PRVGEN (05 R90). -/
def execSpcastPrvgen (d a : BitVec 7) (g : BitVec 4) (s : State) : Out State :=
  regOp (.spcastPrvgen d a g) s (fun part r => r.wsetBy part d.toNat (fun l =>
    let x := (r.vget a.toNat l).toNat
    castFrom 0xFC x))

/-- SPCAST.CLUGEN (05 R90). -/
def execSpcastClugen (d a : BitVec 7) (g : BitVec 4) (s : State) : Out State :=
  regOp (.spcastClugen d a g) s (fun part r => r.wsetBy part d.toNat (fun l =>
    let x := (r.vget a.toNat l).toNat
    castFrom 0xFD x))

/-- SPCAST.SCRGEN (05 R90). -/
def execSpcastScrgen (d a : BitVec 7) (g : BitVec 4) (s : State) : Out State :=
  regOp (.spcastScrgen d a g) s (fun part r => r.wsetBy part d.toNat (fun l =>
    let x := (r.vget a.toNat l).toNat
    castFrom 0xFE (bits x 31 24 * 2 ^ 32 + r.core * 2 ^ 24 + x % 2 ^ 24)))

end Sys2Proof.Machine
end

