-- ==== Sys2Proof/Machine/FloatOps.lean ====
section
/-! DEFINITION. Floating-point, packed and residue operations of a lane (03 R54 to R62; 23 R332, R335 to R340; 24 R342, R343). -/
namespace Sys2Proof.Machine

/-! ## The 16-bit forms (15 R266) -/

/-- FADD in 16 bits (15 R266). -/
def execFadd16 (d : BitVec 6) (b : BitVec 5) (s : State) : Out State :=
  vecF (.fadd16 d b) d.toNat d.toNat b.toNat (fun m x y _ => fadd32 m x y) s

/-- FSUB in 16 bits (15 R266). -/
def execFsub16 (d : BitVec 6) (b : BitVec 5) (s : State) : Out State :=
  vecF (.fsub16 d b) d.toNat d.toNat b.toNat (fun m x y _ => fsub32 m x y) s

/-- FMUL in 16 bits (15 R266). -/
def execFmul16 (d : BitVec 6) (b : BitVec 5) (s : State) : Out State :=
  vecF (.fmul16 d b) d.toNat d.toNat b.toNat (fun m x y _ => fmul32 m x y) s

/-- FMIN in 16 bits (15 R266). -/
def execFmin16 (d : BitVec 6) (b : BitVec 5) (s : State) : Out State :=
  vecF (.fmin16 d b) d.toNat d.toNat b.toNat (fun _ x y _ => fmin x y) s

/-- FMAX in 16 bits (15 R266). -/
def execFmax16 (d : BitVec 6) (b : BitVec 5) (s : State) : Out State :=
  vecF (.fmax16 d b) d.toNat d.toNat b.toNat (fun _ x y _ => fmax x y) s

/-! ## Two operands (23 R338 to R340) -/

/-- FADD (23 R339). -/
def execFadd (d a b : BitVec 7) (g : BitVec 4) (s : State) : Out State :=
  vecF (.fadd d a b g) d.toNat a.toNat b.toNat (fun m x y _ => fadd32 m x y) s

/-- FSUB (23 R339). -/
def execFsub (d a b : BitVec 7) (g : BitVec 4) (s : State) : Out State :=
  vecF (.fsub d a b g) d.toNat a.toNat b.toNat (fun m x y _ => fsub32 m x y) s

/-- FMUL (23 R339). -/
def execFmul (d a b : BitVec 7) (g : BitVec 4) (s : State) : Out State :=
  vecF (.fmul d a b g) d.toNat a.toNat b.toNat (fun m x y _ => fmul32 m x y) s

/-- FFMA: one rounding (23 R339). -/
def execFfma (d a b : BitVec 7) (g : BitVec 4) (s : State) : Out State :=
  vecF (.ffma d a b g) d.toNat a.toNat b.toNat (fun m x y z => ffma32 m x y z) s

/-- FMIN (03 R48). -/
def execFmin (d a b : BitVec 7) (g : BitVec 4) (s : State) : Out State :=
  vecF (.fmin d a b g) d.toNat a.toNat b.toNat (fun _ x y _ => fmin x y) s

/-- FMAX (03 R48). -/
def execFmax (d a b : BitVec 7) (g : BitVec 4) (s : State) : Out State :=
  vecF (.fmax d a b g) d.toNat a.toNat b.toNat (fun _ x y _ => fmax x y) s

/-- FDIV (23 R340). -/
def execFdiv (d a b : BitVec 7) (g : BitVec 4) (s : State) : Out State :=
  vecF (.fdiv d a b g) d.toNat a.toNat b.toNat (fun m x y _ => fdiv32 m x y) s

/-- CVTS: a / b rounded once to the narrow format (03 R57, 23 R332). -/
def execCvts (d a b : BitVec 7) (g : BitVec 4) (s : State) : Out State :=
  regOp (.cvts d a b g) s (fun part r => r.vsetBy part d.toNat (fun l =>
    BitVec.ofNat 32 (fdiv r.narrow r.rm (f32 (r.vget a.toNat l)) (f32 (r.vget b.toNat l)))))

/-! ## Packed FP16 (24 R342, R343) -/

/-- HADD2 (24 R343). -/
def execHadd2 (d a b : BitVec 7) (g : BitVec 4) (s : State) : Out State :=
  vecF (.hadd2 d a b g) d.toNat a.toNat b.toNat (fun m x y z => packed (fun x y _ => fadd .f16 m x y) x y z) s

/-- HMUL2 (24 R343). -/
def execHmul2 (d a b : BitVec 7) (g : BitVec 4) (s : State) : Out State :=
  vecF (.hmul2 d a b g) d.toNat a.toNat b.toNat (fun m x y z => packed (fun x y _ => fmul .f16 m x y) x y z) s

/-- HFMA2 (24 R343). -/
def execHfma2 (d a b : BitVec 7) (g : BitVec 4) (s : State) : Out State :=
  vecF (.hfma2 d a b g) d.toNat a.toNat b.toNat (fun m x y z => packed (fun x y z => ffma .f16 m x y z) x y z) s

/-! ## One operand (23 R335 to R337) -/

/-- FABS (23 R335). -/
def execFabs (d a : BitVec 7) (g : BitVec 4) (s : State) : Out State :=
  vec1 (.fabs d a g) d.toNat a.toNat (fun x => x &&& 0x7FFFFFFF) s

/-- FNEG (23 R335). -/
def execFneg (d a : BitVec 7) (g : BitVec 4) (s : State) : Out State :=
  vec1 (.fneg d a g) d.toNat a.toNat (fun x => x ^^^ 0x80000000) s

/-- FRSQ (23 R337). -/
def execFrsq (d a : BitVec 7) (g : BitVec 4) (s : State) : Out State :=
  vec1 (.frsq d a g) d.toNat a.toNat (frsq32) s

/-- FEXP2 (23 R337). -/
def execFexp2 (d a : BitVec 7) (g : BitVec 4) (s : State) : Out State :=
  vec1 (.fexp2 d a g) d.toNat a.toNat (Sys2Proof.Machine.fexp2) s

/-- FLOG2 (23 R337). -/
def execFlog2 (d a : BitVec 7) (g : BitVec 4) (s : State) : Out State :=
  vec1 (.flog2 d a g) d.toNat a.toNat (Sys2Proof.Machine.flog2) s

/-- FSIN (23 R337). -/
def execFsin (d a : BitVec 7) (g : BitVec 4) (s : State) : Out State :=
  vec1 (.fsin d a g) d.toNat a.toNat (Sys2Proof.Machine.fsin) s

/-- FCOS (23 R337). -/
def execFcos (d a : BitVec 7) (g : BitVec 4) (s : State) : Out State :=
  vec1 (.fcos d a g) d.toNat a.toNat (Sys2Proof.Machine.fcos) s

/-- FRND.RNE (23 R337). -/
def execFrndRne (d a : BitVec 7) (g : BitVec 4) (s : State) : Out State :=
  vec1 (.frndRne d a g) d.toNat a.toNat (frnd .rne) s

/-- FRND.RTZ (23 R337). -/
def execFrndRtz (d a : BitVec 7) (g : BitVec 4) (s : State) : Out State :=
  vec1 (.frndRtz d a g) d.toNat a.toNat (frnd .rtz) s

/-- FRND.RUP (23 R337). -/
def execFrndRup (d a : BitVec 7) (g : BitVec 4) (s : State) : Out State :=
  vec1 (.frndRup d a g) d.toNat a.toNat (frnd .rup) s

/-- FRND.RDN (23 R337). -/
def execFrndRdn (d a : BitVec 7) (g : BitVec 4) (s : State) : Out State :=
  vec1 (.frndRdn d a g) d.toNat a.toNat (frnd .rdn) s

/-- FRCP, in FPMODE.RM (23 R337). -/
def execFrcp (d a : BitVec 7) (g : BitVec 4) (s : State) : Out State :=
  vecF (.frcp d a g) d.toNat a.toNat a.toNat (fun m x _ _ => frcp32 m x) s

/-- FSQRT, in FPMODE.RM (23 R337). -/
def execFsqrt (d a : BitVec 7) (g : BitVec 4) (s : State) : Out State :=
  vecF (.fsqrt d a g) d.toNat a.toNat a.toNat (fun m x _ _ => fsqrt32 m x) s

/-! ## Conversions and residues -/

/-- CVT, sixteen forms (03 R56). -/
def execCvt (d a : BitVec 7) (c g : BitVec 4) (s : State) : Out State :=
  vec1 (.cvt d a c g) d.toNat a.toNat (cvt c.toNat) s

/-- RZCVT (03 R62). -/
def execRzcvt (d a : BitVec 7) (g : BitVec 4) (s : State) : Out State :=
  regOp (.rzcvt d a g) s (fun part r => r.vsetBy part d.toNat (fun l => rzCvt (r.wget a.toNat l)))

/-- RZADD (03 R61). -/
def execRzadd (d a : BitVec 7) (g : BitVec 4) (s : State) : Out State :=
  regOp (.rzadd d a g) s (fun part r => r.wsetBy part d.toNat (fun l => rzAdd (r.wget d.toNat l) (r.wget a.toNat l)))

end Sys2Proof.Machine
end

