-- ==== Sys2Proof/Machine/Preempt.lean ====
section
/-! DEFINITION. Pre-emption: of a grid, group by group at its sites, and of a partition by a swap of contexts (02 R43, R44;
10 R201; 12 R224 to R230). -/
namespace Sys2Proof.Machine

/-! ## Save areas (12 R224, 13 R238) -/

/-- The save areas in use in a context: address and size. -/
def State.saveAreas (s : State) (part ctx : Nat) : List (Nat × Nat) :=
  s.groups.filterMap (fun e => if (s.gridOf e.2).part = part ∧ (s.gridOf e.2).ctx = ctx then
    e.2.saveArea.map (fun a => (a, (s.gridOf e.2).h.saveBytes)) else none)

/-- The save pool of a grid's context. -/
def State.savePool (s : State) (g : Grid) : Pool :=
  ((s.disp.ctxs.get? (g.part * 2 + g.ctx)).map (·.save)).getD { base := 0, size := 0, used := 0 }

/-- The lowest place in a pool for `n` bytes that meets no region in use. -/
def Pool.place (p : Pool) (n : Nat) (used : List (Nat × Nat)) : Option Nat :=
  let fits (b : Nat) : Bool := decide (b + n ≤ p.base + p.size) && !used.any (fun a => regionsMeet (b, n) a)
  leastBy (fun b => b) ((p.base :: used.map (fun a => a.1 + a.2)).filter fits)

/-- A pool has places for regions of some sizes beside those in use. -/
def Pool.holds (p : Pool) : List Nat → List (Nat × Nat) → Bool
  | [], _ => true
  | n :: t, used => match p.place n used with
    | some b => Pool.holds p t (used ++ [(b, n)])
    | none => false

/-- A free save area of a grid's size. -/
def State.freeArea (s : State) (g : Grid) : Option Nat := (s.savePool g).place g.h.saveBytes (s.saveAreas g.part g.ctx)

/-- A group that a pre-emption will have to take, and that has no save area yet. -/
def Group.needsArea (g : Group) : Bool :=
  g.saveArea.isNone && (match g.place with | .resident | .framed => true | _ => false)

/-- The save pool can hold an area for every resident group of a grid, beside those in use and those that groups of the context's other grids
under a pending request will need. -/
def State.saveRoom (s : State) (id : Nat) (g : Grid) : Bool :=
  let wants (e : Nat × Group) : Bool :=
    let o := s.gridOf e.2
    e.2.needsArea && (e.2.grid == id || (o.pre == .pending && o.part == g.part && o.ctx == g.ctx))
  (s.savePool g).holds ((s.groups.filter wants).map (fun e => (s.gridOf e.2).h.saveBytes)) (s.saveAreas g.part g.ctx)

/-! ## Requests (12 R224, R226, R227) -/

/-- PREEMPT: the request is pending for every group of the grid, also of one that is being resumed; refused when the save pool is short. -/
def execPreempt (s : State) : Out State :=
  request 5 s (fun x s1 =>
    let id := x.getD 0 0
    match s1.grids.get? id with
    | none => refused s1
    | some g =>
      if g.state = .done ∨ !s1.saveRoom id g then refused s1
      else done ((s1.setGrid id { g with pre := .pending }).settlePreempt id))

/-- Parked rays of a grid rejoin their queues in the order in which they parked; one with a call-out goes on waiting for its
verdict, and one that has ended meanwhile stays so (10 R201). -/
def State.rejoin (s : State) (which : Ray → Bool) : State :=
  let slots := s.spire.parked.filter (fun k => (s.spire.rays.get? k).any which)
  slots.foldl (fun t k => match t.spire.rays.get? k with
    | some r =>
      let r1 := { r with budget := none }
      if r.st != .parked then t
      else if r.cand.isSome then t.setRay k { r1 with st := .callout } else t.joinQueue k r1
    | none => t) { s with spire := { s.spire with parked := s.spire.parked.filter (fun k => !slots.contains k) } }

/-- WITHDRAW: before completion, groups not yet taken go on; those taken stay saved until the grid is resumed (12 R226). -/
def execWithdraw (s : State) : Out State :=
  request 6 s (fun x s1 =>
    let id := x.getD 0 0
    match s1.grids.get? id with
    | none => refused s1
    | some g =>
      if g.pre ≠ .pending then refused s1
      else done (((s1.setGrid id { g with pre := .none }).rejoin (fun r => r.grid == id)).count .preemptWithdrawn g.part 1))

/-- RESUME: saved teams are admitted again, taken groups restart and parked rays rejoin their queues (12 R227). -/
def execResume (s : State) : Out State :=
  request 7 s (fun x s1 =>
    let id := x.getD 0 0
    match s1.grids.get? id with
    | none => refused s1
    | some g =>
      if g.pre = .pending ∨ g.state = .done then refused s1
      else done (((s1.setGrid id { g with pre := .resuming }).rejoin (fun r => r.grid == id)).settleResume id))

/-! ## Taking a group at a site (02 R43, R44; 12 R224, R225) -/

/-- Waits of lanes that stand at a site. -/
def Why.atSite : Why → Bool | .site | .twait .. | .launch => true | _ => false

/-- The site at which every live lane of a group stands: a wait of lanes there. -/
def Group.siteOf (g : Group) : Option Wait :=
  g.waits.find? (fun w => w.why.atSite &&
    (g.waits.foldl (fun m x => if x.pc = w.pc ∧ x.why.atSite then m ||| x.lanes else m) 0) &&& g.live == g.live)

/-- The entry of the safe-point table for a site: save and restore offsets. -/
def State.siteEntry (s : State) (g : Grid) (id pc : Nat) : Option (Nat × Nat) :=
  (List.range g.h.sites).findSome? (fun i =>
    match s.readVa (g.acc id) (add64 g.h.table (16 * i)) 16 16 with
    | .ok w => if bits w 31 0 = pc then some (bits w 63 32, bits w 95 64) else none
    | .error _ => none)

/-- A SAFEPT. -/
def isSafept : Instr → Bool | .safept _ => true | _ => false

/-- GROUP_TAKEN_AT_SITE: a group whose live lanes all stand at one site enters its save routine; s63 holds its save area, and nothing is
pending for it any more. A waiter whose adopted task is taken gets its frame back. A SAFEPT that the table does not list ends the group
(25 R374); another such site holds the request pending. -/
def execGroupTakenAtSite (gid : Nat) (s : State) : Out State :=
  match s.groups.get? gid with
  | none => .next s
  | some g =>
    let gr := s.gridOf g
    if gr.pre ≠ .pending ∨ !s.active gr ∨ g.place ≠ .resident ∨ g.halted ∨ g.live = 0 then .next s else
    match g.siteOf with
    | none => .next s
    | some w =>
      let s0 := (s.sawAll (gr.acc g.grid) ((List.range gr.h.sites).map (fun i => (add64 gr.h.table (16 * i), 16)))).useFree 1
      match s.siteEntry gr g.grid w.pc, (match g.saveArea with | some a => some a | none => s.freeArea gr) with
      | some (save, restore), some area =>
        let x := { (g.setPc g.live save) with
          waits := []
          pend := g.pend.map (fun (p : Pend) => { p with sreg := p.sreg.filter (· != 63) })
          place := .saving
          saveArea := some area
          savedLive := g.live
          restore := restore
          parent := none }
        .next (((s0.setGroup gid (x.sset 63 (BitVec.ofNat 64 area))).unframe g).count .preemptTaken gr.part 1)
      | none, _ =>
        if isSafept w.i then
          .next (s0.takeFault gid (lowLane g.live) w.pc { code := cIllegal, addr := 0, detail := (encode w.i).getD 0 })
        else .next s
      | _, none => .next s

/-! ## Partition swap (12 R228 to R230) -/

/-- Work of a grid in a context of a partition. -/
def State.inCtx (s : State) (part ctx id : Nat) : Bool :=
  match s.grids.get? id with | some g => g.part == part && g.ctx == ctx | none => false

/-- Every ray of a context has parked, or has ended (10 R201). -/
def State.raysStill (s : State) (part ctx : Nat) : Bool :=
  s.spire.rays.all (fun e => !s.inCtx part ctx e.2.grid || (match e.2.st with | .parked | .ended .. => true | _ => false))

/-- The loads of a context have landed, and its stores and atomics are performed at their homes (12 R228). -/
def State.accessesStill (s : State) (part ctx : Nat) : Bool :=
  s.groups.all (fun e => !s.inCtx part ctx e.2.grid || (e.2.unacked.isEmpty &&
    e.2.pend.all (fun p => match p.src with | .ray _ | .launch | .ticket | .engine _ => true | _ => false)))

/-- SWAP: a partition's two contexts change places. The running one halts first: nothing of it issues, its engines stand still, and its rays
run on to where they park; its loads land, its stores and atomics are performed, and its cores write their lines back. Then its gangs
lose their slots, and the other context's work goes on and its gangs take slots; the work that goes out stays as it stands. -/
def execSwap (s : State) : Out State :=
  request 0xB s (fun x s1 =>
    let part := x.getD 0 0
    if 7 < part then malformed s1
    else if s1.disp.whole then refused s1
    else if !s1.hasPart part then malformed s1
    else
      let old := s1.disp.running.getD part 0
      let began := (s1.disp.halting.get? part).getD s1.env.cycle
      let s2 := { s1 with disp := { s1.disp with halting := s1.disp.halting.set part began } }
      if !s2.raysStill part old ∨ !s2.accessesStill part old then .later s2 else
      let s2 := { s2 with mmu := { s2.mmu with dirty := s2.mmu.dirty.filter (fun q => !(s2.coresOf part).contains q.1) } }
      let s3 := ((s2.eligible part).filter (fun e => e.2.slot.isSome)).foldl (fun s' e => s'.dropSlot false e.1) s2
      let s4 := { s3 with disp := { s3.disp with
        running := s3.disp.running.set part (1 - old)
        halting := s3.disp.halting.erase part } }
      let s5 := s4.rejoin (fun r => s4.inCtx part (1 - old) r.grid &&
        (match s4.grids.get? r.grid with | some g => g.pre == .none || g.pre == .resuming | none => false))
      let s6 := (s5.grids.map (·.1)).foldl (fun s' id => if s4.inCtx part (1 - old) id then s'.settlePreempt id else s') s5
      done (((s6.giveSlots part).count .swapCount part 1).count .swapHaltNs part (nsOf (s1.env.cycle - began))))

end Sys2Proof.Machine
end

