-- ==== Sys2Proof/Machine/Groups.lean ====
section
/-! DEFINITION. When a wait is over; parking and restoring groups; role changes that the scheduler posts (02 R24, R36, R39, R40;
08 R149; 09 R179). -/
namespace Sys2Proof.Machine

/-! ## Waits (02 R24) -/

/-- Every live lane of a group waits at a PC for a reason. -/
def Group.allAt (g : Group) (pc : Nat) (why : Why) : Bool :=
  g.live &&& ~~~(g.waits.foldl (fun m w => if w.pc = pc ∧ w.why = why then m ||| w.lanes else m) (0 : Mask)) == 0

/-- The condition that lanes wait for holds, so that the rest of their instruction can act. Waits that end by an event of their own are
never over by themselves. A wait for earlier stores of the group is one for pins that names no bytes; a ring's COUNT is the one read at issue
(09 R178); while a pre-emption is pending, lanes at a TWAIT or a launch stay there to be taken (02 R44). -/
def State.waitOver (s : State) (gid : Nat) (g : Group) (w : Wait) : Bool :=
  match w.why with
  | .pin segs => !segs.any (fun q => s.pinned q.key q.len) && (!segs.isEmpty || !s.storesBefore gid w.seq)
  | .fence pod => !g.unperformed w.lanes pod
  | .batch 0 => decide ((s.openBatches gid g).length < 16)
  | .batch k => s.batchesDone gid k
  | .words key mask => w.met || s.readMem key 8 &&& mask == mask
  | .room => s.copyRoom g.core
  | .grant => s.hasGrant (dieOfCore g.core) (.copy gid w.pc)
  | .go es => es.any (fun e => !(s.grpRound e).busy)
  | .gather => g.allAt w.pc .gather
  | .landed => g.allAt w.pc .landed && g.pend.isEmpty
  | .conv => s.allGathered g
  | .site => !s.preempting g || (s.gridOf g).killed
  | .given => !g.waits.any (fun x => x.why.isMx && decide (x.seq < w.seq))
  | .engine upTo => s.mxDone g.team upTo
  | .barArr l n p | .barwt l n p => decide (p < (s.getBar l g.grid (s.barOwner g l) n).phase)
  | .remote n => decide ((s.gridOf g).setSize (s.teamOf g).index - 1 ≤ (s.teamOf g).remote.getD n 0)
  | .full t n => ((s.teams.get? t).getD noTeam).remote.getD n 0 != 65535
  | .ring n put =>
    let occ := ((s.teamOf g).ring n).occ
    (if put then decide (occ < w.tried.getD 1 0) else decide (0 < occ)) || g.posted.isSome || s.preempting g
  | .twait key seen owner =>
    (s.gridOf g).killed || !(s.preempting g && g.place == .resident) &&
      (s.readMem key 8 != seen || (match owner with | some (k, c) => s.ownView k 8 != c | none => false))
  | .launch =>
    (s.gridOf g).killed || !(s.preempting g && g.place == .resident) &&
      decide ((s.disp.lq.filter (fun e => e.core == g.core)).length < 4)
  | .repack _ _ => s.repackReady gid g
  | .raySlot stack => (s.freeSlot stack (bits (s.ctlN .spireSpillSlots stack) 31 0)).isSome
  | .barDepart .. | .mwait _ | .btake | .mxAccept _ => false

/-- The values of a word that a monitor has tested since waits were last marked: those that the atomics of one instruction left one after
the other, and what it holds. -/
def State.seenAt (s : State) (k : Nat) : List Nat := (s.msys.wrote.filter (fun q => q.1 == k)).map (·.2) ++ [s.readMem k 8]

/-- The word on which a wait waits. -/
def Wait.word (w : Wait) (g : Group) : Option Nat :=
  match w.why with
  | .words key _ => some key
  | .mwait _ => g.monitor.map (·.2.1)
  | _ => none

/-- The condition of a wait on a word in memory has held. -/
def State.meets (s : State) (g : Group) (w : Wait) : Bool :=
  match w.why with
  | .words key mask => (s.seenAt key).any (fun x => x &&& mask == mask)
  | .mwait m => (match g.monitor with
    | none => true
    | some (_, k, armed) => (s.seenAt k).any (wordMeets armed.toNat m))
  | _ => false

/-- The state with waits on words marked whose condition has held after some write: a write that comes later does not undo it (07 R141).
The tests read the words (07 R133). -/
def State.noteMet (s : State) : State :=
  let words := (s.groups.map (fun e => e.2.waits.filterMap (fun w => w.word e.2))).flatten
  let s1 := words.foldl (fun t k => t.combine k 8) s
  let s2 : State := if s.msys.wrote.isEmpty then s1 else { s1 with msys := { s1.msys with wrote := [] } }
  if s.groups.any (fun e => e.2.waits.any (fun w => !w.met && s.meets e.2 w)) then
    { s2 with groups := s2.groups.map (fun e => (e.1, { e.2 with
      waits := e.2.waits.map (fun w => if s.meets e.2 w then { w with met := true } else w) })) }
  else s2

/-- What a step begins with: writes of the T9 whose lines are free are made, and waits that what came before has met are marked. -/
def State.settled (s : State) : State := (if s.msys.late.isEmpty then s else s.drainLate).noteMet

/-! ## Parking (02 R39, 08 R149) -/

/-- Waits in which a group may be parked. -/
def Why.parks : Why → Bool | .twait .. | .launch | .mwait _ | .barwt .. | .remote _ => true | _ => false

/-- Every live lane of a resident group is blocked where it may be parked; a call-out group never parks (24 R354). -/
def Group.blocked (g : Group) : Bool :=
  g.place == .resident && g.kind != .callout && !g.halted && g.live != 0 &&
  g.live &&& ~~~(g.waits.foldl (fun m w => if w.why.parks then m ||| w.lanes else m) (0 : Mask)) == 0

/-- A team waits for slots or registers of a core: one that has taken a ticket or a place (its own claim is not counted against it), one
whose ticket no die has dealt yet, or a saved one. -/
def State.teamWaits (s : State) (core : Nat) : Bool :=
  s.disp.admits.any (fun q => q.1 / 4 == core &&
    (match s.grids.get? q.2.1 with
      | some g =>
        s.active g && !({ s with disp := { s.disp with admits := s.disp.admits.erase q } } : State).slotsFit g core (q.1 % 4)
      | none => false)) ||
  s.grids.any (fun e => (s.coresOf e.2.part).contains core && !(List.range 4).any (s.slotsFit e.2 core) &&
    ((s.dispatches e.2 && !e.2.r.coRes && e.2.tickets.any (fun c => remaining c != 0)) ||
     (e.2.pre == .resuming && s.active e.2 && s.teams.any (fun t => t.2.grid == e.1 && t.2.saved))))

/-- A group is parked: its slot is free. A task's STATE becomes 3, and a waiter whose slot it ran in gets its frame back
(09 R168, R176). -/
def State.park (s : State) (gid : Nat) (g : Group) : State :=
  let s1 := s.setGroup gid { g with
    place := .parked
    parent := none
    parkT := s.env.cycle }
  let s2 := if g.kind = .task then (s1.markTask (s.gridOf g) g.task 3 0).unframe g else s1
  s2.settlePreempt g.grid

/-- GROUP_PARK: the scheduler parks a blocked group when another team waits for its slot or registers (02 R39). -/
def execGroupPark (gid : Nat) (s : State) : Out State :=
  match s.groups.get? gid with
  | none => .next s
  | some g =>
    if g.blocked && s.active (s.gridOf g) && s.parkRoom g && s.teamWaits g.core then .next (s.park gid g) else .next s

/-- PARK_AFTER_LAUNCH_WAIT: a group that has waited 2 us for a pending-launch entry is parked (02 R39, 08 R149). -/
def execParkAfterLaunchWait (gid : Nat) (s : State) : Out State :=
  match s.groups.get? gid with
  | none => .next s
  | some g =>
    if g.blocked && s.active (s.gridOf g) && s.parkRoom g &&
        g.waits.any (fun w => w.why == .launch && decide (usCycles 2 ≤ s.env.cycle - w.since))
    then .next (s.park gid g) else .next s

/-- The condition a parked group waited for holds: of a wait that is over, or of an MWAIT. -/
def State.awake (s : State) (gid : Nat) (g : Group) : Bool :=
  g.waits.any (fun w => s.waitOver gid g w || (match w.why with | .mwait m => w.met || s.monitorMet g m | _ => false))

/-- GROUP_RESTORE: a parked group whose condition holds and whose pending results have landed takes a free slot of its core; none is
restored under a pending pre-emption (02 R40, 12 R224). A group that was taken while its team stayed restarts here when its grid
is resumed (02 R44, 12 R227). -/
def execGroupRestore (gid : Nat) (s : State) : Out State :=
  match s.groups.get? gid with
  | none => .next s
  | some g =>
    let gr := s.gridOf g
    if !s.active gr then .next s else
    match ({ s with groups := s.groups.erase gid } : State).fitQuarter g.core (s.unitRegs g) with
    | none => .next s
    | some q =>
      match g.place with
      | .parked =>
        if gr.pre = .pending ∨ gr.pre = .complete ∨ !s.awake gid g ∨ !g.pend.isEmpty then .next s else
        let s1 := s.setGroup gid { g with
          place := .resident
          quarter := q
          depth := 0
          lastIssue := s.env.cycle }
        .next (if g.kind = .task then s1.markTask gr g.task 2 0 else s1)
      | .taken =>
        if gr.pre ≠ .resuming ∨ g.kind ≠ .team ∨ (s.teamOf g).saved then .next s
        else .next ((s.restart gid g g.core q).settleResume g.grid)
      | _ => .next s

/-! ## Posted role changes (02 R36, 09 R179) -/

/-- The change that a team's window calls for: the role whose groups are surplus or starve, and the role posted. -/
def State.roleWanted (s : State) (team : Nat) (t : Team) : Option (Role × Role) :=
  let gr := s.teamGrid t
  let w := gr.r.ring
  let window := 64 * bits w 39 24
  let n := bits w 2 0
  let gs := s.members team
  let enough (r : Role) (put : Bool) : Bool :=
    decide (2 ≤ (gs.filter (fun e => e.2.role == r && e.2.live != 0)).length) &&
    gs.any (fun e => e.2.role == r && e.2.waits.any (fun x => x.why == .ring n put))
  let held (since : Option Nat) : Bool := since.any (fun c => decide (c + window ≤ s.env.cycle))
  if window = 0 ∨ !gr.h.roles ∨ gs.any (fun e => e.2.posted.isSome) then none
  else if held t.lowSince && enough .compute false then some (.compute, .loader)
  else if held t.highSince && enough .loader true then some (.loader, .compute)
  else none

/-- ROLE_POST: the scheduler posts a role change to the group of the role that has waited longest (09 R179). -/
def execRolePost (team gid : Nat) (s : State) : Out State :=
  match s.teams.get? team with
  | none => .next s
  | some t =>
    match s.roleWanted team t with
    | none => .next s
    | some (old, new) =>
      let gs := (s.members team).filter (fun e => e.2.role == old && e.2.live != 0)
      let least := (gs.map (·.2.lastIssue)).foldl min ((gs.headD (0, newGroup .team 0 noGrid 0 0 0 0 .compute 0 0 0 0)).2.lastIssue)
      match gs.find? (fun e => e.1 == gid && e.2.lastIssue == least) with
      | none => .next s
      | some (_, g) => .next ((s.setGroup gid { g with posted := some new }).count .ringRolePosts (dieOfCore g.core) 1)

end Sys2Proof.Machine
end

