-- ==== Sys2Proof/Machine/Lantern.lean ====
section
/-! DEFINITION. Lantern: texture fetch and hash-grid features (11 R203 to R208, R215; 24 R344). -/
namespace Sys2Proof.Machine

/-! ## Exact dyadic arithmetic -/

/-- Product of dyadic numbers. -/
def dyMul (a b : Int × Int) : Int × Int := (a.1 * b.1, a.2 + b.2)
/-- Floor of a dyadic number. -/
def dyFloor (a : Int × Int) : Int := if 0 ≤ a.2 then a.1 * 2 ^ a.2.toNat else a.1 / 2 ^ (-a.2).toNat
/-- Difference. -/
def dySub (a b : Int × Int) : Int × Int := dyAdd a (-b.1, b.2)
/-- A dyadic number rounded RNE to FP32. -/
def dyRound (a : Int × Int) : W32 := BitVec.ofNat 32 (roundDy .f32 .rne false a.1 a.2)
/-- A finite FP32 word as a dyadic number; 0 otherwise. -/
def dyOf (w : W32) : Int × Int := match f32 w with | .fin s m e => (sgn s m, e) | _ => (0, 0)
/-- A dyadic number held between two integers. -/
def dyClamp (lo hi : Int) (a : Int × Int) : Int × Int :=
  if (dySub a (lo, 0)).1 < 0 then (lo, 0) else if 0 < (dySub a (hi, 0)).1 then (hi, 0) else a

/-- One term of an exact sum: a weight times a value (11 R206). -/
def term (w : Int × Int) : FVal → FVal
  | .nan => .nan
  | .inf s => if w.1 = 0 then .nan else .inf (s != decide (w.1 < 0))
  | .fin s m e => .fin (s != decide (w.1 < 0)) (m * w.1.natAbs) (e + w.2)

/-- A NaN among terms, or infinities of both signs, or infinity times 0. -/
def termsNan (l : List FVal) : Bool :=
  l.any (fun x => x == .nan) || (l.any (fun x => x == .inf true) && l.any (fun x => x == .inf false))

/-- The exact sum of terms divided by a number, rounded once to FP32 (11 R206). -/
def termSum (l : List FVal) (den : Nat) : W32 :=
  if termsNan l then 0x7FC00000
  else if l.any (fun x => x == .inf false) then 0x7F800000
  else if l.any (fun x => x == .inf true) then 0xFF800000
  else
    let z := l.foldl (fun a x => match x with | .fin s m e => dyAdd a (sgn s m, e) | _ => a) ((0, 0) : Int × Int)
    if z.1 = 0 then 0
    else BitVec.ofNat 32 (roundRatio .f32 .rne (decide (z.1 < 0)) (dyNum z.1.natAbs z.2) (dyDen z.2 * den))

/-! ## Reads made for a lane (11 R204) -/

/-- Who reads for a group at an address: a Lantern unit of the stack that the page table names, through that base die's TLB; the stack of the
group's core where it names none. Which of the stack's 16 units is open (05 R97, 06 R108, 11 R204; log 30). -/
def State.lanternAcc (s : State) (g : Group) (a : Nat) : Acc :=
  let by' := s.accOf g
  let stack := match s.walk by'.part by'.root a with
    | .ok l => if isRemote l.pte then sliceOfCore g.core else s.servedBy (l.pa a)
    | .error _ => sliceOfCore g.core
  { by' with
    place := 192 + stack
    req := 320 + 16 * stack + Config.freeChoice (2 ^ 65 + a) % 16 }

/-- One read: its address, its pieces, the bytes as a number, and the fault that its data brings: poison, named by its first byte, or a home
that cannot be reached (24 R348). -/
structure Tap where
  addr : Nat
  ps : List (Loc × Nat)
  value : Nat
  bad : Option FaultInfo

/-- A checked read of `n` bytes in the global window (24 R344). -/
def State.tap (s : State) (g : Group) (lane a n : Nat) : Except FaultInfo Tap :=
  if windowOf a ≠ .glb then .error { code := cRange, addr := a, detail := 0 } else
  match s.checkRangeBy (s.lanternAcc g a) g lane a n .load with
  | .error f => if f = unreachableAt a then .ok { addr := a, ps := [], value := 0, bad := some f } else .error f
  | .ok ps =>
    let segs := segsOf s.env.freeCtr ps
    .ok { addr := a, ps := ps, value := fromLe (s.segBytes segs),
          bad := (List.range n).findSome? (fun i => segs.findSome? (fun q => (s.mem.poisonAt (keyAdd q.key i) 1).map (eccAt (a + i)))) }

/-- A descriptor of `n` bytes, aligned to its size; its poison is raised like that of data, when it arrives. -/
def State.descTap (s : State) (g : Group) (lane a n : Nat) : Except FaultInfo Tap :=
  if windowOf a = .glb ∧ canonical a ∧ a % n ≠ 0 then .error { code := cMisaligned, addr := a, detail := n }
  else s.tap g lane a n

/-- What a lane comes to: its result registers, all reads, and the interpolations performed. -/
structure Filtered where
  out : List W32
  taps : List Tap
  corners : Nat

/-! ## Texture fetch (11 R205, R206) -/

/-- A texture descriptor. -/
structure Tex where
  base : Nat
  w : Nat
  h : Nat
  fmt : Nat
  levels : Nat
  wrapU : Nat
  wrapV : Nat

/-- A texture descriptor from its 32 bytes. -/
def texOf (x : Nat) : Tex :=
  { base := bits x 63 0, w := bits x 79 64, h := bits x 95 80, fmt := bits x 103 96, levels := bits x 111 104,
    wrapU := bits x 113 112, wrapV := bits x 115 114 }

/-- The checks of a texture descriptor (11 R205). -/
def texBad (x word : Nat) : Option FaultInfo :=
  let t := texOf x
  if bits x 255 116 ≠ 0 ∨ t.wrapU = 3 ∨ t.wrapV = 3 ∨ 2 < t.fmt ∨ t.w = 0 ∨ 16384 < t.w ∨ t.h = 0 ∨ 16384 < t.h ∨ t.levels = 0 ∨
      1 + Nat.log2 (max t.w t.h) < t.levels then some { code := cIllegal, addr := 0, detail := word }
  else if t.base % 256 ≠ 0 then some { code := cMisaligned, addr := t.base, detail := 256 }
  else none

/-- Bytes of a texel. -/
def Tex.bytes (t : Tex) : Nat := if t.fmt = 1 then 8 else 4
/-- Width of a level. -/
def Tex.lw (t : Tex) (l : Nat) : Nat := max 1 (t.w / 2 ^ l)
/-- Height of a level. -/
def Tex.lh (t : Tex) (l : Nat) : Nat := max 1 (t.h / 2 ^ l)
/-- Pitch of a level. -/
def Tex.pitch (t : Tex) (l : Nat) : Nat := ceilDiv (t.lw l * t.bytes) 16 * 16
/-- Where a level starts, from the base. -/
def Tex.start (t : Tex) : Nat → Nat
  | 0 => 0
  | l + 1 => ceilDiv (t.start l + t.pitch l * t.lh l) 256 * 256

/-- Wrap (11 R206). -/
def wrapIdx (i : Int) (n mode : Nat) : Nat :=
  match mode with
  | 0 => (clampI 0 ((n : Int) - 1) i).toNat
  | 1 => (i % n).toNat
  | _ => let k := (i % (2 * n)).toNat; if k < n then k else 2 * n - 1 - k

/-- The channels of a texel, times 255 for RGBA8. -/
def Tex.channels (t : Tex) (x : Nat) : List FVal :=
  match t.fmt with
  | 0 => (List.range 4).map (fun i => FVal.fin false (x / 2 ^ (8 * i) % 256) 0)
  | 1 => (List.range 4).map (fun i => unpack .f16 (x / 2 ^ (16 * i) % 65536))
  | _ => [unpack .f32 (x % 2 ^ 32), .fin false 0 0, .fin false 0 0, .fin false 1 0]

/-- The four texels of a level with their weights, scaled: weight and address. -/
def Tex.bil (t : Tex) (l : Nat) (u v scale : Int × Int) : List ((Int × Int) × Nat) :=
  let x := dyAdd (dyMul u (t.lw l, 0)) (-1, -1)
  let y := dyAdd (dyMul v (t.lh l, 0)) (-1, -1)
  let i0 := dyFloor x
  let j0 := dyFloor y
  let fx := dyOf (dyRound (dySub x (i0, 0)))
  let fy := dyOf (dyRound (dySub y (j0, 0)))
  let side (d : Nat) (f : Int × Int) : Int × Int := if d = 1 then f else dySub (1, 0) f
  [(0, 0), (1, 0), (0, 1), (1, 1)].map (fun d =>
    (dyMul scale (dyMul (side d.1 fx) (side d.2 fy)),
      add64 t.base (t.start l + wrapIdx (j0 + d.2) (t.lh l) t.wrapV * t.pitch l + wrapIdx (i0 + d.1) (t.lw l) t.wrapU * t.bytes)))

/-- A value that is NaN or infinite. -/
def unbounded (w : W32) : Bool := match f32 w with | .fin .. => false | _ => true

/-- A level of detail within those of a texture: the finer level, and the fraction that the coarser one weighs. -/
def Tex.lod (t : Tex) (lod : W32) : Int × (Int × Int) :=
  let cl := dyClamp 0 ((t.levels : Int) - 1) (dyOf lod)
  (dyFloor cl, dySub cl (dyFloor cl, 0))

/-- What a lane's coordinates do not bound: it reads no texel. -/
def ICtx.fetchNone (c : ICtx) (tri : Bool) (a l : Nat) : Bool :=
  unbounded (c.g.vget (a + 2) l) || unbounded (c.g.vget (a + 3) l) || (tri && unbounded (c.g.vget (a + 4) l))

/-- The texels that a lane reads, with their weights. -/
def ICtx.texels (c : ICtx) (tri : Bool) (a l : Nat) (t : Tex) : List ((Int × Int) × Nat) :=
  let u := dyOf (c.g.vget (a + 2) l)
  let v := dyOf (c.g.vget (a + 3) l)
  let lod := c.g.vget (a + 4) l
  if c.fetchNone tri a l then []
  else if tri then
    let f := (t.lod lod).2
    t.bil (t.lod lod).1.toNat u v (dySub (1, 0) f) ++ (if f.1 = 0 then [] else t.bil ((t.lod lod).1.toNat + 1) u v f)
  else t.bil (min lod.toNat (t.levels - 1)) u v (1, 0)

/-- LFETCH in one lane. A descriptor that is poisoned or cannot be reached is not looked at: its fault comes when the data should arrive
(11 R204, 24 R344). -/
def ICtx.fetchLane (c : ICtx) (tri : Bool) (a : Nat) (s : State) (l : Nat) : Except FaultInfo Filtered :=
  match s.descTap c.g l (c.g.wget a l).toNat 32 with
  | .error f => .error f
  | .ok dt =>
    if dt.bad.isSome then .ok { out := List.replicate 4 0, taps := [dt], corners := 0 } else
    match texBad dt.value c.word with
    | some f => .error f
    | none =>
      let t := texOf dt.value
      if c.fetchNone tri a l then .ok { out := List.replicate 4 0x7FC00000, taps := [dt], corners := 0 }
      else
        match (c.texels tri a l t).mapM (fun q => (s.tap c.g l q.2 t.bytes).map (fun (x : Tap) => (q.1, x))) with
        | .error e => .error e
        | .ok rs =>
          let ch (i : Nat) : W32 := termSum (rs.map (fun q => term q.1 ((t.channels q.2.value).getD i .nan))) (if t.fmt = 0 then 255 else 1)
          .ok { out := (List.range 4).map ch, taps := dt :: rs.map (·.2),
                corners := if tri ∧ (t.lod (c.g.vget (a + 4) l)).2.1 ≠ 0 then 2 else 1 }

/-- The addresses that an LFETCH of a lane reads, in order. -/
def ICtx.fetchReads (c : ICtx) (tri : Bool) (a : Nat) (s : State) (l : Nat) : List Nat :=
  (c.g.wget a l).toNat :: (match s.descTap c.g l (c.g.wget a l).toNat 32 with
    | .ok dt => if dt.bad.isSome || (texBad dt.value c.word).isSome then [] else (c.texels tri a l (texOf dt.value)).map (·.2)
    | .error _ => [])

/-! ## Hash-grid features (11 R207, R208) -/

/-- A hash-grid descriptor. -/
structure HGrid where
  base : Nat
  levels : Nat
  feats : Nat
  logT : Nat
  n0 : Nat
  growth : W32

/-- A hash-grid descriptor from its 64 bytes. -/
def hgridOf (x : Nat) : HGrid :=
  { base := bits x 63 0, levels := bits x 71 64, feats := 2 ^ bits x 79 72, logT := bits x 87 80, n0 := bits x 127 96,
    growth := BitVec.ofNat 32 (bits x 159 128) }

/-- The checks of a hash-grid descriptor and of the registers it needs (11 R207). -/
def hgridBad (x word d budget : Nat) : Option FaultInfo :=
  let h := hgridOf x
  if bits x 95 88 ≠ 0 ∨ bits x 511 160 ≠ 0 ∨ h.levels = 0 ∨ 16 < h.levels ∨ 3 < bits x 79 72 ∨ h.logT < 4 ∨ 22 < h.logT ∨ h.n0 = 0 ∨
      2 ^ 24 < h.n0 ∨ unbounded h.growth ∨ (dySub (dyOf h.growth) (1, 0)).1 < 0 then some { code := cIllegal, addr := 0, detail := word }
  else if h.base % 16 ≠ 0 then some { code := cMisaligned, addr := h.base, detail := 16 }
  else if budget ≤ d + ceilDiv (h.levels * h.feats) 2 - 1 then some { code := cRegister, addr := 0, detail := d }
  else none

/-- A dyadic number to a power. -/
def dyPow (a : Int × Int) : Nat → Int × Int
  | 0 => (1, 0)
  | n + 1 => dyMul a (dyPow a n)

/-- The resolution of a level. -/
def HGrid.res (h : HGrid) (l : Nat) : Nat := min (dyFloor (dyMul (h.n0, 0) (dyPow (dyOf h.growth) l))).toNat (2 ^ 24)

/-- A coordinate: NaN reads as 0, clamped to [0, 1]. -/
def unitCoord (w : W32) : Int × Int :=
  match f32 w with
  | .nan => (0, 0)
  | .inf s => if s then (0, 0) else (1, 0)
  | .fin s m e => dyClamp 0 1 (sgn s m, e)

/-- The entry of a corner in a level of resolution `n` (11 R208). -/
def HGrid.entry (h : HGrid) (n cx cy cz : Nat) : Nat :=
  if (n + 1) ^ 3 ≤ 2 ^ h.logT then cx + cy * (n + 1) + cz * (n + 1) ^ 2
  else ((cx % 2 ^ 32) ^^^ (cy * 0x8F3C2D1B % 2 ^ 32) ^^^ (cz * 0x5D17A6C5 % 2 ^ 32)) % 2 ^ h.logT

/-- The corners of a level at a position: weight and address. -/
def HGrid.corners (h : HGrid) (l : Nat) (q : List (Int × Int)) : List (W32 × Nat) :=
  let n := h.res l
  let p := q.map (fun x => dyMul x (n, 0))
  let c0 := p.map (fun x => min (dyFloor x) ((n : Int) - 1))
  let fr := (p.zip c0).map (fun x => dyOf (dyRound (dySub x.1 (x.2, 0))))
  (List.range 8).map (fun k =>
    let b (i : Nat) : Nat := k / 2 ^ i % 2
    let side (i : Nat) : Int × Int := if b i = 1 then fr.getD i (0, 0) else dySub (1, 0) (fr.getD i (0, 0))
    let ci (i : Nat) : Nat := (c0.getD i 0).toNat + b i
    (dyRound (dyMul (side 0) (dyMul (side 1) (side 2))),
      add64 h.base (l * 2 ^ h.logT * (2 * h.feats) + h.entry n (ci 0) (ci 1) (ci 2) * (2 * h.feats))))

/-- One feature of a level: products added one by one, each sum rounded, then rounded to FP16. -/
def featSum (f : Nat) (rs : List (W32 × Tap)) : Nat :=
  let acc := rs.foldl (fun (a : W32) q =>
    BitVec.ofNat 32 (ffma .f32 .rne (f32 q.1) (unpack .f16 (q.2.value / 2 ^ (16 * f) % 65536)) (f32 a))) 0
  fround .f16 .rne (f32 acc)

/-- Halfwords packed in pairs, the first low. -/
def packHalves : List Nat → List W32
  | [] => []
  | [x] => [BitVec.ofNat 32 x]
  | x :: y :: t => BitVec.ofNat 32 (x + y * 65536) :: packHalves t

/-- The entries that a lane reads, by level, with their weights. -/
def ICtx.gridCorners (c : ICtx) (a l : Nat) (h : HGrid) : List (List (W32 × Nat)) :=
  let q := [unitCoord (c.g.vget (a + 2) l), unitCoord (c.g.vget (a + 3) l), unitCoord (c.g.vget (a + 4) l)]
  (List.range h.levels).map (fun lv => h.corners lv q)

/-- HGRID in one lane. A descriptor that is poisoned or cannot be reached is not looked at (11 R204, 24 R344). -/
def ICtx.gridLane (c : ICtx) (d a : Nat) (s : State) (l : Nat) : Except FaultInfo Filtered :=
  match s.descTap c.g l (c.g.wget a l).toNat 64 with
  | .error f => .error f
  | .ok dt =>
    if dt.bad.isSome then .ok { out := [0], taps := [dt], corners := 0 } else
    match hgridBad dt.value c.word d c.g.budget with
    | some f => .error f
    | none =>
      let h := hgridOf dt.value
      match (c.gridCorners a l h).mapM (fun ks => ks.mapM (fun k =>
          (s.tap c.g l k.2 (2 * h.feats)).map (fun (x : Tap) => (k.1, x)))) with
      | .error e => .error e
      | .ok lvs =>
        let out := (lvs.map (fun rs => (List.range h.feats).map (fun f => featSum f rs))).flatten
        .ok { out := packHalves out, taps := dt :: (lvs.flatten.map (·.2)), corners := h.levels }

/-- The addresses that an HGRID of a lane reads, in order. -/
def ICtx.gridReads (c : ICtx) (d a : Nat) (s : State) (l : Nat) : List Nat :=
  (c.g.wget a l).toNat :: (match s.descTap c.g l (c.g.wget a l).toNat 64 with
    | .ok dt => if dt.bad.isSome || (hgridBad dt.value c.word d c.g.budget).isSome then []
      else ((c.gridCorners a l (hgridOf dt.value)).flatten).map (·.2)
    | .error _ => [])

/-! ## The instructions -/

/-- The base die of a lane's descriptor (11 R215). -/
def State.tapStack (s : State) (x : Filtered) : Option Nat :=
  match x.taps with
  | t :: _ => match t.ps with
    | (.here k, _) :: _ => some (s.servedBy (k / 4))
    | _ => none
  | [] => none

/-- The parts that hold a lane's data, each with the address of a read there. -/
def Filtered.homes (x : Filtered) : List (Nat × Nat) :=
  (x.taps.filterMap (fun t => t.ps.findSome? (fun q => match q.1 with | .away p _ => some (p, t.addr) | .here _ => none))).foldl
    (fun l q => if l.any (fun y => y.1 == q.1) then l else l ++ [q]) []

/-- One lane's results after all checks: its reads reach memory, its counts rise, its results are pending, until every part that it reads
from has answered. -/
def ICtx.filterLane (c : ICtx) (d : Nat) (served : CtlReg) (bad : List (FaultInfo × Nat)) (s : State) (q : Nat × Filtered) : State :=
  let id := s.freshId
  let size (t : Tap) : Nat := t.ps.foldl (fun n p => n + p.2) 0
  let s1 := q.2.taps.foldl (fun s' t => s'.accessRangeBy (s.lanternAcc c.g t.addr) c.g t.addr (size t) t.ps false (some id)) (s.useIds 1)
  let s2 := match s.tapStack q.2 with
    | some k => (s1.count served k 1).count .lanternCorners k q.2.corners
    | none => s1
  let p : Pend := { id := id, src := .ready, pc := c.pc, lanes := laneBit q.1, regs := (List.range q.2.out.length).map (d + ·),
                    sreg := none, writes := laneWrites d q.1 q.2.out, swrite := 0, bad := bad
                    due := (q.2.taps.map (fun t => (t.ps.map (fun y => s.dueFor (s.lanternAcc c.g t.addr) c.g t.addr y.2 y.1 false)).flatten)).flatten }
  q.2.homes.foldl (fun t h => (t.modGroup c.gid (fun g => { g with
      pend := g.pend ++ [{ p with
        id := t.freshId
        src := .remote h.1 h.2 0 false
        writes := []
        due := []
        msg := s2.fab.sent.length }] })).useIds 1)
    (s2.modGroup c.gid (fun g => { g with pend := g.pend ++ [p] }))

/-- Every lane is checked, then every lane's results are pending; the lowest live lane whose data brings a fault raises it. Before a lane's
fault the lanes below it have translated every address that they read, and it has those before the one that fails: `reads`. -/
def lanternOp (i : Instr) (d : Nat) (served : CtlReg) (s : State) (f : ICtx → State → Nat → Except FaultInfo Filtered)
    (reads : ICtx → State → Nat → List Nat) : Out State :=
  issue i s (fun c s1 =>
    if c.part = 0 then c.advance s1 else
    match perLane (f c s1) (lanesOf c.part) with
    | .error (l, e) =>
      let saw (t : State) (va : Nat) : State := if windowOf va = .glb then t.noteAccess (s1.lanternAcc c.g va) va else t
      let before := ((lanesOf c.part).filter (· < l)).map (reads c s1) ++ [(reads c s1 l).takeWhile (· != e.addr)]
      c.failBy (s1.lanternAcc c.g e.addr) (before.flatten.foldl saw s1) l e
    | .ok xs =>
      let bad := xs.filterMap (fun q => (q.2.taps.findSome? (·.bad)).map (fun e => (e, q.1)))
      let whole := (List.range 64).filter (fun j => xs.all (fun q => decide (j < q.2.out.length)))
      (c.advance (xs.foldl (c.filterLane d served bad) (c.cures (whole.map (d + ·)) s1))).useFree 1)

/-- LFETCH.BIL (11 R206). -/
def execLfetchBil (d a : BitVec 7) (g : BitVec 4) (s : State) : Out State :=
  lanternOp (.lfetchBil d a g) d.toNat .lanternFetches s (fun c => c.fetchLane false a.toNat)
    (fun c => c.fetchReads false a.toNat)

/-- LFETCH.TRI (11 R206). -/
def execLfetchTri (d a : BitVec 7) (g : BitVec 4) (s : State) : Out State :=
  lanternOp (.lfetchTri d a g) d.toNat .lanternFetches s (fun c => c.fetchLane true a.toNat)
    (fun c => c.fetchReads true a.toNat)

/-- HGRID (11 R208). -/
def execHgrid (d a : BitVec 7) (g : BitVec 4) (s : State) : Out State :=
  lanternOp (.hgrid d a g) d.toNat .lanternHgrid s (fun c => c.gridLane d.toNat a.toNat)
    (fun c => c.gridReads d.toNat a.toNat)

end Sys2Proof.Machine
end

