-- ==== Sys2Proof/Machine/Dispatch.lean ====
section
/-! DEFINITION. One arm per instruction: its meaning. -/
namespace Sys2Proof.Machine

def exec (i : Instr) (s : State) : Host.Outcome State Fault Refusal :=
  match i with
  | .mov16 d b => Sys2Proof.Machine.execMov16 d b s
  | .add16 d b => Sys2Proof.Machine.execAdd16 d b s
  | .sub16 d b => Sys2Proof.Machine.execSub16 d b s
  | .mul16 d b => Sys2Proof.Machine.execMul16 d b s
  | .and16 d b => Sys2Proof.Machine.execAnd16 d b s
  | .or16 d b => Sys2Proof.Machine.execOr16 d b s
  | .xor16 d b => Sys2Proof.Machine.execXor16 d b s
  | .shl16 d b => Sys2Proof.Machine.execShl16 d b s
  | .shr16 d b => Sys2Proof.Machine.execShr16 d b s
  | .min16 d b => Sys2Proof.Machine.execMin16 d b s
  | .max16 d b => Sys2Proof.Machine.execMax16 d b s
  | .fadd16 d b => Sys2Proof.Machine.execFadd16 d b s
  | .fsub16 d b => Sys2Proof.Machine.execFsub16 d b s
  | .fmul16 d b => Sys2Proof.Machine.execFmul16 d b s
  | .fmin16 d b => Sys2Proof.Machine.execFmin16 d b s
  | .fmax16 d b => Sys2Proof.Machine.execFmax16 d b s
  | .nop => Sys2Proof.Machine.execNop s
  | .add d a b g => Sys2Proof.Machine.execAdd d a b g s
  | .sub d a b g => Sys2Proof.Machine.execSub d a b g s
  | .mul d a b g => Sys2Proof.Machine.execMul d a b g s
  | .mulh d a b g => Sys2Proof.Machine.execMulh d a b g s
  | .mad d a b g => Sys2Proof.Machine.execMad d a b g s
  | .min d a b g => Sys2Proof.Machine.execMin d a b g s
  | .max d a b g => Sys2Proof.Machine.execMax d a b g s
  | .and d a b g => Sys2Proof.Machine.execAnd d a b g s
  | .or d a b g => Sys2Proof.Machine.execOr d a b g s
  | .xor d a b g => Sys2Proof.Machine.execXor d a b g s
  | .shl d a b g => Sys2Proof.Machine.execShl d a b g s
  | .shr d a b g => Sys2Proof.Machine.execShr d a b g s
  | .sar d a b g => Sys2Proof.Machine.execSar d a b g s
  | .sel d a b g => Sys2Proof.Machine.execSel d a b g s
  | .shfl d a b g => Sys2Proof.Machine.execShfl d a b g s
  | .addi d a imm g => Sys2Proof.Machine.execAddi d a imm g s
  | .andi d a imm g => Sys2Proof.Machine.execAndi d a imm g s
  | .ori d a imm g => Sys2Proof.Machine.execOri d a imm g s
  | .xori d a imm g => Sys2Proof.Machine.execXori d a imm g s
  | .shli d a imm g => Sys2Proof.Machine.execShli d a imm g s
  | .shri d a imm g => Sys2Proof.Machine.execShri d a imm g s
  | .sari d a imm g => Sys2Proof.Machine.execSari d a imm g s
  | .fadd d a b g => Sys2Proof.Machine.execFadd d a b g s
  | .fsub d a b g => Sys2Proof.Machine.execFsub d a b g s
  | .fmul d a b g => Sys2Proof.Machine.execFmul d a b g s
  | .ffma d a b g => Sys2Proof.Machine.execFfma d a b g s
  | .fmin d a b g => Sys2Proof.Machine.execFmin d a b g s
  | .fmax d a b g => Sys2Proof.Machine.execFmax d a b g s
  | .fdiv d a b g => Sys2Proof.Machine.execFdiv d a b g s
  | .cvts d a b g => Sys2Proof.Machine.execCvts d a b g s
  | .hadd2 d a b g => Sys2Proof.Machine.execHadd2 d a b g s
  | .hmul2 d a b g => Sys2Proof.Machine.execHmul2 d a b g s
  | .hfma2 d a b g => Sys2Proof.Machine.execHfma2 d a b g s
  | .cmp p a b c g => Sys2Proof.Machine.execCmp p a b c g s
  | .fcmp p a b c g => Sys2Proof.Machine.execFcmp p a b c g s
  | .movi d imm => Sys2Proof.Machine.execMovi d imm s
  | .movhi d imm => Sys2Proof.Machine.execMovhi d imm s
  | .lea d a b g => Sys2Proof.Machine.execLea d a b g s
  | .ldU8 d a o g => Sys2Proof.Machine.execLdU8 d a o g s
  | .ldS8 d a o g => Sys2Proof.Machine.execLdS8 d a o g s
  | .ldU16 d a o g => Sys2Proof.Machine.execLdU16 d a o g s
  | .ldS16 d a o g => Sys2Proof.Machine.execLdS16 d a o g s
  | .ld32 d a o g => Sys2Proof.Machine.execLd32 d a o g s
  | .ld64 d a o g => Sys2Proof.Machine.execLd64 d a o g s
  | .ld128 d a o g => Sys2Proof.Machine.execLd128 d a o g s
  | .ldro32 d a o g => Sys2Proof.Machine.execLdro32 d a o g s
  | .ldro128 d a o g => Sys2Proof.Machine.execLdro128 d a o g s
  | .st8 d a o g => Sys2Proof.Machine.execSt8 d a o g s
  | .st16 d a o g => Sys2Proof.Machine.execSt16 d a o g s
  | .st32 d a o g => Sys2Proof.Machine.execSt32 d a o g s
  | .st64 d a o g => Sys2Proof.Machine.execSt64 d a o g s
  | .st128 d a o g => Sys2Proof.Machine.execSt128 d a o g s
  | .bra o g => Sys2Proof.Machine.execBra o g s
  | .call o g => Sys2Proof.Machine.execCall o g s
  | .sadd d a b => Sys2Proof.Machine.execSadd d a b s
  | .ssub d a b => Sys2Proof.Machine.execSsub d a b s
  | .smul d a b => Sys2Proof.Machine.execSmul d a b s
  | .sand d a b => Sys2Proof.Machine.execSand d a b s
  | .sor d a b => Sys2Proof.Machine.execSor d a b s
  | .sxor d a b => Sys2Proof.Machine.execSxor d a b s
  | .sshl d a b => Sys2Proof.Machine.execSshl d a b s
  | .sshr d a b => Sys2Proof.Machine.execSshr d a b s
  | .ssar d a b => Sys2Proof.Machine.execSsar d a b s
  | .smin d a b => Sys2Proof.Machine.execSmin d a b s
  | .smax d a b => Sys2Proof.Machine.execSmax d a b s
  | .smov d a => Sys2Proof.Machine.execSmov d a s
  | .spset p a => Sys2Proof.Machine.execSpset p a s
  | .slt d a b => Sys2Proof.Machine.execSlt d a b s
  | .saddImm d a imm => Sys2Proof.Machine.execSaddImm d a imm s
  | .ssubImm d a imm => Sys2Proof.Machine.execSsubImm d a imm s
  | .smulImm d a imm => Sys2Proof.Machine.execSmulImm d a imm s
  | .sandImm d a imm => Sys2Proof.Machine.execSandImm d a imm s
  | .sorImm d a imm => Sys2Proof.Machine.execSorImm d a imm s
  | .sxorImm d a imm => Sys2Proof.Machine.execSxorImm d a imm s
  | .sshlImm d a imm => Sys2Proof.Machine.execSshlImm d a imm s
  | .sshrImm d a imm => Sys2Proof.Machine.execSshrImm d a imm s
  | .ssarImm d a imm => Sys2Proof.Machine.execSsarImm d a imm s
  | .sminImm d a imm => Sys2Proof.Machine.execSminImm d a imm s
  | .smaxImm d a imm => Sys2Proof.Machine.execSmaxImm d a imm s
  | .smovImm d imm => Sys2Proof.Machine.execSmovImm d imm s
  | .sltImm d a imm => Sys2Proof.Machine.execSltImm d a imm s
  | .sld d a imm => Sys2Proof.Machine.execSld d a imm s
  | .sst d a imm => Sys2Proof.Machine.execSst d a imm s
  | .smovi d imm => Sys2Proof.Machine.execSmovi d imm s
  | .smovhi d imm => Sys2Proof.Machine.execSmovhi d imm s
  | .mov d a g => Sys2Proof.Machine.execMov d a g s
  | .not d a g => Sys2Proof.Machine.execNot d a g s
  | .abs d a g => Sys2Proof.Machine.execAbs d a g s
  | .popc d a g => Sys2Proof.Machine.execPopc d a g s
  | .clz d a g => Sys2Proof.Machine.execClz d a g s
  | .brev d a g => Sys2Proof.Machine.execBrev d a g s
  | .movs d a g => Sys2Proof.Machine.execMovs d a g s
  | .movsHi d a g => Sys2Proof.Machine.execMovsHi d a g s
  | .rdlane d a g => Sys2Proof.Machine.execRdlane d a g s
  | .fabs d a g => Sys2Proof.Machine.execFabs d a g s
  | .fneg d a g => Sys2Proof.Machine.execFneg d a g s
  | .frcp d a g => Sys2Proof.Machine.execFrcp d a g s
  | .frsq d a g => Sys2Proof.Machine.execFrsq d a g s
  | .fsqrt d a g => Sys2Proof.Machine.execFsqrt d a g s
  | .fexp2 d a g => Sys2Proof.Machine.execFexp2 d a g s
  | .flog2 d a g => Sys2Proof.Machine.execFlog2 d a g s
  | .fsin d a g => Sys2Proof.Machine.execFsin d a g s
  | .fcos d a g => Sys2Proof.Machine.execFcos d a g s
  | .frndRne d a g => Sys2Proof.Machine.execFrndRne d a g s
  | .frndRtz d a g => Sys2Proof.Machine.execFrndRtz d a g s
  | .frndRup d a g => Sys2Proof.Machine.execFrndRup d a g s
  | .frndRdn d a g => Sys2Proof.Machine.execFrndRdn d a g s
  | .cvt d a c g => Sys2Proof.Machine.execCvt d a c g s
  | .rzcvt d a g => Sys2Proof.Machine.execRzcvt d a g s
  | .rzadd d a g => Sys2Proof.Machine.execRzadd d a g s
  | .vsome d a g => Sys2Proof.Machine.execVsome d a g s
  | .vevery d a g => Sys2Proof.Machine.execVevery d a g s
  | .badge d a g => Sys2Proof.Machine.execBadge d a g s
  | .mates d a g => Sys2Proof.Machine.execMates d a g s
  | .refoldAdd d a g => Sys2Proof.Machine.execRefoldAdd d a g s
  | .refoldMin d a g => Sys2Proof.Machine.execRefoldMin d a g s
  | .refoldMax d a g => Sys2Proof.Machine.execRefoldMax d a g s
  | .refoldFadd d a g => Sys2Proof.Machine.execRefoldFadd d a g s
  | .refoldMinu d a g => Sys2Proof.Machine.execRefoldMinu d a g s
  | .refoldMaxu d a g => Sys2Proof.Machine.execRefoldMaxu d a g s
  | .ppack d g => Sys2Proof.Machine.execPpack d g s
  | .punpack a g => Sys2Proof.Machine.execPunpack a g s
  | .pand d a g => Sys2Proof.Machine.execPand d a g s
  | .por d a g => Sys2Proof.Machine.execPor d a g s
  | .pxor d a g => Sys2Proof.Machine.execPxor d a g s
  | .pnot d a g => Sys2Proof.Machine.execPnot d a g s
  | .sptest d a w g => Sys2Proof.Machine.execSptest d a w g s
  | .spcastToprv d a g => Sys2Proof.Machine.execSpcastToprv d a g s
  | .spcastToscr d a g => Sys2Proof.Machine.execSpcastToscr d a g s
  | .spcastToclu d a g => Sys2Proof.Machine.execSpcastToclu d a g s
  | .spcastPrvgen d a g => Sys2Proof.Machine.execSpcastPrvgen d a g s
  | .spcastScrgen d a g => Sys2Proof.Machine.execSpcastScrgen d a g s
  | .spcastClugen d a g => Sys2Proof.Machine.execSpcastClugen d a g s
  | .lda d a g => Sys2Proof.Machine.execLda d a g s
  | .pref a g => Sys2Proof.Machine.execPref a g s
  | .invro g => Sys2Proof.Machine.execInvro g s
  | .cflush a g => Sys2Proof.Machine.execCflush a g s
  | .cinv a g => Sys2Proof.Machine.execCinv a g s
  | .atomAdd d a w g => Sys2Proof.Machine.execAtomAdd d a w g s
  | .atomMinS d a w g => Sys2Proof.Machine.execAtomMinS d a w g s
  | .atomMaxS d a w g => Sys2Proof.Machine.execAtomMaxS d a w g s
  | .atomMinU d a w g => Sys2Proof.Machine.execAtomMinU d a w g s
  | .atomMaxU d a w g => Sys2Proof.Machine.execAtomMaxU d a w g s
  | .atomAnd d a w g => Sys2Proof.Machine.execAtomAnd d a w g s
  | .atomOr d a w g => Sys2Proof.Machine.execAtomOr d a w g s
  | .atomXor d a w g => Sys2Proof.Machine.execAtomXor d a w g s
  | .atomExch d a w g => Sys2Proof.Machine.execAtomExch d a w g s
  | .atomcas d a w g => Sys2Proof.Machine.execAtomcas d a w g s
  | .redAdd32 d a g => Sys2Proof.Machine.execRedAdd32 d a g s
  | .redAdd64 d a g => Sys2Proof.Machine.execRedAdd64 d a g s
  | .redMaxU64 d a g => Sys2Proof.Machine.execRedMaxU64 d a g s
  | .redMinS32 d a g => Sys2Proof.Machine.execRedMinS32 d a g s
  | .redMaxS32 d a g => Sys2Proof.Machine.execRedMaxS32 d a g s
  | .redOr32 d a g => Sys2Proof.Machine.execRedOr32 d a g s
  | .redFaddF32 d a g => Sys2Proof.Machine.execRedFaddF32 d a g s
  | .redRzadd d a g => Sys2Proof.Machine.execRedRzadd d a g s
  | .fence sc g => Sys2Proof.Machine.execFence sc g s
  | .bar l n => Sys2Proof.Machine.execBar l n s
  | .bararr l n => Sys2Proof.Machine.execBararr l n s
  | .barwt l n => Sys2Proof.Machine.execBarwt l n s
  | .barwtRemote n => Sys2Proof.Machine.execBarwtRemote n s
  | .rarrive c n => Sys2Proof.Machine.execRarrive c n s
  | .monitor a g => Sys2Proof.Machine.execMonitor a g s
  | .mwait d g => Sys2Proof.Machine.execMwait d g s
  | .batseal d g => Sys2Proof.Machine.execBatseal d g s
  | .batwait a g => Sys2Proof.Machine.execBatwait a g s
  | .chwait d a g => Sys2Proof.Machine.execChwait d a g s
  | .exit g => Sys2Proof.Machine.execExit g s
  | .ret g => Sys2Proof.Machine.execRet g s
  | .brx a g => Sys2Proof.Machine.execBrx a g s
  | .callx a g => Sys2Proof.Machine.execCallx a g s
  | .conv g => Sys2Proof.Machine.execConv g s
  | .yield g => Sys2Proof.Machine.execYield g s
  | .safept n => Sys2Proof.Machine.execSafept n s
  | .trap n g => Sys2Proof.Machine.execTrap n g s
  | .brk n g => Sys2Proof.Machine.execBrk n g s
  | .roleOffer => Sys2Proof.Machine.execRoleOffer s
  | .role r => Sys2Proof.Machine.execRole r s
  | .bcopy a g => Sys2Proof.Machine.execBcopy a g s
  | .bcast a g => Sys2Proof.Machine.execBcast a g s
  | .stage g => Sys2Proof.Machine.execStage g s
  | .mxissue d a n g => Sys2Proof.Machine.execMxissue d a n g s
  | .mxchain g => Sys2Proof.Machine.execMxchain g s
  | .mxend g => Sys2Proof.Machine.execMxend g s
  | .mxdrain a g => Sys2Proof.Machine.execMxdrain a g s
  | .mxzero t g => Sys2Proof.Machine.execMxzero t g s
  | .mxrd d c t g => Sys2Proof.Machine.execMxrd d c t g s
  | .mxwr d c t g => Sys2Proof.Machine.execMxwr d c t g s
  | .mxwait g => Sys2Proof.Machine.execMxwait g s
  | .btake => Sys2Proof.Machine.execBtake s
  | .bgive => Sys2Proof.Machine.execBgive s
  | .ringput d p n g => Sys2Proof.Machine.execRingput d p n g s
  | .ringget d p n g => Sys2Proof.Machine.execRingget d p n g s
  | .launch d a g => Sys2Proof.Machine.execLaunch d a g s
  | .launchp d a g => Sys2Proof.Machine.execLaunchp d a g s
  | .tspawn d a g => Sys2Proof.Machine.execTspawn d a g s
  | .twait p a g => Sys2Proof.Machine.execTwait p a g s
  | .twaitLock p a g => Sys2Proof.Machine.execTwaitLock p a g s
  | .cancel a g => Sys2Proof.Machine.execCancel a g s
  | .cancelKill a g => Sys2Proof.Machine.execCancelKill a g s
  | .trace d a g => Sys2Proof.Machine.execTrace d a g s
  | .callret d a g => Sys2Proof.Machine.execCallret d a g s
  | .repack d a => Sys2Proof.Machine.execRepack d a s
  | .treelock d a g => Sys2Proof.Machine.execTreelock d a g s
  | .treepub d a g => Sys2Proof.Machine.execTreepub d a g s
  | .lfetchBil d a g => Sys2Proof.Machine.execLfetchBil d a g s
  | .lfetchTri d a g => Sys2Proof.Machine.execLfetchTri d a g s
  | .hgrid d a g => Sys2Proof.Machine.execHgrid d a g s
  | .sysr d imm g => Sys2Proof.Machine.execSysr d imm g s
  | .sysrV d imm g => Sys2Proof.Machine.execSysrV d imm g s
  | .sysw d imm g => Sys2Proof.Machine.execSysw d imm g s
  | .rdtime d g => Sys2Proof.Machine.execRdtime d g s
  | .queueNop q => Sys2Proof.Machine.execQueueNop q s
  | .dispatch q => Sys2Proof.Machine.execDispatch q s
  | .dispatchGang q => Sys2Proof.Machine.execDispatchGang q s
  | .signal q => Sys2Proof.Machine.execSignal q s
  | .wait q => Sys2Proof.Machine.execWait q s
  | .drawLarge q => Sys2Proof.Machine.execDrawLarge q s
  | .classify q => Sys2Proof.Machine.execClassify q s
  | .queueFence q => Sys2Proof.Machine.execQueueFence q s
  | .timestamp q => Sys2Proof.Machine.execTimestamp q s
  | .tailWordUpdate q value => Sys2Proof.Machine.execTailWordUpdate q value s
  | .waitTimeout q => Sys2Proof.Machine.execWaitTimeout q s
  | .gangUnmap part => Sys2Proof.Machine.execGangUnmap part s
  | .systemRequestPut put => Sys2Proof.Machine.execSystemRequestPut put s
  | .setMode => Sys2Proof.Machine.execSetMode s
  | .mapQueue => Sys2Proof.Machine.execMapQueue s
  | .unmapQueue => Sys2Proof.Machine.execUnmapQueue s
  | .resetQueue => Sys2Proof.Machine.execResetQueue s
  | .preempt => Sys2Proof.Machine.execPreempt s
  | .withdraw => Sys2Proof.Machine.execWithdraw s
  | .resume => Sys2Proof.Machine.execResume s
  | .shootdown => Sys2Proof.Machine.execShootdown s
  | .writeReg => Sys2Proof.Machine.execWriteReg s
  | .presence => Sys2Proof.Machine.execPresence s
  | .swap => Sys2Proof.Machine.execSwap s
  | .releaseBreak => Sys2Proof.Machine.execReleaseBreak s
  | .fwInstall => Sys2Proof.Machine.execFwInstall s
  | .attest => Sys2Proof.Machine.execAttest s
  | .setPools => Sys2Proof.Machine.execSetPools s
  | .accept => Sys2Proof.Machine.execAccept s
  | .fabGrpJoin => Sys2Proof.Machine.execFabGrpJoin s
  | .fabGrpLeave => Sys2Proof.Machine.execFabGrpLeave s
  | .joinReachesSwitch part ctl => Sys2Proof.Machine.execJoinReachesSwitch part ctl s
  | .fabDomainSet => Sys2Proof.Machine.execFabDomainSet s
  | .remapStart => Sys2Proof.Machine.execRemapStart s
  | .cupolaPinWrite => Sys2Proof.Machine.execCupolaPinWrite s
  | .blockFamilyWrite => Sys2Proof.Machine.execBlockFamilyWrite s
  | .fwCommit => Sys2Proof.Machine.execFwCommit s
  | .eventTakeCount ring take => Sys2Proof.Machine.execEventTakeCount ring take s
  | .goStore entry => Sys2Proof.Machine.execGoStore entry s
  | .roundDelivery entry before after => Sys2Proof.Machine.execRoundDelivery entry before after s
  | .reduceRoundTimeout entry => Sys2Proof.Machine.execReduceRoundTimeout entry s
  | .linkResend port => Sys2Proof.Machine.execLinkResend port s
  | .homeUnreachable part => Sys2Proof.Machine.execHomeUnreachable part s
  | .teamDispatch core grid => Sys2Proof.Machine.execTeamDispatch core grid s
  | .teamAdmit core grid ticket => Sys2Proof.Machine.execTeamAdmit core grid ticket s
  | .groupPark gid => Sys2Proof.Machine.execGroupPark gid s
  | .parkAfterLaunchWait gid => Sys2Proof.Machine.execParkAfterLaunchWait gid s
  | .groupRestore gid => Sys2Proof.Machine.execGroupRestore gid s
  | .teamRetire team => Sys2Proof.Machine.execTeamRetire team s
  | .launchAccept die => Sys2Proof.Machine.execLaunchAccept die s
  | .launchMulticast launcher id asid root record => Sys2Proof.Machine.execLaunchMulticast launcher id asid root record s
  | .ready id part => Sys2Proof.Machine.execReady id part s
  | .refuse id part hold => Sys2Proof.Machine.execRefuse id part hold s
  | .commit id => Sys2Proof.Machine.execCommit id s
  | .rollback id => Sys2Proof.Machine.execRollback id s
  | .launchpTimeout id => Sys2Proof.Machine.execLaunchpTimeout id s
  | .steal id thief => Sys2Proof.Machine.execSteal id thief s
  | .stealReply id lo hi => Sys2Proof.Machine.execStealReply id lo hi s
  | .cancelReachesPart id kill => Sys2Proof.Machine.execCancelReachesPart id kill s
  | .barrierToken id level n phase count times => Sys2Proof.Machine.execBarrierToken id level n phase count times s
  | .barrierPhaseComplete level grid owner n => Sys2Proof.Machine.execBarrierPhaseComplete level grid owner n s
  | .finalStatus id => Sys2Proof.Machine.execFinalStatus id s
  | .taskDispatch core => Sys2Proof.Machine.execTaskDispatch core s
  | .rolePost team gid => Sys2Proof.Machine.execRolePost team gid s
  | .batonHandover team => Sys2Proof.Machine.execBatonHandover team s
  | .mxAccept gid => Sys2Proof.Machine.execMxAccept gid s
  | .powerGrant die => Sys2Proof.Machine.execPowerGrant die s
  | .powerGrantReturn core => Sys2Proof.Machine.execPowerGrantReturn core s
  | .mxKstepCommit team => Sys2Proof.Machine.execMxKstepCommit team s
  | .mxDrainExecute team => Sys2Proof.Machine.execMxDrainExecute team s
  | .copyChunkWritten copy chunk => Sys2Proof.Machine.execCopyChunkWritten copy chunk s
  | .loadDataLands gid item data => Sys2Proof.Machine.execLoadDataLands gid item data s
  | .mwaitReturn gid => Sys2Proof.Machine.execMwaitReturn gid s
  | .memRequestStart pc => Sys2Proof.Machine.execMemRequestStart pc s
  | .refreshDue pc bank => Sys2Proof.Machine.execRefreshDue pc bank s
  | .alertBackoff pc bank n => Sys2Proof.Machine.execAlertBackoff pc bank n s
  | .remapBlockMove span => Sys2Proof.Machine.execRemapBlockMove span s
  | .remapThresholdPassed span family => Sys2Proof.Machine.execRemapThresholdPassed span family s
  | .memRemapWindow span => Sys2Proof.Machine.execMemRemapWindow span s
  | .memHotEpoch iodie => Sys2Proof.Machine.execMemHotEpoch iodie s
  | .rayMessageArrival ray => Sys2Proof.Machine.execRayMessageArrival ray s
  | .spireBatchStart unit => Sys2Proof.Machine.execSpireBatchStart unit s
  | .nodeVisit ray => Sys2Proof.Machine.execNodeVisit ray s
  | .rayEnd ray => Sys2Proof.Machine.execRayEnd ray s
  | .calloutGroupSend stack => Sys2Proof.Machine.execCalloutGroupSend stack s
  | .calloutGatherTimeout stack => Sys2Proof.Machine.execCalloutGatherTimeout stack s
  | .calloutGroupDispatch core => Sys2Proof.Machine.execCalloutGroupDispatch core s
  | .rayPark ray => Sys2Proof.Machine.execRayPark ray s
  | .rayAbort ray => Sys2Proof.Machine.execRayAbort ray s
  | .groupTakenAtSite gid => Sys2Proof.Machine.execGroupTakenAtSite gid s
  | .eccError place unit fatal => Sys2Proof.Machine.execEccError place unit fatal s
  | .watchdogFire core => Sys2Proof.Machine.execWatchdogFire core s
  | .fwTrialTimeout => Sys2Proof.Machine.execFwTrialTimeout s
  | .moduleReset => Sys2Proof.Machine.execModuleReset s
  | .fabricIngressRequest port op addr size data cls stamp => Sys2Proof.Machine.execFabricIngressRequest port op addr size data cls stamp s
  | .acknowledgedAtHome gid n => Sys2Proof.Machine.execAcknowledgedAtHome gid n s
  | .linkTakenOutOfService port => Sys2Proof.Machine.execLinkTakenOutOfService port s
  | .linkUp port => Sys2Proof.Machine.execLinkUp port s

end Sys2Proof.Machine
end

