-- ==== Sys2Proof/Machine/Fetch.lean ====
section
/-! DEFINITION. Fetching an instruction, which lanes are ready, and which group and paths a quarter issues (02 R24 to R29; 15 R265,
R281; 25 R386). -/
namespace Sys2Proof.Machine

/-! ## Fetch (15 R265) -/

/-- What a fetch gives: an instruction; a pattern that is none; or a fault. -/
inductive Fetched where
  | instr (i : Instr)
  | illegal (word : Nat)
  | fault (f : FaultInfo)
deriving DecidableEq, Repr

/-- The address of a code offset. -/
def State.codeVa (s : State) (g : Group) (off : Nat) : Nat := add64 (s.gridOf g).r.codeBase (off % 2 ^ 32)

/-- Where a halfword of code lies, after the checks of a fetch. -/
def State.codeLoc (s : State) (g : Group) (off : Nat) : Except FaultInfo Loc :=
  let a := s.codeVa g off
  if !canonical a then .error { code := cNoncanonical, addr := a, detail := 0 } else s.translate (s.accOf g) .fetch a

/-- The halfword at a code offset, through the core's read-only cache. -/
def State.codeHalf (s : State) (g : Group) (off : Nat) : Except FaultInfo Nat :=
  match s.codeLoc g off with
  | .error f => .error f
  | .ok (.here k) =>
    (match s.roHit g.core (k / 4) 2 with
    | some bs => .ok (fromLe bs)
    | none =>
      match s.mem.poisonAt k 2 with
      | some p => .error (eccAt (s.codeVa g off) p)
      | none => .ok (s.readMem k 2))
  | .ok (.away p pa) => .ok (s.readMem (awayKey s.env.freeCtr p pa) 2)

/-- The decoder's answer on a word of `n` bytes. -/
def decoded (n w : Nat) : Fetched :=
  match decode (leBytes n w) with
  | .ok (i, _) => .instr i
  | .error (.illegal x) => .illegal x
  | .error .truncated => .illegal w

/-- The instruction at a PC. A 32-bit one cannot begin at the last halfword of the code space. -/
def State.fetch (s : State) (g : Group) (pc : Nat) : Fetched :=
  match s.codeHalf g pc with
  | .error f => .fault f
  | .ok h =>
    if h % 2 = 0 then decoded 2 h
    else if pc % 2 ^ 32 = 0xFFFFFFFE then .illegal h
    else match s.codeHalf g (pc + 2) with
      | .error f => .fault f
      | .ok h2 => decoded 4 (h + 65536 * h2)

/-- The state after a halfword has been fetched: translated and requested where the cache does not hold it, and cached. -/
def State.fetchedHalf (s : State) (g : Group) (off : Nat) : State :=
  match s.codeLoc g off with
  | .ok (.here k) =>
    if (s.roHit g.core (k / 4) 2).isSome then s.useFree 1 else
    (((s.access g (s.codeVa g off) 2 (.here k) false).combine k 2).roFill g.core (k / 4)).useFree 1
  | .ok (.away p pa) =>
    let va := s.codeVa g off
    (((s.touch g va).send ((s.askFor (s.accOf g) g va false none).msg p 0 2 [pa, 2])).countRx none 2).useFree 1
  | .error _ => s.useFree 1

/-- The state after an instruction of `n` bytes has been fetched. -/
def State.fetchedAt (s : State) (g : Group) (pc n : Nat) : State :=
  let s1 := s.fetchedHalf g pc
  if n = 2 then s1 else s1.fetchedHalf g (pc + 2)

/-- The lanes that a pattern which is no instruction would take: those its guard selects where its major opcode's format has a
guard (12 R216, 15 R267). -/
def Group.patternLanes (g : Group) (lanes : Mask) (w : Nat) : Mask :=
  let m := bits w 6 1
  if w % 2 = 0 ∨ m = 0 ∨ m = 0x17 ∨ m = 0x25 ∨ m = 0x26 ∨ (0x38 ≤ m ∧ m ≤ 0x3B) then lanes
  else g.guarded lanes (BitVec.ofNat 4 (bits w 10 7))

/-- The lane that a fault of the whole path names. -/
def pathLaneOf (lanes part : Mask) : Nat := if part = 0 then lowLane lanes else lowLane part

/-! ## Ready lanes (02 R24) -/

/-- Live lanes that are in no wait. -/
def Group.unblocked (g : Group) : Mask := g.live &&& ~~~(g.waits.foldl (fun m w => m ||| w.lanes) (0 : Mask))

/-- The lanes of a group that a full virtual channel stalls: a request of theirs waits on channel 0, or the message of a ray that they have
traced on channel 2 (01 R16; log 97). -/
def State.stalledLanes (s : State) (gid : Nat) : Mask :=
  if (s.stalledMsgs 0).isEmpty && s.spire.rays.isEmpty then 0 else
  maskOf (fun l => s.stalledBy gid l ||
    s.spire.rays.any (fun e => e.2.gid == gid && e.2.lane == l && e.2.st == .flight && !e.2.left && decide (e.2.src < 256)))

/-- The lanes of a group that may issue: in no wait, and not stalled. -/
def State.freeLanes (s : State) (gid : Nat) (g : Group) : Mask := g.unblocked &&& ~~~s.stalledLanes gid

/-- Of some lanes, those that stand at a PC. -/
def Group.lanesAt (g : Group) (lanes : Mask) (pc : Nat) : Mask := maskOf (fun l => lanes.getLsbD l && g.pcOf l == pc)

/-- The registers that an HGRID writes in a lane, as its descriptor has it; none where that would fault (11 R207). -/
def State.hgridRegs (s : State) (g : Group) (d a l : Nat) : List Nat :=
  match s.descTap g l (g.wget a l).toNat 64 with
  | .ok t =>
    let h := hgridOf t.value
    if (hgridBad t.value 0 d g.budget).isSome then [] else (List.range (ceilDiv (h.levels * h.feats) 2)).map (d + ·)
  | .error _ => []

/-- Lanes of a path for which an HGRID would write a pending register (02 R29). -/
def State.hgridWaits (s : State) (g : Group) (i : Instr) (lanes : Mask) : Mask :=
  match i with
  | .hgrid d a gd =>
    if g.pend.isEmpty then 0 else
    maskOf (fun l => (g.guarded lanes gd).getLsbD l &&
      (s.hgridRegs g d.toNat a.toNat l).any (fun r => g.vPending r (laneBit l) != 0))
  | _ => 0

/-- Of lanes at a PC, those whose instruction waits for no pending item. -/
def State.landedLanes (s : State) (g : Group) (pc : Nat) (lanes : Mask) : Mask :=
  match s.fetch g pc with
  | .instr i => lanes &&& ~~~(g.notLanded i lanes ||| s.hgridWaits g i lanes)
  | _ => lanes

/-- The ready paths of a group: PCs with their ready lanes. -/
def State.readyPaths (s : State) (gid : Nat) (g : Group) : List (Nat × Mask) :=
  let free := s.freeLanes gid g
  let pcs := ((lanesOf free).map g.pcOf).eraseDups
  (pcs.map (fun pc => (pc, s.landedLanes g pc (g.lanesAt free pc)))).filter (fun q => q.2 != 0)

/-- A group may issue: it stands in its slot, or runs its save routine, of the running context, and is not halted. -/
def State.mayIssue (s : State) (g : Group) : Bool :=
  (g.place == .resident || g.place == .saving) && !g.halted && g.live != 0 && s.active (s.gridOf g)

/-! ## The choice of paths (02 R26) -/

/-- The path of a list with the most lanes; ties go to the lower PC. -/
def mostLanes (l : List (Nat × Mask)) : Option (Nat × Mask) := leastBy (fun q => (32 - laneCount q.2) * 2 ^ 32 + q.1) l

/-- How often the path at a PC has been passed over. -/
def Group.passedOver (g : Group) (pc : Nat) : Nat := ((g.paths.find? (fun r => r.pc == pc)).map (·.passed)).getD 0

/-- The cycle at which a path last issued: that of the lane of it which has gone longest without issuing, since lanes that reach an older
path join it. -/
def Group.lastIssued (g : Group) (lanes : Mask) : Nat :=
  let l := (lanesOf lanes).map (fun i => g.issued.getD i 0)
  l.foldl min (l.headD 0)

/-- The second path: the aged one that has gone longest without issuing, else the one with the most lanes. -/
def Group.secondPath (g : Group) (others : List (Nat × Mask)) : Option (Nat × Mask) :=
  let aged := others.filter (fun q => decide (2 ≤ g.passedOver q.1))
  if aged.isEmpty then mostLanes others else leastBy (fun q => g.lastIssued q.2 * 2 ^ 32 + q.1) aged

/-- A group whose paths A and B issue: their lanes issue now, and the others are passed over once more. -/
def Group.passOver (g : Group) (now : Nat) (paths : List (Nat × Mask)) (a : Nat) (b : Option Nat) : Group :=
  let issues (pc : Nat) : Bool := pc == a || b == some pc
  let passed := (paths.filter (fun q => !issues q.1)).map (fun q => ({ pc := q.1, passed := g.passedOver q.1 + 1 } : PathRec))
  let idle := g.paths.filter (fun r => !issues r.pc && !paths.any (fun q => q.1 == r.pc) && g.lanesAt g.live r.pc != 0)
  let lanes := (((paths.filter (fun q => issues q.1)).map (fun q => lanesOf q.2)).flatten)
  { g with
    paths := passed ++ idle
    issued := lanes.foldl (fun m l => Store.put m l now 0) g.issued
    lastIssue := now
    yielded := none }

/-- The state with a group's two paths chosen: A issues now, B after it (02 R26, R28). -/
def State.choosePaths (s : State) (gid : Nat) (g : Group) (paths : List (Nat × Mask)) : State × Option Issue :=
  match mostLanes paths with
  | none => (s, none)
  | some a =>
    let b := g.secondPath (paths.filter (fun q => q.1 != a.1))
    ({ (s.setGroup gid (g.passOver s.env.cycle paths a.1 (b.map (·.1)))) with
        pendB := b.map (fun q => { gid := gid, pc := q.1, lanes := q.2, wait := 0 }) },
      some { gid := gid, pc := a.1, lanes := a.2, wait := 0 })

/-! ## The choice of a group (02 R25, 25 R386) -/

/-- A candidate group with its ready paths. -/
structure Cand where
  gid : Nat
  g : Group
  prio : Nat
  paths : List (Nat × Mask)

/-- The number of a group's quarter over the part. -/
def Group.slotOf (g : Group) : Nat := g.core * 4 + g.quarter % 4

/-- The ready groups of a quarter. -/
def State.readyIn (s : State) (quarter : Nat) : List Cand :=
  s.groups.filterMap (fun e =>
    if e.2.slotOf = quarter ∧ s.mayIssue e.2 then
      let ps := s.readyPaths e.1 e.2
      if ps.isEmpty then none else some { gid := e.1, g := e.2, prio := (s.gridOf e.2).r.prio, paths := ps }
    else none)

/-- A group that has yielded is not chosen before every other ready group has issued once, or 16 cycles have passed. -/
def Cand.held (c : Cand) (now : Nat) (all : List Cand) : Bool :=
  match c.g.yielded with
  | none => false
  | some y => decide (now - y < 16) && all.any (fun d => d.gid != c.gid && decide (d.g.lastIssue ≤ y))

/-- The group a quarter chooses: one unissued for 48 cycles first, then the highest priority; then the longest wait. -/
def chooseGroup (now : Nat) (l : List Cand) : Option Cand :=
  let free := l.filter (fun c => !c.held now l)
  let starved := free.filter (fun c => decide (48 ≤ now - c.g.lastIssue))
  if starved.isEmpty then leastBy (fun c => (2 ^ 16 - c.prio) * 2 ^ 64 + c.g.lastIssue) free
  else leastBy (fun c => c.g.lastIssue) starved

/-- The first quarter of a list that has a group to issue, with the group. -/
def State.firstReady (s : State) : List Nat → Option (Nat × Cand)
  | [] => none
  | q :: t =>
    match chooseGroup s.env.cycle (s.readyIn q) with
    | some c => some (q, c)
    | none => State.firstReady s t

/-- Quarters that hold groups, from one number on, in rising order. -/
def State.quartersFrom (s : State) (a : Nat) : List Nat :=
  (List.range' a (768 - a)).filter (fun q => s.groups.any (fun e => e.2.slotOf == q))

end Sys2Proof.Machine
end

