-- ==== Sys2Proof/Machine/Auto.lean ====
section
/-! DEFINITION. What the part does by itself: the events of the hardware that may come next, the issue of a path, the inputs, and time
(02 R25 to R28; 95; log 5 to 7). -/
namespace Sys2Proof.Machine

/-! ## Events that may come next

An event of this list happens only when its own meaning changes the state: each checks its condition itself. Events that come from
outside the part (other parts, the host, links, errors, resets) are inputs. -/

/-- The meaning of an event with its operands. -/
abbrev Happening := State → Host.Outcome State Fault Refusal

/-- Waits that lanes of a group at one instruction leave together. -/
def Why.together : Why → Bool | .gather | .landed | .conv | .repack .. => true | _ => false

/-- A wait of a group that may issue is over: what is left of its instruction acts, for its lanes and those that leave with them. Lanes held
at a site go on and issue there (02 R24, R44). -/
def endWait (gid : Nat) (w : Wait) : Happening := fun s =>
  match s.groups.get? gid with
  | none => .next s
  | some g =>
    if !s.mayIssue g || !g.waits.contains w || !s.waitOver gid g w then .next s
    else if w.why = .site then .next (s.setGroup gid (g.unwait w.lanes))
    else
      let all := g.waits.foldl (fun m x => if x.pc = w.pc ∧ x.why = w.why then m ||| x.lanes else m) w.lanes
      exec w.i { s with cur := some { gid := gid, pc := w.pc, lanes := if w.why.together then all else w.lanes, wait := w.seq } }

/-- Results, waits, baton, engines and copies of the groups and teams. -/
def State.unitEvents (s : State) : List Happening :=
  (s.groups.map (fun e => e.2.waits.map (endWait e.1))).flatten ++
  (s.groups.map (fun e => (e.2.pend.filter (fun p => match p.src with | .ready | .poisoned => true | _ => false)).map
    (fun p => execLoadDataLands e.1 p.id 0))).flatten ++
  (s.groups.map (fun e => [execMwaitReturn e.1, execGroupTakenAtSite e.1, execMxAccept e.1])).flatten ++
  (s.teams.map (fun e => [execBatonHandover e.1, execMxKstepCommit e.1, execMxDrainExecute e.1])).flatten ++
  (s.eng.copies.map (fun c => c.left.map (fun i => execCopyChunkWritten c.id i))).flatten ++
  (List.range 4).map execPowerGrant

/-- Barrier phases. -/
def State.barEvents (s : State) : List Happening :=
  (s.teams.map (fun e => e.2.bars.map (fun b => execBarrierPhaseComplete 0 e.2.grid e.1 b.1))).flatten ++
  (s.grids.map (fun e => e.2.bars.map (fun b => execBarrierPhaseComplete (b.1 / 8 % 4) e.1 (b.1 / 32) (b.1 % 8)))).flatten

/-- Rays and call-outs. -/
def State.rayEvents (s : State) : List Happening :=
  (s.spire.rays.map (fun e => [execRayAbort e.1, execRayEnd e.1, execRayMessageArrival e.1, execRayPark e.1, execNodeVisit e.1])).flatten ++
  (if s.spire.rays.isEmpty then [] else (List.range 128).map execSpireBatchStart) ++
  (if s.spire.gather.isEmpty then [] else
    (List.range 8).map execCalloutGroupSend ++ (List.range 8).map execCalloutGatherTimeout)

/-- Retirement, restoring and dispatch. -/
def State.dispatchEvents (s : State) : List Happening :=
  s.disp.cancels.map (fun c => execCancelReachesPart c.grid (if c.kill then 1 else 0)) ++
  s.teams.map (fun e => execTeamRetire e.1) ++
  s.grids.map (fun e => execFinalStatus e.1) ++
  s.groups.map (fun e => execGroupRestore e.1) ++
  (if s.disp.pools.isEmpty && !s.groups.any (fun e => e.2.place == .taken) then [] else
    (List.range 192).map execTaskDispatch ++ (List.range 192).map execCalloutGroupDispatch) ++
  s.disp.admits.map (fun q => execTeamAdmit (q.1 / 4) q.2.1 q.2.2) ++
  ((s.teams.filter (fun e => e.2.saved)).map (fun e => (s.coresOf (((s.grids.get? e.2.grid).getD noGrid).part)).map
    (fun c => execTeamAdmit c e.2.grid e.2.index))).flatten ++
  ((s.grids.filter (fun e => s.dispatches e.2)).map (fun e => (s.coresOf e.2.part).map (fun c => execTeamDispatch c e.1))).flatten ++
  (List.range 4).map execLaunchAccept ++
  s.groups.map (fun e => execParkAfterLaunchWait e.1) ++
  s.groups.map (fun e => execGroupPark e.1) ++
  (s.groups.filter (fun e => e.2.kind == .team)).map (fun e => execRolePost e.2.team e.1)

/-- What is to be seen of a queue: its tail word has changed, or it stands too far ahead (13 R242). -/
def State.tailEvents (s : State) (n : Nat) (q : Queue) : List Happening :=
  (match s.ownRead q.acc q.tail 8 with
    | some v => if v = q.seen then [] else [fun x => .next (x.seeTail n v)]
    | none => []) ++
  (if q.overrun then [fun x => .next (x.examine n)] else [])

/-- Queue commands, tail words and gangs; messages of the command links (13 R233). -/
def State.queueEvents (s : State) : List Happening :=
  (s.ctrl.queues.map (fun e =>
    if !e.2.mapped then [] else
    s.tailEvents e.1 e.2 ++
    [execQueueNop e.1, execDispatch e.1, execDispatchGang e.1, execSignal e.1, execWait e.1, execDrawLarge e.1, execClassify e.1, execQueueFence e.1,
     execTimestamp e.1, execWaitTimeout e.1])).flatten ++
  (s.ctrl.down.map (·.1)).eraseDups.map (fun t x => .next (x.takeDown t)) ++
  (s.ctrl.up.map (·.1)).eraseDups.map (fun t x => .next (x.takeUp t)) ++
  (List.range 8).map execGangUnmap ++ (List.range 8).map (fun p x => .next (x.seatReady p))

/-- The rows that may serve a system request, by its code. -/
def requestRows (code put : Nat) : List Happening :=
  match code with
  | 1 => [execSetMode]
  | 2 => [execMapQueue]
  | 3 => [execUnmapQueue]
  | 4 => [execResetQueue]
  | 5 => [execPreempt]
  | 6 => [execWithdraw]
  | 7 => [execResume]
  | 8 => [execShootdown]
  | 9 => [execWriteReg, execFabGrpJoin, execFabGrpLeave, execFabDomainSet, execRemapStart, execCupolaPinWrite, execBlockFamilyWrite]
  | 10 => [execPresence]
  | 11 => [execSwap]
  | 12 => [execReleaseBreak]
  | 13 => [execFwInstall]
  | 14 => [execAttest]
  | 15 => [execSetPools]
  | 16 => [execAccept]
  | _ => [execSystemRequestPut put]

/-- Campanile: the request at the head of the ring, and events held back whose ring has room. -/
def State.campanileEvents (s : State) : List Happening :=
  (match s.headRequest with
    | some (_, c) => requestRows c s.reqPut
    | none => []) ++
  (if s.ctrl.events.isEmpty then [] else [fun x => .next x.eventsAgain])

/-- Virtual channels on which messages wait, and group entries of the fabric. -/
def State.fabricEvents (s : State) : List Happening :=
  ((List.range 6).filter (fun v => s.fab.stalled.getD v 0 != 0)).map (fun v x => .next (x.drainChannel v)) ++
  (if s.spire.rays.isEmpty then [] else [fun x => .next x.raysLeave]) ++
  (if s.disp.pools.isEmpty then [] else [fun x => .next x.calloutsLeave]) ++
  (s.fab.groups.map (fun e =>
    let c := s.ctlN .fabGrpCtl e.1
    (if e.2.asked then [execJoinReachesSwitch s.self c] else []) ++
    (if e.2.go.isSome then [execGoStore e.1] else []) ++
    (if grpMembers c = 1 then [execRoundDelivery e.1 [] []] else []) ++
    (if e.2.busy && e.2.go.isNone && decide (usCycles (grpTimeout c) ≤ s.env.cycle - e.2.since) then [execReduceRoundTimeout e.1]
      else []))).flatten

/-- The memory system, and what comes with time. -/
def State.timedEvents (s : State) : List Happening :=
  (s.msys.reqs.map (·.pc)).eraseDups.map execMemRequestStart ++
  (List.range 8).map execRemapBlockMove ++
  ((List.range 8).map (fun k => (List.range 8).map (fun f => execRemapThresholdPassed k f))).flatten ++
  s.grids.map (fun e => execLaunchpTimeout e.1) ++
  s.eng.idle.map (fun e => execPowerGrantReturn e.1) ++
  (List.range 8).map execMemRemapWindow ++ [execMemHotEpoch 0, execMemHotEpoch 1, execFwTrialTimeout]

/-- All of them, in the order in which they are tried. -/
def State.events (s : State) : List Happening :=
  s.unitEvents ++ s.barEvents ++ s.rayEvents ++ s.dispatchEvents ++ s.queueEvents ++ s.campanileEvents ++ s.fabricEvents ++
  s.timedEvents

/-- What an event comes to, when it is enabled. -/
def State.tryEvent (s : State) (e : Happening) : Option (Host.Outcome State Fault Refusal) :=
  match e s with
  | .next t => if t = s then none else some (.next t)
  | o => some o

/-- The `k`-th enabled event of a list. -/
def State.pick (s : State) : Nat → List Happening → Option (Host.Outcome State Fault Refusal)
  | _, [] => none
  | k, e :: t =>
    match s.tryEvent e with
    | none => State.pick s k t
    | some o => if k = 0 then some o else State.pick s (k - 1) t

/-! ## Issue -/

/-- The lanes of a chosen path that may still issue it: live, at its PC, in no wait, not stalled, and with nothing pending. -/
def State.issueLanes (s : State) (q : Issue) (g : Group) : Mask :=
  s.landedLanes g q.pc (g.lanesAt (q.lanes &&& s.freeLanes q.gid g) q.pc)

/-- THE ISSUE OF A PATH: its instruction is fetched and executed; a fetch that faults, or a pattern that is no instruction, ends
the group (02 R28; 15 R265, R281). -/
def State.issuePath (s : State) (q : Issue) : Host.Outcome State Fault Refusal :=
  match s.groups.get? q.gid with
  | none => .next s
  | some g =>
    let lanes := s.issueLanes q g
    if lanes = 0 ∨ !s.mayIssue g then .next s else
    match s.fetch g q.pc with
    | .fault f => .next ((s.fetchedHalf g q.pc).takeFault q.gid (lowLane lanes) q.pc f)
    | .illegal w =>
      .next ((s.fetchedHalf g q.pc).takeFault q.gid (pathLaneOf lanes (g.patternLanes lanes w)) q.pc
        { code := cIllegal, addr := 0, detail := w })
    | .instr i => exec i { (s.fetchedAt g q.pc i.size) with cur := some { gid := q.gid, pc := q.pc, lanes := lanes, wait := 0 } }

/-! ## Time (log 5) -/

/-- A cycle passes: 1, or the length that the inputs give. -/
def State.tick (s : State) : State :=
  { s with env := { s.env with
    cycle := s.env.cycle + s.env.clock.headD 1
    clock := s.env.clock.drop 1 } }

/-- The scheduler: the next quarter that has a ready group issues from it; once every quarter has had its turn a cycle passes
(02 R25). -/
def State.schedule (s : State) : Host.Outcome State Fault Refusal :=
  let go (s' : State) (r : Nat × Cand) : Host.Outcome State Fault Refusal :=
    let s1 := { s' with env := { s'.env with turn := r.1 + 1 } }
    match s1.choosePaths r.2.gid r.2.g r.2.paths with
    | (s2, some q) => s2.issuePath q
    | (s2, none) => .next s2
  match s.firstReady (s.quartersFrom s.env.turn) with
  | some r => go s r
  | none =>
    let s1 := s.tick
    match s1.firstReady (s1.quartersFrom 0) with
    | some r => go s1 r
    | none => .next { s1 with env := { s1.env with turn := 0 } }

/-! ## Inputs (log 7) -/

/-- An input must wait where it stands: a write of another part, or a round's data, to bytes that the matrix engine has still to read. -/
def State.inputHeld (s : State) : Instr → Bool
  | .fabricIngressRequest _ op addr size _ _ _ => s.ingressHeld op addr size
  | .roundDelivery e _ _ => s.deliveryHeld e
  | _ => false

/-- The input that comes now, with the inputs left; or none, and the inputs a step nearer. -/
def State.nextInput (s : State) : Option (Instr × List (Nat × Instr)) × List (Nat × Instr) :=
  match s.env.agenda with
  | [] => (none, [])
  | (0, i) :: t => if s.inputHeld i then (none, (0, i) :: t) else (some (i, t), t)
  | (n + 1, i) :: t => (none, (n, i) :: t)

/-- What comes next by itself: the enabled event that the inputs choose, the first one by default, or else the scheduler. -/
def State.act (s : State) : Host.Outcome State Fault Refusal :=
  let k := s.env.order.headD 0
  let s1 := { s with env := { s.env with order := s.env.order.drop 1 } }
  match s1.pick k s1.events with
  | some o => o
  | none => s1.schedule

/-- ONE STEP: a second path that waits to issue does so; else an input that is due comes; else what comes by itself. What the steps before
left to be settled is settled first. -/
def State.advance (s0 : State) : Host.Outcome State Fault Refusal :=
  let s := s0.settled
  match s.pendB with
  | some q => { s with pendB := none }.issuePath q
  | none =>
    let s1 := { s with cur := none }
    match s1.nextInput with
    | (some (i, t), _) => exec i { s1 with env := { s1.env with agenda := t } }
    | (none, t) => { s1 with env := { s1.env with agenda := t } }.act

/-! ## Placing an instruction (log 9) -/

/-- The grid that a placed instruction belongs to: one team of one group with every register, 4 KiB of scratchpad, 16 tiles and 4 KiB
of private memory to a lane at PA 0x40000000, its code at VA 0x20000. -/
def placedGrid : Grid :=
  { noGrid with
    r := { noGrid.r with
      codeBase := 0x20000
      budC := 128
      scr := 4096
      tiles := 16
      priv := 4096
      stack := 4096
      cw := 0x30000
      fa := 0x31000 }
    root := 0x10000 }

/-- The state with a page table at 0x10000 that maps the first GiB of HBM at VA 0, readable, writable and executable. -/
def State.placeTables (s : State) : State :=
  ((s.writeMem (physKey 0x10000) 8 0x11001).writeMem (physKey 0x11000) 8 0x12001).writeMem (physKey 0x12000) 8 0xFFF000000000020F

/-- The state with a word stored at 0x20000 and a group whose 32 lanes are about to issue it. -/
def State.placeCode (s : State) (nbits w : Nat) : State :=
  let s1 := s.placeTables.writeMem (physKey 0x20000) 4 (w % 2 ^ nbits)
  let s2 := (s1.setGrid 1 placedGrid).admitTeam 1 placedGrid 0 0 0 0x40000000
  { s2 with pendB := some { gid := s1.freshId + 3, pc := 0, lanes := BitVec.allOnes 32, wait := 0 } }

end Sys2Proof.Machine
end

