-- ==== Sys2Proof/Machine/Step.lean ====
section
/-! DEFINITION. One step of the part, and the placing of an instruction where the next step issues it (log 6, 9). -/
namespace Sys2Proof.Machine

/-- One step: it only calls `State.advance`. -/
def step (s : State) : Host.Outcome State Fault Refusal := s.advance

/-- The state with an instruction stored where the next step fetches. This stands for what system software, a queue and the
dispatchers do before a program's first instruction issues: a grid with one team of one group in its initial state (02 R23), a
page table that maps the first GiB of HBM, and the code there (log 9). -/
def State.withFetchWord (s : State) (nbits w : Nat) : State := s.placeCode nbits w

end Sys2Proof.Machine
end

