-- ==== Sys2Proof/Laws/PerInstr.lean ====
section
/-! SUPPORT. For every instruction: what it encodes to, decodes to it (15 R265 to R278). One lemma per constructor. -/
namespace Sys2Proof.Laws

/-- The bytes of a well-formed instruction decode to it, with every operand, and leave what follows it. -/
def RoundTrip.Statement (i : Instr) : Prop :=
  i.wf = true → ∀ w, encode i = some w → ∀ rest, decode (leBytes i.size w ++ rest) = .ok (i, rest)

/-! ## Fields of a word -/

theorem bv_eq {n : Nat} (w hi lo : Nat) (x : BitVec n) (h : fld w hi lo = x.toNat) : (bv w hi lo : BitVec n) = x := by
  simp [bv, h]
theorem leaf_ok (i : Instr) (h : i.wf = true) : leaf true i = some i := by simp [leaf, h]
theorem alt_ok (b : Bool) (i : Instr) (o : Option Instr) (hb : b = true) (h : i.wf = true) : (leaf b i <|> o) = some i := by
  simp [leaf, hb, h]
theorem alt_no (b c : Bool) (i j : Instr) (hb : b = false) (hc : c = true) (h : j.wf = true) : (leaf b i <|> leaf c j) = some j := by
  simp [leaf, hb, hc, h]
theorem decode_short (w : Nat) (i : Instr) (rest : List Byte) (h : w < 2 ^ 16) (ho : w % 2 = 0) (hd : decode16 w = some i) :
    decode (leBytes 2 w ++ rest) = .ok (i, rest) := by
  have h1 : half (BitVec.ofNat 8 w) (BitVec.ofNat 8 (w / 256)) = w := by simp [half]; omega
  have h2 : (w % 2 == 0) = true := by simp [ho]
  simp only [leBytes, List.cons_append, List.nil_append, decode, h1, if_pos h2, hd]
theorem decode_long (w : Nat) (i : Instr) (rest : List Byte) (h : w < 2 ^ 32) (ho : w % 2 = 1) (hd : decode32 w = some i) :
    decode (leBytes 4 w ++ rest) = .ok (i, rest) := by
  have h1 : half (BitVec.ofNat 8 w) (BitVec.ofNat 8 (w / 256)) = w % 65536 := by simp [half]; omega
  have h2 : half (BitVec.ofNat 8 (w / 256 / 256)) (BitVec.ofNat 8 (w / 256 / 256 / 256)) = w / 65536 := by simp [half]; omega
  have h3 : ¬ (w % 65536 % 2 == 0) = true := by simp; omega
  have h4 : w % 65536 + 65536 * (w / 65536) = w := by omega
  simp only [leBytes, List.cons_append, List.nil_append, decode, h1, h2, if_neg h3, h4, hd]
theorem decode32_decodeFs (x : Nat) (h : fld x 6 1 = 56) : decode32 x = decodeFs x := by rw [decode32, h]; rfl
theorem decode32_decodeFsi (x : Nat) (h : fld x 6 1 = 57) : decode32 x = decodeFsi x := by rw [decode32, h]; rfl
theorem decode32_decodeFx3C (x : Nat) (h : fld x 6 1 = 60) : decode32 x = decodeFx3C x := by rw [decode32, h]; rfl
theorem decode32_decodeFx3D (x : Nat) (h : fld x 6 1 = 61) : decode32 x = decodeFx3D x := by rw [decode32, h]; rfl
theorem decode32_decodeFx3E (x : Nat) (h : fld x 6 1 = 62) : decode32 x = decodeFx3E x := by rw [decode32, h]; rfl
theorem decode32_decodeFx3F (x : Nat) (h : fld x 6 1 = 63) : decode32 x = decodeFx3F x := by rw [decode32, h]; rfl
/-! What a word made of fields reads back as: one lemma per layout. -/

theorem form0 (n x k : Nat) (y0 : BitVec 7) (y1 : BitVec 7) (y2 : BitVec 7) (y3 : BitVec 4) (e : n + y0.toNat * 2048 + y1.toNat * 262144 + y2.toNat * 33554432 + y3.toNat * 128 = x) (h : n = 2 * k + 1) (hk : k < 64) :
    x < 2 ^ 32 ∧ x % 2 = 1 ∧ fld x 6 1 = k ∧ (bv x 17 11 : BitVec 7) = y0 ∧ (bv x 24 18 : BitVec 7) = y1 ∧ (bv x 31 25 : BitVec 7) = y2 ∧ (bv x 10 7 : BitVec 4) = y3 := by
  have := y0.isLt; have := y1.isLt; have := y2.isLt; have := y3.isLt
  repeat' apply And.intro
  all_goals first | (apply bv_eq; unfold fld; omega) | (unfold fld; omega) | omega
theorem form1 (n x k : Nat) (y0 : BitVec 7) (y1 : BitVec 7) (y2 : BitVec 5) (y3 : BitVec 4) (e : n + y0.toNat * 2048 + y1.toNat * 262144 + y2.toNat * 33554432 + y3.toNat * 128 = x) (h : n = 2 * k + 1) (hk : k < 64) :
    x < 2 ^ 32 ∧ x % 2 = 1 ∧ fld x 6 1 = k ∧ (bv x 17 11 : BitVec 7) = y0 ∧ (bv x 24 18 : BitVec 7) = y1 ∧ (bv x 29 25 : BitVec 5) = y2 ∧ (bv x 10 7 : BitVec 4) = y3 ∧ fld x 31 30 = 0 := by
  have := y0.isLt; have := y1.isLt; have := y2.isLt; have := y3.isLt
  repeat' apply And.intro
  all_goals first | (apply bv_eq; unfold fld; omega) | (unfold fld; omega) | omega
theorem form2 (n x k : Nat) (y0 : BitVec 3) (y1 : BitVec 7) (y2 : BitVec 7) (y3 : BitVec 4) (y4 : BitVec 4) (e : n + y0.toNat * 2048 + y1.toNat * 262144 + y2.toNat * 33554432 + y3.toNat * 16384 + y4.toNat * 128 = x) (h : n = 2 * k + 1) (hk : k < 64) :
    x < 2 ^ 32 ∧ x % 2 = 1 ∧ fld x 6 1 = k ∧ (bv x 13 11 : BitVec 3) = y0 ∧ (bv x 24 18 : BitVec 7) = y1 ∧ (bv x 31 25 : BitVec 7) = y2 ∧ (bv x 17 14 : BitVec 4) = y3 ∧ (bv x 10 7 : BitVec 4) = y4 := by
  have := y0.isLt; have := y1.isLt; have := y2.isLt; have := y3.isLt; have := y4.isLt
  repeat' apply And.intro
  all_goals first | (apply bv_eq; unfold fld; omega) | (unfold fld; omega) | omega
theorem form3 (n x k : Nat) (y0 : BitVec 7) (y1 : BitVec 18) (e : n + y0.toNat * 128 + y1.toNat * 16384 = x) (h : n = 2 * k + 1) (hk : k < 64) :
    x < 2 ^ 32 ∧ x % 2 = 1 ∧ fld x 6 1 = k ∧ (bv x 13 7 : BitVec 7) = y0 ∧ (bv x 31 14 : BitVec 18) = y1 := by
  have := y0.isLt; have := y1.isLt
  repeat' apply And.intro
  all_goals first | (apply bv_eq; unfold fld; omega) | (unfold fld; omega) | omega
theorem form4 (n x k : Nat) (y0 : BitVec 7) (y1 : BitVec 14) (e : n + y0.toNat * 128 + y1.toNat * 16384 = x) (h : n = 2 * k + 1) (hk : k < 64) :
    x < 2 ^ 32 ∧ x % 2 = 1 ∧ fld x 6 1 = k ∧ (bv x 13 7 : BitVec 7) = y0 ∧ (bv x 27 14 : BitVec 14) = y1 ∧ fld x 31 28 = 0 := by
  have := y0.isLt; have := y1.isLt
  repeat' apply And.intro
  all_goals first | (apply bv_eq; unfold fld; omega) | (unfold fld; omega) | omega
theorem form5 (n x k : Nat) (y0 : BitVec 21) (y1 : BitVec 4) (e : n + y0.toNat * 2048 + y1.toNat * 128 = x) (h : n = 2 * k + 1) (hk : k < 64) :
    x < 2 ^ 32 ∧ x % 2 = 1 ∧ fld x 6 1 = k ∧ (bv x 31 11 : BitVec 21) = y0 ∧ (bv x 10 7 : BitVec 4) = y1 := by
  have := y0.isLt; have := y1.isLt
  repeat' apply And.intro
  all_goals first | (apply bv_eq; unfold fld; omega) | (unfold fld; omega) | omega
theorem form6 (n x k : Nat) (y0 : BitVec 6) (y1 : BitVec 6) (y2 : BitVec 6) (e : n + y0.toNat * 2048 + y1.toNat * 131072 + y2.toNat * 8388608 = x) (h : n = 113 + 128 * k) (hk : k < 16) :
    x < 2 ^ 32 ∧ x % 2 = 1 ∧ fld x 6 1 = 56 ∧ fld x 10 7 = k ∧ (bv x 16 11 : BitVec 6) = y0 ∧ (bv x 22 17 : BitVec 6) = y1 ∧ (bv x 28 23 : BitVec 6) = y2 ∧ fld x 31 29 = 0 := by
  have := y0.isLt; have := y1.isLt; have := y2.isLt
  repeat' apply And.intro
  all_goals first | (apply bv_eq; unfold fld; omega) | (unfold fld; omega) | omega
theorem form7 (n x k : Nat) (y0 : BitVec 6) (y1 : BitVec 6) (e : n + y0.toNat * 2048 + y1.toNat * 131072 = x) (h : n = 113 + 128 * k) (hk : k < 16) :
    x < 2 ^ 32 ∧ x % 2 = 1 ∧ fld x 6 1 = 56 ∧ fld x 10 7 = k ∧ (bv x 16 11 : BitVec 6) = y0 ∧ (bv x 22 17 : BitVec 6) = y1 ∧ fld x 31 23 = 0 := by
  have := y0.isLt; have := y1.isLt
  repeat' apply And.intro
  all_goals first | (apply bv_eq; unfold fld; omega) | (unfold fld; omega) | omega
theorem form8 (n x k : Nat) (y0 : BitVec 3) (y1 : BitVec 6) (e : n + y0.toNat * 8388608 + y1.toNat * 131072 = x) (h : n = 113 + 128 * k) (hk : k < 16) :
    x < 2 ^ 32 ∧ x % 2 = 1 ∧ fld x 6 1 = 56 ∧ fld x 10 7 = k ∧ (bv x 25 23 : BitVec 3) = y0 ∧ (bv x 22 17 : BitVec 6) = y1 ∧ fld x 31 26 = 0 ∧ fld x 16 11 = 0 := by
  have := y0.isLt; have := y1.isLt
  repeat' apply And.intro
  all_goals first | (apply bv_eq; unfold fld; omega) | (unfold fld; omega) | omega
theorem form9 (n x k : Nat) (y0 : BitVec 6) (y1 : BitVec 6) (y2 : BitVec 9) (e : n + y0.toNat * 2048 + y1.toNat * 131072 + y2.toNat * 8388608 = x) (h : n = 115 + 128 * k) (hk : k < 16) :
    x < 2 ^ 32 ∧ x % 2 = 1 ∧ fld x 6 1 = 57 ∧ fld x 10 7 = k ∧ (bv x 16 11 : BitVec 6) = y0 ∧ (bv x 22 17 : BitVec 6) = y1 ∧ (bv x 31 23 : BitVec 9) = y2 := by
  have := y0.isLt; have := y1.isLt; have := y2.isLt
  repeat' apply And.intro
  all_goals first | (apply bv_eq; unfold fld; omega) | (unfold fld; omega) | omega
theorem form10 (n x k : Nat) (y0 : BitVec 6) (y1 : BitVec 6) (y2 : BitVec 6) (e : n + y0.toNat * 2048 + y1.toNat * 131072 + y2.toNat * 8388608 = x) (h : n = 115 + 128 * k) (hk : k < 16) :
    x < 2 ^ 32 ∧ x % 2 = 1 ∧ fld x 6 1 = 57 ∧ fld x 10 7 = k ∧ (bv x 16 11 : BitVec 6) = y0 ∧ (bv x 22 17 : BitVec 6) = y1 ∧ (bv x 28 23 : BitVec 6) = y2 ∧ fld x 31 29 = 0 := by
  have := y0.isLt; have := y1.isLt; have := y2.isLt
  repeat' apply And.intro
  all_goals first | (apply bv_eq; unfold fld; omega) | (unfold fld; omega) | omega
theorem form11 (n x k : Nat) (y0 : BitVec 6) (y1 : BitVec 9) (e : n + y0.toNat * 2048 + y1.toNat * 8388608 = x) (h : n = 115 + 128 * k) (hk : k < 16) :
    x < 2 ^ 32 ∧ x % 2 = 1 ∧ fld x 6 1 = 57 ∧ fld x 10 7 = k ∧ (bv x 16 11 : BitVec 6) = y0 ∧ (bv x 31 23 : BitVec 9) = y1 ∧ fld x 22 17 = 0 := by
  have := y0.isLt; have := y1.isLt
  repeat' apply And.intro
  all_goals first | (apply bv_eq; unfold fld; omega) | (unfold fld; omega) | omega
theorem form12 (n x k : Nat) (y0 : BitVec 6) (y1 : BitVec 19) (e : n + y0.toNat * 128 + y1.toNat * 8192 = x) (h : n = 2 * k + 1) (hk : k < 64) :
    x < 2 ^ 32 ∧ x % 2 = 1 ∧ fld x 6 1 = k ∧ (bv x 12 7 : BitVec 6) = y0 ∧ (bv x 31 13 : BitVec 19) = y1 := by
  have := y0.isLt; have := y1.isLt
  repeat' apply And.intro
  all_goals first | (apply bv_eq; unfold fld; omega) | (unfold fld; omega) | omega
theorem form13 (n x k : Nat) (y0 : BitVec 7) (y1 : BitVec 7) (y2 : BitVec 4) (e : n + y0.toNat * 2048 + y1.toNat * 262144 + y2.toNat * 128 = x) (h : n = 121 + 33554432 * k) (hk : k < 128) :
    x < 2 ^ 32 ∧ x % 2 = 1 ∧ fld x 6 1 = 60 ∧ fld x 31 25 = k ∧ (bv x 17 11 : BitVec 7) = y0 ∧ (bv x 24 18 : BitVec 7) = y1 ∧ (bv x 10 7 : BitVec 4) = y2 := by
  have := y0.isLt; have := y1.isLt; have := y2.isLt
  repeat' apply And.intro
  all_goals first | (apply bv_eq; unfold fld; omega) | (unfold fld; omega) | omega
theorem form14 (n x k : Nat) (y0 : BitVec 7) (y1 : BitVec 6) (y2 : BitVec 4) (e : n + y0.toNat * 2048 + y1.toNat * 262144 + y2.toNat * 128 = x) (h : n = 121 + 33554432 * k) (hk : k < 128) :
    x < 2 ^ 32 ∧ x % 2 = 1 ∧ fld x 6 1 = 60 ∧ fld x 31 25 = k ∧ (bv x 17 11 : BitVec 7) = y0 ∧ (bv x 23 18 : BitVec 6) = y1 ∧ (bv x 10 7 : BitVec 4) = y2 ∧ fld x 24 24 = 0 := by
  have := y0.isLt; have := y1.isLt; have := y2.isLt
  repeat' apply And.intro
  all_goals first | (apply bv_eq; unfold fld; omega) | (unfold fld; omega) | omega
theorem form15 (n x k : Nat) (y0 : BitVec 7) (y1 : BitVec 7) (y2 : BitVec 4) (y3 : BitVec 4) (e : n + y0.toNat * 2048 + y1.toNat * 262144 + y2.toNat * 33554432 + y3.toNat * 128 = x) (h : n = 121 + 33554432 * k) (hk : k + 16 ≤ 128) (hm : k % 16 = 0) :
    x < 2 ^ 32 ∧ x % 2 = 1 ∧ fld x 6 1 = 60 ∧ fld x 31 25 = k + y2.toNat ∧ (bv x 17 11 : BitVec 7) = y0 ∧ (bv x 24 18 : BitVec 7) = y1 ∧ (bv x 28 25 : BitVec 4) = y2 ∧ (bv x 10 7 : BitVec 4) = y3 := by
  have := y0.isLt; have := y1.isLt; have := y2.isLt; have := y3.isLt
  repeat' apply And.intro
  all_goals first | (apply bv_eq; unfold fld; omega) | (unfold fld; omega) | omega
theorem form16 (n x k : Nat) (y0 : BitVec 3) (y1 : BitVec 3) (y2 : BitVec 4) (e : n + y0.toNat * 2048 + y1.toNat * 262144 + y2.toNat * 128 = x) (h : n = 123 + 33554432 * k) (hk : k < 128) :
    x < 2 ^ 32 ∧ x % 2 = 1 ∧ fld x 6 1 = 61 ∧ fld x 31 25 = k ∧ (bv x 13 11 : BitVec 3) = y0 ∧ (bv x 20 18 : BitVec 3) = y1 ∧ (bv x 10 7 : BitVec 4) = y2 ∧ fld x 24 21 = 0 ∧ fld x 17 14 = 0 := by
  have := y0.isLt; have := y1.isLt; have := y2.isLt
  repeat' apply And.intro
  all_goals first | (apply bv_eq; unfold fld; omega) | (unfold fld; omega) | omega
theorem form17 (n x k : Nat) (y0 : BitVec 6) (y1 : BitVec 3) (y2 : BitVec 4) (e : n + y0.toNat * 2048 + y1.toNat * 262144 + y2.toNat * 128 = x) (h : n = 123 + 33554432 * k) (hk : k < 128) :
    x < 2 ^ 32 ∧ x % 2 = 1 ∧ fld x 6 1 = 61 ∧ fld x 31 25 = k ∧ (bv x 16 11 : BitVec 6) = y0 ∧ (bv x 20 18 : BitVec 3) = y1 ∧ (bv x 10 7 : BitVec 4) = y2 ∧ fld x 24 21 = 0 ∧ fld x 17 17 = 0 := by
  have := y0.isLt; have := y1.isLt; have := y2.isLt
  repeat' apply And.intro
  all_goals first | (apply bv_eq; unfold fld; omega) | (unfold fld; omega) | omega
theorem form18 (n x k : Nat) (y0 : BitVec 7) (y1 : BitVec 7) (y2 : BitVec 4) (e : n + y0.toNat * 2048 + y1.toNat * 262144 + y2.toNat * 128 = x) (h : n = 123 + 33554432 * k) (hk : k < 128) :
    x < 2 ^ 32 ∧ x % 2 = 1 ∧ fld x 6 1 = 61 ∧ fld x 31 25 = k ∧ (bv x 17 11 : BitVec 7) = y0 ∧ (bv x 24 18 : BitVec 7) = y1 ∧ (bv x 10 7 : BitVec 4) = y2 := by
  have := y0.isLt; have := y1.isLt; have := y2.isLt
  repeat' apply And.intro
  all_goals first | (apply bv_eq; unfold fld; omega) | (unfold fld; omega) | omega
theorem form19 (n x k : Nat) (y0 : BitVec 6) (y1 : BitVec 7) (y2 : BitVec 4) (e : n + y0.toNat * 2048 + y1.toNat * 262144 + y2.toNat * 128 = x) (h : n = 123 + 33554432 * k) (hk : k < 128) :
    x < 2 ^ 32 ∧ x % 2 = 1 ∧ fld x 6 1 = 61 ∧ fld x 31 25 = k ∧ (bv x 16 11 : BitVec 6) = y0 ∧ (bv x 24 18 : BitVec 7) = y1 ∧ (bv x 10 7 : BitVec 4) = y2 ∧ fld x 17 17 = 0 := by
  have := y0.isLt; have := y1.isLt; have := y2.isLt
  repeat' apply And.intro
  all_goals first | (apply bv_eq; unfold fld; omega) | (unfold fld; omega) | omega
theorem form20 (n x k : Nat) (y0 : BitVec 7) (y1 : BitVec 4) (e : n + y0.toNat * 2048 + y1.toNat * 128 = x) (h : n = 123 + 33554432 * k) (hk : k < 128) :
    x < 2 ^ 32 ∧ x % 2 = 1 ∧ fld x 6 1 = 61 ∧ fld x 31 25 = k ∧ (bv x 17 11 : BitVec 7) = y0 ∧ (bv x 10 7 : BitVec 4) = y1 ∧ fld x 24 18 = 0 := by
  have := y0.isLt; have := y1.isLt
  repeat' apply And.intro
  all_goals first | (apply bv_eq; unfold fld; omega) | (unfold fld; omega) | omega
theorem form21 (n x k : Nat) (y0 : BitVec 7) (y1 : BitVec 4) (e : n + y0.toNat * 262144 + y1.toNat * 128 = x) (h : n = 123 + 33554432 * k) (hk : k < 128) :
    x < 2 ^ 32 ∧ x % 2 = 1 ∧ fld x 6 1 = 61 ∧ fld x 31 25 = k ∧ (bv x 24 18 : BitVec 7) = y0 ∧ (bv x 10 7 : BitVec 4) = y1 ∧ fld x 17 11 = 0 := by
  have := y0.isLt; have := y1.isLt
  repeat' apply And.intro
  all_goals first | (apply bv_eq; unfold fld; omega) | (unfold fld; omega) | omega
theorem form22 (n x k : Nat) (y0 : BitVec 3) (y1 : BitVec 7) (y2 : BitVec 2) (y3 : BitVec 4) (e : n + y0.toNat * 2048 + y1.toNat * 262144 + y2.toNat * 33554432 + y3.toNat * 128 = x) (h : n = 123 + 33554432 * k) (hk : k + 4 ≤ 128) (hm : k % 4 = 0) :
    x < 2 ^ 32 ∧ x % 2 = 1 ∧ fld x 6 1 = 61 ∧ fld x 31 25 = k + y2.toNat ∧ (bv x 13 11 : BitVec 3) = y0 ∧ (bv x 24 18 : BitVec 7) = y1 ∧ (bv x 26 25 : BitVec 2) = y2 ∧ (bv x 10 7 : BitVec 4) = y3 ∧ fld x 17 14 = 0 := by
  have := y0.isLt; have := y1.isLt; have := y2.isLt; have := y3.isLt
  repeat' apply And.intro
  all_goals first | (apply bv_eq; unfold fld; omega) | (unfold fld; omega) | omega
theorem form23 (n x k : Nat) (y0 : BitVec 4) (e : n + y0.toNat * 128 = x) (h : n = 123 + 33554432 * k) (hk : k < 128) :
    x < 2 ^ 32 ∧ x % 2 = 1 ∧ fld x 6 1 = 61 ∧ fld x 31 25 = k ∧ (bv x 10 7 : BitVec 4) = y0 ∧ fld x 24 11 = 0 := by
  have := y0.isLt
  repeat' apply And.intro
  all_goals first | (apply bv_eq; unfold fld; omega) | (unfold fld; omega) | omega
theorem form24 (n x k : Nat) (y0 : BitVec 7) (y1 : BitVec 7) (y2 : BitVec 1) (y3 : BitVec 4) (e : n + y0.toNat * 2048 + y1.toNat * 262144 + y2.toNat * 33554432 + y3.toNat * 128 = x) (h : n = 123 + 33554432 * k) (hk : k + 2 ≤ 128) (hm : k % 2 = 0) :
    x < 2 ^ 32 ∧ x % 2 = 1 ∧ fld x 6 1 = 61 ∧ fld x 31 25 = k + y2.toNat ∧ (bv x 17 11 : BitVec 7) = y0 ∧ (bv x 24 18 : BitVec 7) = y1 ∧ (bv x 25 25 : BitVec 1) = y2 ∧ (bv x 10 7 : BitVec 4) = y3 := by
  have := y0.isLt; have := y1.isLt; have := y2.isLt; have := y3.isLt
  repeat' apply And.intro
  all_goals first | (apply bv_eq; unfold fld; omega) | (unfold fld; omega) | omega
theorem form25 (n x k : Nat) (y0 : BitVec 3) (y1 : BitVec 4) (e : n + y0.toNat * 33554432 + y1.toNat * 128 = x) (h : n = 125 + 33554432 * k) (hk : k + 8 ≤ 128) (hm : k % 8 = 0) :
    x < 2 ^ 32 ∧ x % 2 = 1 ∧ fld x 6 1 = 62 ∧ fld x 31 25 = k + y0.toNat ∧ (bv x 27 25 : BitVec 3) = y0 ∧ (bv x 10 7 : BitVec 4) = y1 ∧ fld x 24 11 = 0 := by
  have := y0.isLt; have := y1.isLt
  repeat' apply And.intro
  all_goals first | (apply bv_eq; unfold fld; omega) | (unfold fld; omega) | omega
theorem form26 (n x k : Nat) (y0 : BitVec 2) (y1 : BitVec 3) (e : n + y0.toNat * 33554432 + y1.toNat * 2048 = x) (h : n = 125 + 33554432 * k) (hk : k + 4 ≤ 128) (hm : k % 4 = 0) :
    x < 2 ^ 32 ∧ x % 2 = 1 ∧ fld x 6 1 = 62 ∧ fld x 31 25 = k + y0.toNat ∧ (bv x 26 25 : BitVec 2) = y0 ∧ (bv x 13 11 : BitVec 3) = y1 ∧ fld x 24 14 = 0 ∧ fld x 10 7 = 0 := by
  have := y0.isLt; have := y1.isLt
  repeat' apply And.intro
  all_goals first | (apply bv_eq; unfold fld; omega) | (unfold fld; omega) | omega
theorem form27 (n x k : Nat) (y0 : BitVec 2) (y1 : BitVec 3) (e : n + y0.toNat * 16384 + y1.toNat * 2048 = x) (h : n = 125 + 33554432 * k) (hk : k < 128) :
    x < 2 ^ 32 ∧ x % 2 = 1 ∧ fld x 6 1 = 62 ∧ fld x 31 25 = k ∧ (bv x 15 14 : BitVec 2) = y0 ∧ (bv x 13 11 : BitVec 3) = y1 ∧ fld x 24 16 = 0 ∧ fld x 10 7 = 0 := by
  have := y0.isLt; have := y1.isLt
  repeat' apply And.intro
  all_goals first | (apply bv_eq; unfold fld; omega) | (unfold fld; omega) | omega
theorem form28 (n x k : Nat) (y0 : BitVec 2) (y1 : BitVec 2) (e : n + y0.toNat * 262144 + y1.toNat * 2048 = x) (h : n = 125 + 33554432 * k) (hk : k < 128) :
    x < 2 ^ 32 ∧ x % 2 = 1 ∧ fld x 6 1 = 62 ∧ fld x 31 25 = k ∧ (bv x 19 18 : BitVec 2) = y0 ∧ (bv x 12 11 : BitVec 2) = y1 ∧ fld x 24 20 = 0 ∧ fld x 17 13 = 0 ∧ fld x 10 7 = 0 := by
  have := y0.isLt; have := y1.isLt
  repeat' apply And.intro
  all_goals first | (apply bv_eq; unfold fld; omega) | (unfold fld; omega) | omega
theorem form29 (n x k : Nat) (y0 : BitVec 6) (y1 : BitVec 4) (e : n + y0.toNat * 262144 + y1.toNat * 128 = x) (h : n = 125 + 33554432 * k) (hk : k < 128) :
    x < 2 ^ 32 ∧ x % 2 = 1 ∧ fld x 6 1 = 62 ∧ fld x 31 25 = k ∧ (bv x 23 18 : BitVec 6) = y0 ∧ (bv x 10 7 : BitVec 4) = y1 ∧ fld x 24 24 = 0 ∧ fld x 17 11 = 0 := by
  have := y0.isLt; have := y1.isLt
  repeat' apply And.intro
  all_goals first | (apply bv_eq; unfold fld; omega) | (unfold fld; omega) | omega
theorem form30 (n x k : Nat) (y0 : BitVec 6) (y1 : BitVec 4) (e : n + y0.toNat * 2048 + y1.toNat * 128 = x) (h : n = 125 + 33554432 * k) (hk : k < 128) :
    x < 2 ^ 32 ∧ x % 2 = 1 ∧ fld x 6 1 = 62 ∧ fld x 31 25 = k ∧ (bv x 16 11 : BitVec 6) = y0 ∧ (bv x 10 7 : BitVec 4) = y1 ∧ fld x 24 17 = 0 := by
  have := y0.isLt; have := y1.isLt
  repeat' apply And.intro
  all_goals first | (apply bv_eq; unfold fld; omega) | (unfold fld; omega) | omega
theorem form31 (n x k : Nat) (y0 : BitVec 6) (y1 : BitVec 6) (y2 : BitVec 4) (e : n + y0.toNat * 2048 + y1.toNat * 262144 + y2.toNat * 128 = x) (h : n = 125 + 33554432 * k) (hk : k < 128) :
    x < 2 ^ 32 ∧ x % 2 = 1 ∧ fld x 6 1 = 62 ∧ fld x 31 25 = k ∧ (bv x 16 11 : BitVec 6) = y0 ∧ (bv x 23 18 : BitVec 6) = y1 ∧ (bv x 10 7 : BitVec 4) = y2 ∧ fld x 24 24 = 0 ∧ fld x 17 17 = 0 := by
  have := y0.isLt; have := y1.isLt; have := y2.isLt
  repeat' apply And.intro
  all_goals first | (apply bv_eq; unfold fld; omega) | (unfold fld; omega) | omega
theorem form32 (n x k : Nat) (y0 : BitVec 4) (e : n + y0.toNat * 128 = x) (h : n = 125 + 33554432 * k) (hk : k < 128) :
    x < 2 ^ 32 ∧ x % 2 = 1 ∧ fld x 6 1 = 62 ∧ fld x 31 25 = k ∧ (bv x 10 7 : BitVec 4) = y0 ∧ fld x 24 11 = 0 := by
  have := y0.isLt
  repeat' apply And.intro
  all_goals first | (apply bv_eq; unfold fld; omega) | (unfold fld; omega) | omega
theorem form33 (n x k : Nat) (y0 : BitVec 7) (y1 : BitVec 4) (e : n + y0.toNat * 262144 + y1.toNat * 128 = x) (h : n = 125 + 33554432 * k) (hk : k < 128) :
    x < 2 ^ 32 ∧ x % 2 = 1 ∧ fld x 6 1 = 62 ∧ fld x 31 25 = k ∧ (bv x 24 18 : BitVec 7) = y0 ∧ (bv x 10 7 : BitVec 4) = y1 ∧ fld x 17 11 = 0 := by
  have := y0.isLt; have := y1.isLt
  repeat' apply And.intro
  all_goals first | (apply bv_eq; unfold fld; omega) | (unfold fld; omega) | omega
theorem form34 (n x k : Nat) (y0 : BitVec 7) (e : n + y0.toNat * 2048 = x) (h : n = 125 + 33554432 * k) (hk : k < 128) :
    x < 2 ^ 32 ∧ x % 2 = 1 ∧ fld x 6 1 = 62 ∧ fld x 31 25 = k ∧ (bv x 17 11 : BitVec 7) = y0 ∧ fld x 24 18 = 0 ∧ fld x 10 7 = 0 := by
  have := y0.isLt
  repeat' apply And.intro
  all_goals first | (apply bv_eq; unfold fld; omega) | (unfold fld; omega) | omega
theorem form35 (n x k : Nat) (y0 : BitVec 7) (y1 : BitVec 4) (e : n + y0.toNat * 2048 + y1.toNat * 128 = x) (h : n = 125 + 33554432 * k) (hk : k < 128) :
    x < 2 ^ 32 ∧ x % 2 = 1 ∧ fld x 6 1 = 62 ∧ fld x 31 25 = k ∧ (bv x 17 11 : BitVec 7) = y0 ∧ (bv x 10 7 : BitVec 4) = y1 ∧ fld x 24 18 = 0 := by
  have := y0.isLt; have := y1.isLt
  repeat' apply And.intro
  all_goals first | (apply bv_eq; unfold fld; omega) | (unfold fld; omega) | omega
theorem form36 (n x k : Nat) (y0 : BitVec 7) (y1 : BitVec 6) (y2 : BitVec 2) (y3 : BitVec 4) (e : n + y0.toNat * 2048 + y1.toNat * 262144 + y2.toNat * 33554432 + y3.toNat * 128 = x) (h : n = 125 + 33554432 * k) (hk : k + 4 ≤ 128) (hm : k % 4 = 0) :
    x < 2 ^ 32 ∧ x % 2 = 1 ∧ fld x 6 1 = 62 ∧ fld x 31 25 = k + y2.toNat ∧ (bv x 17 11 : BitVec 7) = y0 ∧ (bv x 23 18 : BitVec 6) = y1 ∧ (bv x 26 25 : BitVec 2) = y2 ∧ (bv x 10 7 : BitVec 4) = y3 ∧ fld x 24 24 = 0 := by
  have := y0.isLt; have := y1.isLt; have := y2.isLt; have := y3.isLt
  repeat' apply And.intro
  all_goals first | (apply bv_eq; unfold fld; omega) | (unfold fld; omega) | omega
theorem form37 (n x k : Nat) (y0 : BitVec 4) (y1 : BitVec 4) (e : n + y0.toNat * 262144 + y1.toNat * 128 = x) (h : n = 125 + 33554432 * k) (hk : k < 128) :
    x < 2 ^ 32 ∧ x % 2 = 1 ∧ fld x 6 1 = 62 ∧ fld x 31 25 = k ∧ (bv x 21 18 : BitVec 4) = y0 ∧ (bv x 10 7 : BitVec 4) = y1 ∧ fld x 24 22 = 0 ∧ fld x 17 11 = 0 := by
  have := y0.isLt; have := y1.isLt
  repeat' apply And.intro
  all_goals first | (apply bv_eq; unfold fld; omega) | (unfold fld; omega) | omega
theorem form38 (n x k : Nat) (y0 : BitVec 7) (y1 : BitVec 2) (y2 : BitVec 4) (y3 : BitVec 4) (e : n + y0.toNat * 2048 + y1.toNat * 4194304 + y2.toNat * 262144 + y3.toNat * 128 = x) (h : n = 125 + 33554432 * k) (hk : k < 128) :
    x < 2 ^ 32 ∧ x % 2 = 1 ∧ fld x 6 1 = 62 ∧ fld x 31 25 = k ∧ (bv x 17 11 : BitVec 7) = y0 ∧ (bv x 23 22 : BitVec 2) = y1 ∧ (bv x 21 18 : BitVec 4) = y2 ∧ (bv x 10 7 : BitVec 4) = y3 ∧ fld x 24 24 = 0 := by
  have := y0.isLt; have := y1.isLt; have := y2.isLt; have := y3.isLt
  repeat' apply And.intro
  all_goals first | (apply bv_eq; unfold fld; omega) | (unfold fld; omega) | omega
theorem form39 (n x k : Nat) (e : n = x) (h : n = 125 + 33554432 * k) (hk : k < 128) :
    x < 2 ^ 32 ∧ x % 2 = 1 ∧ fld x 6 1 = 62 ∧ fld x 31 25 = k ∧ fld x 24 7 = 0 := by
  repeat' apply And.intro
  all_goals first | (apply bv_eq; unfold fld; omega) | (unfold fld; omega) | omega
theorem form40 (n x k : Nat) (y0 : BitVec 7) (y1 : BitVec 3) (y2 : BitVec 3) (y3 : BitVec 4) (e : n + y0.toNat * 2048 + y1.toNat * 2097152 + y2.toNat * 262144 + y3.toNat * 128 = x) (h : n = 125 + 33554432 * k) (hk : k < 128) :
    x < 2 ^ 32 ∧ x % 2 = 1 ∧ fld x 6 1 = 62 ∧ fld x 31 25 = k ∧ (bv x 17 11 : BitVec 7) = y0 ∧ (bv x 23 21 : BitVec 3) = y1 ∧ (bv x 20 18 : BitVec 3) = y2 ∧ (bv x 10 7 : BitVec 4) = y3 ∧ fld x 24 24 = 0 := by
  have := y0.isLt; have := y1.isLt; have := y2.isLt; have := y3.isLt
  repeat' apply And.intro
  all_goals first | (apply bv_eq; unfold fld; omega) | (unfold fld; omega) | omega
theorem form41 (n x k : Nat) (y0 : BitVec 6) (y1 : BitVec 6) (y2 : BitVec 4) (e : n + y0.toNat * 2048 + y1.toNat * 262144 + y2.toNat * 128 = x) (h : n = 127 + 33554432 * k) (hk : k < 128) :
    x < 2 ^ 32 ∧ x % 2 = 1 ∧ fld x 6 1 = 63 ∧ fld x 31 25 = k ∧ (bv x 16 11 : BitVec 6) = y0 ∧ (bv x 23 18 : BitVec 6) = y1 ∧ (bv x 10 7 : BitVec 4) = y2 ∧ fld x 24 24 = 0 ∧ fld x 17 17 = 0 := by
  have := y0.isLt; have := y1.isLt; have := y2.isLt
  repeat' apply And.intro
  all_goals first | (apply bv_eq; unfold fld; omega) | (unfold fld; omega) | omega
theorem form42 (n x k : Nat) (y0 : BitVec 7) (y1 : BitVec 7) (y2 : BitVec 4) (e : n + y0.toNat * 2048 + y1.toNat * 262144 + y2.toNat * 128 = x) (h : n = 127 + 33554432 * k) (hk : k < 128) :
    x < 2 ^ 32 ∧ x % 2 = 1 ∧ fld x 6 1 = 63 ∧ fld x 31 25 = k ∧ (bv x 17 11 : BitVec 7) = y0 ∧ (bv x 24 18 : BitVec 7) = y1 ∧ (bv x 10 7 : BitVec 4) = y2 := by
  have := y0.isLt; have := y1.isLt; have := y2.isLt
  repeat' apply And.intro
  all_goals first | (apply bv_eq; unfold fld; omega) | (unfold fld; omega) | omega
theorem form43 (n x k : Nat) (y0 : BitVec 7) (y1 : BitVec 6) (e : n + y0.toNat * 2048 + y1.toNat * 262144 = x) (h : n = 127 + 33554432 * k) (hk : k < 128) :
    x < 2 ^ 32 ∧ x % 2 = 1 ∧ fld x 6 1 = 63 ∧ fld x 31 25 = k ∧ (bv x 17 11 : BitVec 7) = y0 ∧ (bv x 23 18 : BitVec 6) = y1 ∧ fld x 24 24 = 0 ∧ fld x 10 7 = 0 := by
  have := y0.isLt; have := y1.isLt
  repeat' apply And.intro
  all_goals first | (apply bv_eq; unfold fld; omega) | (unfold fld; omega) | omega
theorem form44 (n x k : Nat) (y0 : BitVec 6) (y1 : BitVec 7) (y2 : BitVec 4) (e : n + y0.toNat * 2048 + y1.toNat * 262144 + y2.toNat * 128 = x) (h : n = 127 + 33554432 * k) (hk : k < 128) :
    x < 2 ^ 32 ∧ x % 2 = 1 ∧ fld x 6 1 = 63 ∧ fld x 31 25 = k ∧ (bv x 16 11 : BitVec 6) = y0 ∧ (bv x 24 18 : BitVec 7) = y1 ∧ (bv x 10 7 : BitVec 4) = y2 ∧ fld x 17 17 = 0 := by
  have := y0.isLt; have := y1.isLt; have := y2.isLt
  repeat' apply And.intro
  all_goals first | (apply bv_eq; unfold fld; omega) | (unfold fld; omega) | omega
theorem form45 (n x k : Nat) (y0 : BitVec 6) (y1 : BitVec 4) (e : n + y0.toNat * 2048 + y1.toNat * 128 = x) (h : n = 127 + 33554432 * k) (hk : k < 128) :
    x < 2 ^ 32 ∧ x % 2 = 1 ∧ fld x 6 1 = 63 ∧ fld x 31 25 = k ∧ (bv x 16 11 : BitVec 6) = y0 ∧ (bv x 10 7 : BitVec 4) = y1 ∧ fld x 24 17 = 0 := by
  have := y0.isLt; have := y1.isLt
  repeat' apply And.intro
  all_goals first | (apply bv_eq; unfold fld; omega) | (unfold fld; omega) | omega

/-! ## The lemmas -/

theorem RoundTrip.mov16 (d : BitVec 6) (b : BitVec 5) : RoundTrip.Statement (.mov16 d b) := by
  intro ok x he rest
  have e := Option.some.inj he
  have hd := d.isLt; have hb := b.isLt
  refine decode_short x _ rest (by omega) (by omega) ?_
  have nz : ¬ (x == 0) = true := by simp [Instr.wf, ← BitVec.toNat_inj] at ok ⊢; omega
  have m : fld x 4 1 = 0 := by unfold fld; omega
  rw [decode16, if_neg nz, m]
  show some (Instr.mov16 (bv x 10 5) (bv x 15 11)) = _
  rw [bv_eq x 10 5 d (by unfold fld; omega), bv_eq x 15 11 b (by unfold fld; omega)]
theorem RoundTrip.add16 (d : BitVec 6) (b : BitVec 5) : RoundTrip.Statement (.add16 d b) := by
  intro ok x he rest
  have e := Option.some.inj he
  have hd := d.isLt; have hb := b.isLt
  refine decode_short x _ rest (by omega) (by omega) ?_
  have nz : ¬ (x == 0) = true := by simp; omega
  have m : fld x 4 1 = 1 := by unfold fld; omega
  rw [decode16, if_neg nz, m]
  show some (Instr.add16 (bv x 10 5) (bv x 15 11)) = _
  rw [bv_eq x 10 5 d (by unfold fld; omega), bv_eq x 15 11 b (by unfold fld; omega)]
theorem RoundTrip.sub16 (d : BitVec 6) (b : BitVec 5) : RoundTrip.Statement (.sub16 d b) := by
  intro ok x he rest
  have e := Option.some.inj he
  have hd := d.isLt; have hb := b.isLt
  refine decode_short x _ rest (by omega) (by omega) ?_
  have nz : ¬ (x == 0) = true := by simp; omega
  have m : fld x 4 1 = 2 := by unfold fld; omega
  rw [decode16, if_neg nz, m]
  show some (Instr.sub16 (bv x 10 5) (bv x 15 11)) = _
  rw [bv_eq x 10 5 d (by unfold fld; omega), bv_eq x 15 11 b (by unfold fld; omega)]
theorem RoundTrip.mul16 (d : BitVec 6) (b : BitVec 5) : RoundTrip.Statement (.mul16 d b) := by
  intro ok x he rest
  have e := Option.some.inj he
  have hd := d.isLt; have hb := b.isLt
  refine decode_short x _ rest (by omega) (by omega) ?_
  have nz : ¬ (x == 0) = true := by simp; omega
  have m : fld x 4 1 = 3 := by unfold fld; omega
  rw [decode16, if_neg nz, m]
  show some (Instr.mul16 (bv x 10 5) (bv x 15 11)) = _
  rw [bv_eq x 10 5 d (by unfold fld; omega), bv_eq x 15 11 b (by unfold fld; omega)]
theorem RoundTrip.and16 (d : BitVec 6) (b : BitVec 5) : RoundTrip.Statement (.and16 d b) := by
  intro ok x he rest
  have e := Option.some.inj he
  have hd := d.isLt; have hb := b.isLt
  refine decode_short x _ rest (by omega) (by omega) ?_
  have nz : ¬ (x == 0) = true := by simp; omega
  have m : fld x 4 1 = 4 := by unfold fld; omega
  rw [decode16, if_neg nz, m]
  show some (Instr.and16 (bv x 10 5) (bv x 15 11)) = _
  rw [bv_eq x 10 5 d (by unfold fld; omega), bv_eq x 15 11 b (by unfold fld; omega)]
theorem RoundTrip.or16 (d : BitVec 6) (b : BitVec 5) : RoundTrip.Statement (.or16 d b) := by
  intro ok x he rest
  have e := Option.some.inj he
  have hd := d.isLt; have hb := b.isLt
  refine decode_short x _ rest (by omega) (by omega) ?_
  have nz : ¬ (x == 0) = true := by simp; omega
  have m : fld x 4 1 = 5 := by unfold fld; omega
  rw [decode16, if_neg nz, m]
  show some (Instr.or16 (bv x 10 5) (bv x 15 11)) = _
  rw [bv_eq x 10 5 d (by unfold fld; omega), bv_eq x 15 11 b (by unfold fld; omega)]
theorem RoundTrip.xor16 (d : BitVec 6) (b : BitVec 5) : RoundTrip.Statement (.xor16 d b) := by
  intro ok x he rest
  have e := Option.some.inj he
  have hd := d.isLt; have hb := b.isLt
  refine decode_short x _ rest (by omega) (by omega) ?_
  have nz : ¬ (x == 0) = true := by simp; omega
  have m : fld x 4 1 = 6 := by unfold fld; omega
  rw [decode16, if_neg nz, m]
  show some (Instr.xor16 (bv x 10 5) (bv x 15 11)) = _
  rw [bv_eq x 10 5 d (by unfold fld; omega), bv_eq x 15 11 b (by unfold fld; omega)]
theorem RoundTrip.shl16 (d : BitVec 6) (b : BitVec 5) : RoundTrip.Statement (.shl16 d b) := by
  intro ok x he rest
  have e := Option.some.inj he
  have hd := d.isLt; have hb := b.isLt
  refine decode_short x _ rest (by omega) (by omega) ?_
  have nz : ¬ (x == 0) = true := by simp; omega
  have m : fld x 4 1 = 7 := by unfold fld; omega
  rw [decode16, if_neg nz, m]
  show some (Instr.shl16 (bv x 10 5) (bv x 15 11)) = _
  rw [bv_eq x 10 5 d (by unfold fld; omega), bv_eq x 15 11 b (by unfold fld; omega)]
theorem RoundTrip.shr16 (d : BitVec 6) (b : BitVec 5) : RoundTrip.Statement (.shr16 d b) := by
  intro ok x he rest
  have e := Option.some.inj he
  have hd := d.isLt; have hb := b.isLt
  refine decode_short x _ rest (by omega) (by omega) ?_
  have nz : ¬ (x == 0) = true := by simp; omega
  have m : fld x 4 1 = 8 := by unfold fld; omega
  rw [decode16, if_neg nz, m]
  show some (Instr.shr16 (bv x 10 5) (bv x 15 11)) = _
  rw [bv_eq x 10 5 d (by unfold fld; omega), bv_eq x 15 11 b (by unfold fld; omega)]
theorem RoundTrip.min16 (d : BitVec 6) (b : BitVec 5) : RoundTrip.Statement (.min16 d b) := by
  intro ok x he rest
  have e := Option.some.inj he
  have hd := d.isLt; have hb := b.isLt
  refine decode_short x _ rest (by omega) (by omega) ?_
  have nz : ¬ (x == 0) = true := by simp; omega
  have m : fld x 4 1 = 9 := by unfold fld; omega
  rw [decode16, if_neg nz, m]
  show some (Instr.min16 (bv x 10 5) (bv x 15 11)) = _
  rw [bv_eq x 10 5 d (by unfold fld; omega), bv_eq x 15 11 b (by unfold fld; omega)]
theorem RoundTrip.max16 (d : BitVec 6) (b : BitVec 5) : RoundTrip.Statement (.max16 d b) := by
  intro ok x he rest
  have e := Option.some.inj he
  have hd := d.isLt; have hb := b.isLt
  refine decode_short x _ rest (by omega) (by omega) ?_
  have nz : ¬ (x == 0) = true := by simp; omega
  have m : fld x 4 1 = 10 := by unfold fld; omega
  rw [decode16, if_neg nz, m]
  show some (Instr.max16 (bv x 10 5) (bv x 15 11)) = _
  rw [bv_eq x 10 5 d (by unfold fld; omega), bv_eq x 15 11 b (by unfold fld; omega)]
theorem RoundTrip.fadd16 (d : BitVec 6) (b : BitVec 5) : RoundTrip.Statement (.fadd16 d b) := by
  intro ok x he rest
  have e := Option.some.inj he
  have hd := d.isLt; have hb := b.isLt
  refine decode_short x _ rest (by omega) (by omega) ?_
  have nz : ¬ (x == 0) = true := by simp; omega
  have m : fld x 4 1 = 11 := by unfold fld; omega
  rw [decode16, if_neg nz, m]
  show some (Instr.fadd16 (bv x 10 5) (bv x 15 11)) = _
  rw [bv_eq x 10 5 d (by unfold fld; omega), bv_eq x 15 11 b (by unfold fld; omega)]
theorem RoundTrip.fsub16 (d : BitVec 6) (b : BitVec 5) : RoundTrip.Statement (.fsub16 d b) := by
  intro ok x he rest
  have e := Option.some.inj he
  have hd := d.isLt; have hb := b.isLt
  refine decode_short x _ rest (by omega) (by omega) ?_
  have nz : ¬ (x == 0) = true := by simp; omega
  have m : fld x 4 1 = 12 := by unfold fld; omega
  rw [decode16, if_neg nz, m]
  show some (Instr.fsub16 (bv x 10 5) (bv x 15 11)) = _
  rw [bv_eq x 10 5 d (by unfold fld; omega), bv_eq x 15 11 b (by unfold fld; omega)]
theorem RoundTrip.fmul16 (d : BitVec 6) (b : BitVec 5) : RoundTrip.Statement (.fmul16 d b) := by
  intro ok x he rest
  have e := Option.some.inj he
  have hd := d.isLt; have hb := b.isLt
  refine decode_short x _ rest (by omega) (by omega) ?_
  have nz : ¬ (x == 0) = true := by simp; omega
  have m : fld x 4 1 = 13 := by unfold fld; omega
  rw [decode16, if_neg nz, m]
  show some (Instr.fmul16 (bv x 10 5) (bv x 15 11)) = _
  rw [bv_eq x 10 5 d (by unfold fld; omega), bv_eq x 15 11 b (by unfold fld; omega)]
theorem RoundTrip.fmin16 (d : BitVec 6) (b : BitVec 5) : RoundTrip.Statement (.fmin16 d b) := by
  intro ok x he rest
  have e := Option.some.inj he
  have hd := d.isLt; have hb := b.isLt
  refine decode_short x _ rest (by omega) (by omega) ?_
  have nz : ¬ (x == 0) = true := by simp; omega
  have m : fld x 4 1 = 14 := by unfold fld; omega
  rw [decode16, if_neg nz, m]
  show some (Instr.fmin16 (bv x 10 5) (bv x 15 11)) = _
  rw [bv_eq x 10 5 d (by unfold fld; omega), bv_eq x 15 11 b (by unfold fld; omega)]
theorem RoundTrip.fmax16 (d : BitVec 6) (b : BitVec 5) : RoundTrip.Statement (.fmax16 d b) := by
  intro ok x he rest
  have e := Option.some.inj he
  have hd := d.isLt; have hb := b.isLt
  refine decode_short x _ rest (by omega) (by omega) ?_
  have nz : ¬ (x == 0) = true := by simp; omega
  have m : fld x 4 1 = 15 := by unfold fld; omega
  rw [decode16, if_neg nz, m]
  show some (Instr.fmax16 (bv x 10 5) (bv x 15 11)) = _
  rw [bv_eq x 10 5 d (by unfold fld; omega), bv_eq x 15 11 b (by unfold fld; omega)]
theorem RoundTrip.nop : RoundTrip.Statement .nop := fun _ _ he rest => by cases he; rfl
theorem RoundTrip.add (d : BitVec 7) (a : BitVec 7) (b : BitVec 7) (g : BitVec 4) : RoundTrip.Statement (.add d a b g) := by
  intro ok x he rest
  obtain ⟨hb, ho, m, f0, f1, f2, f3⟩ := form0 _ x 1 d a b g (Option.some.inj he) rfl (by decide)
  refine decode_long x _ rest hb ho ?_
  rw [decode32, m]
  show leaf true (Instr.add (bv x 17 11) (bv x 24 18) (bv x 31 25) (bv x 10 7)) = _
  rw [f0, f1, f2, f3]; exact leaf_ok _ ok
theorem RoundTrip.sub (d : BitVec 7) (a : BitVec 7) (b : BitVec 7) (g : BitVec 4) : RoundTrip.Statement (.sub d a b g) := by
  intro ok x he rest
  obtain ⟨hb, ho, m, f0, f1, f2, f3⟩ := form0 _ x 2 d a b g (Option.some.inj he) rfl (by decide)
  refine decode_long x _ rest hb ho ?_
  rw [decode32, m]
  show leaf true (Instr.sub (bv x 17 11) (bv x 24 18) (bv x 31 25) (bv x 10 7)) = _
  rw [f0, f1, f2, f3]; exact leaf_ok _ ok
theorem RoundTrip.mul (d : BitVec 7) (a : BitVec 7) (b : BitVec 7) (g : BitVec 4) : RoundTrip.Statement (.mul d a b g) := by
  intro ok x he rest
  obtain ⟨hb, ho, m, f0, f1, f2, f3⟩ := form0 _ x 3 d a b g (Option.some.inj he) rfl (by decide)
  refine decode_long x _ rest hb ho ?_
  rw [decode32, m]
  show leaf true (Instr.mul (bv x 17 11) (bv x 24 18) (bv x 31 25) (bv x 10 7)) = _
  rw [f0, f1, f2, f3]; exact leaf_ok _ ok
theorem RoundTrip.mulh (d : BitVec 7) (a : BitVec 7) (b : BitVec 7) (g : BitVec 4) : RoundTrip.Statement (.mulh d a b g) := by
  intro ok x he rest
  obtain ⟨hb, ho, m, f0, f1, f2, f3⟩ := form0 _ x 4 d a b g (Option.some.inj he) rfl (by decide)
  refine decode_long x _ rest hb ho ?_
  rw [decode32, m]
  show leaf true (Instr.mulh (bv x 17 11) (bv x 24 18) (bv x 31 25) (bv x 10 7)) = _
  rw [f0, f1, f2, f3]; exact leaf_ok _ ok
theorem RoundTrip.mad (d : BitVec 7) (a : BitVec 7) (b : BitVec 7) (g : BitVec 4) : RoundTrip.Statement (.mad d a b g) := by
  intro ok x he rest
  obtain ⟨hb, ho, m, f0, f1, f2, f3⟩ := form0 _ x 5 d a b g (Option.some.inj he) rfl (by decide)
  refine decode_long x _ rest hb ho ?_
  rw [decode32, m]
  show leaf true (Instr.mad (bv x 17 11) (bv x 24 18) (bv x 31 25) (bv x 10 7)) = _
  rw [f0, f1, f2, f3]; exact leaf_ok _ ok
theorem RoundTrip.min (d : BitVec 7) (a : BitVec 7) (b : BitVec 7) (g : BitVec 4) : RoundTrip.Statement (.min d a b g) := by
  intro ok x he rest
  obtain ⟨hb, ho, m, f0, f1, f2, f3⟩ := form0 _ x 6 d a b g (Option.some.inj he) rfl (by decide)
  refine decode_long x _ rest hb ho ?_
  rw [decode32, m]
  show leaf true (Instr.min (bv x 17 11) (bv x 24 18) (bv x 31 25) (bv x 10 7)) = _
  rw [f0, f1, f2, f3]; exact leaf_ok _ ok
theorem RoundTrip.max (d : BitVec 7) (a : BitVec 7) (b : BitVec 7) (g : BitVec 4) : RoundTrip.Statement (.max d a b g) := by
  intro ok x he rest
  obtain ⟨hb, ho, m, f0, f1, f2, f3⟩ := form0 _ x 7 d a b g (Option.some.inj he) rfl (by decide)
  refine decode_long x _ rest hb ho ?_
  rw [decode32, m]
  show leaf true (Instr.max (bv x 17 11) (bv x 24 18) (bv x 31 25) (bv x 10 7)) = _
  rw [f0, f1, f2, f3]; exact leaf_ok _ ok
theorem RoundTrip.and (d : BitVec 7) (a : BitVec 7) (b : BitVec 7) (g : BitVec 4) : RoundTrip.Statement (.and d a b g) := by
  intro ok x he rest
  obtain ⟨hb, ho, m, f0, f1, f2, f3⟩ := form0 _ x 8 d a b g (Option.some.inj he) rfl (by decide)
  refine decode_long x _ rest hb ho ?_
  rw [decode32, m]
  show leaf true (Instr.and (bv x 17 11) (bv x 24 18) (bv x 31 25) (bv x 10 7)) = _
  rw [f0, f1, f2, f3]; exact leaf_ok _ ok
theorem RoundTrip.or (d : BitVec 7) (a : BitVec 7) (b : BitVec 7) (g : BitVec 4) : RoundTrip.Statement (.or d a b g) := by
  intro ok x he rest
  obtain ⟨hb, ho, m, f0, f1, f2, f3⟩ := form0 _ x 9 d a b g (Option.some.inj he) rfl (by decide)
  refine decode_long x _ rest hb ho ?_
  rw [decode32, m]
  show leaf true (Instr.or (bv x 17 11) (bv x 24 18) (bv x 31 25) (bv x 10 7)) = _
  rw [f0, f1, f2, f3]; exact leaf_ok _ ok
theorem RoundTrip.xor (d : BitVec 7) (a : BitVec 7) (b : BitVec 7) (g : BitVec 4) : RoundTrip.Statement (.xor d a b g) := by
  intro ok x he rest
  obtain ⟨hb, ho, m, f0, f1, f2, f3⟩ := form0 _ x 10 d a b g (Option.some.inj he) rfl (by decide)
  refine decode_long x _ rest hb ho ?_
  rw [decode32, m]
  show leaf true (Instr.xor (bv x 17 11) (bv x 24 18) (bv x 31 25) (bv x 10 7)) = _
  rw [f0, f1, f2, f3]; exact leaf_ok _ ok
theorem RoundTrip.shl (d : BitVec 7) (a : BitVec 7) (b : BitVec 7) (g : BitVec 4) : RoundTrip.Statement (.shl d a b g) := by
  intro ok x he rest
  obtain ⟨hb, ho, m, f0, f1, f2, f3⟩ := form0 _ x 11 d a b g (Option.some.inj he) rfl (by decide)
  refine decode_long x _ rest hb ho ?_
  rw [decode32, m]
  show leaf true (Instr.shl (bv x 17 11) (bv x 24 18) (bv x 31 25) (bv x 10 7)) = _
  rw [f0, f1, f2, f3]; exact leaf_ok _ ok
theorem RoundTrip.shr (d : BitVec 7) (a : BitVec 7) (b : BitVec 7) (g : BitVec 4) : RoundTrip.Statement (.shr d a b g) := by
  intro ok x he rest
  obtain ⟨hb, ho, m, f0, f1, f2, f3⟩ := form0 _ x 12 d a b g (Option.some.inj he) rfl (by decide)
  refine decode_long x _ rest hb ho ?_
  rw [decode32, m]
  show leaf true (Instr.shr (bv x 17 11) (bv x 24 18) (bv x 31 25) (bv x 10 7)) = _
  rw [f0, f1, f2, f3]; exact leaf_ok _ ok
theorem RoundTrip.sar (d : BitVec 7) (a : BitVec 7) (b : BitVec 7) (g : BitVec 4) : RoundTrip.Statement (.sar d a b g) := by
  intro ok x he rest
  obtain ⟨hb, ho, m, f0, f1, f2, f3⟩ := form0 _ x 13 d a b g (Option.some.inj he) rfl (by decide)
  refine decode_long x _ rest hb ho ?_
  rw [decode32, m]
  show leaf true (Instr.sar (bv x 17 11) (bv x 24 18) (bv x 31 25) (bv x 10 7)) = _
  rw [f0, f1, f2, f3]; exact leaf_ok _ ok
theorem RoundTrip.sel (d : BitVec 7) (a : BitVec 7) (b : BitVec 7) (g : BitVec 4) : RoundTrip.Statement (.sel d a b g) := by
  intro ok x he rest
  obtain ⟨hb, ho, m, f0, f1, f2, f3⟩ := form0 _ x 14 d a b g (Option.some.inj he) rfl (by decide)
  refine decode_long x _ rest hb ho ?_
  rw [decode32, m]
  show leaf true (Instr.sel (bv x 17 11) (bv x 24 18) (bv x 31 25) (bv x 10 7)) = _
  rw [f0, f1, f2, f3]; exact leaf_ok _ ok
theorem RoundTrip.shfl (d : BitVec 7) (a : BitVec 7) (b : BitVec 7) (g : BitVec 4) : RoundTrip.Statement (.shfl d a b g) := by
  intro ok x he rest
  obtain ⟨hb, ho, m, f0, f1, f2, f3⟩ := form0 _ x 15 d a b g (Option.some.inj he) rfl (by decide)
  refine decode_long x _ rest hb ho ?_
  rw [decode32, m]
  show leaf true (Instr.shfl (bv x 17 11) (bv x 24 18) (bv x 31 25) (bv x 10 7)) = _
  rw [f0, f1, f2, f3]; exact leaf_ok _ ok
theorem RoundTrip.addi (d : BitVec 7) (a : BitVec 7) (i : BitVec 7) (g : BitVec 4) : RoundTrip.Statement (.addi d a i g) := by
  intro ok x he rest
  obtain ⟨hb, ho, m, f0, f1, f2, f3⟩ := form0 _ x 16 d a i g (Option.some.inj he) rfl (by decide)
  refine decode_long x _ rest hb ho ?_
  rw [decode32, m]
  show leaf true (Instr.addi (bv x 17 11) (bv x 24 18) (bv x 31 25) (bv x 10 7)) = _
  rw [f0, f1, f2, f3]; exact leaf_ok _ ok
theorem RoundTrip.andi (d : BitVec 7) (a : BitVec 7) (i : BitVec 7) (g : BitVec 4) : RoundTrip.Statement (.andi d a i g) := by
  intro ok x he rest
  obtain ⟨hb, ho, m, f0, f1, f2, f3⟩ := form0 _ x 17 d a i g (Option.some.inj he) rfl (by decide)
  refine decode_long x _ rest hb ho ?_
  rw [decode32, m]
  show leaf true (Instr.andi (bv x 17 11) (bv x 24 18) (bv x 31 25) (bv x 10 7)) = _
  rw [f0, f1, f2, f3]; exact leaf_ok _ ok
theorem RoundTrip.ori (d : BitVec 7) (a : BitVec 7) (i : BitVec 7) (g : BitVec 4) : RoundTrip.Statement (.ori d a i g) := by
  intro ok x he rest
  obtain ⟨hb, ho, m, f0, f1, f2, f3⟩ := form0 _ x 18 d a i g (Option.some.inj he) rfl (by decide)
  refine decode_long x _ rest hb ho ?_
  rw [decode32, m]
  show leaf true (Instr.ori (bv x 17 11) (bv x 24 18) (bv x 31 25) (bv x 10 7)) = _
  rw [f0, f1, f2, f3]; exact leaf_ok _ ok
theorem RoundTrip.xori (d : BitVec 7) (a : BitVec 7) (i : BitVec 7) (g : BitVec 4) : RoundTrip.Statement (.xori d a i g) := by
  intro ok x he rest
  obtain ⟨hb, ho, m, f0, f1, f2, f3⟩ := form0 _ x 19 d a i g (Option.some.inj he) rfl (by decide)
  refine decode_long x _ rest hb ho ?_
  rw [decode32, m]
  show leaf true (Instr.xori (bv x 17 11) (bv x 24 18) (bv x 31 25) (bv x 10 7)) = _
  rw [f0, f1, f2, f3]; exact leaf_ok _ ok
theorem RoundTrip.shli (d : BitVec 7) (a : BitVec 7) (i : BitVec 5) (g : BitVec 4) : RoundTrip.Statement (.shli d a i g) := by
  intro ok x he rest
  obtain ⟨hb, ho, m, f0, f1, f2, f3, z0⟩ := form1 _ x 20 d a i g (Option.some.inj he) rfl (by decide)
  refine decode_long x _ rest hb ho ?_
  rw [decode32, m]
  show leaf (fld x 31 30 == 0) (Instr.shli (bv x 17 11) (bv x 24 18) (bv x 29 25) (bv x 10 7)) = _
  rw [f0, f1, f2, f3, z0]; exact leaf_ok _ ok
theorem RoundTrip.shri (d : BitVec 7) (a : BitVec 7) (i : BitVec 5) (g : BitVec 4) : RoundTrip.Statement (.shri d a i g) := by
  intro ok x he rest
  obtain ⟨hb, ho, m, f0, f1, f2, f3, z0⟩ := form1 _ x 21 d a i g (Option.some.inj he) rfl (by decide)
  refine decode_long x _ rest hb ho ?_
  rw [decode32, m]
  show leaf (fld x 31 30 == 0) (Instr.shri (bv x 17 11) (bv x 24 18) (bv x 29 25) (bv x 10 7)) = _
  rw [f0, f1, f2, f3, z0]; exact leaf_ok _ ok
theorem RoundTrip.sari (d : BitVec 7) (a : BitVec 7) (i : BitVec 5) (g : BitVec 4) : RoundTrip.Statement (.sari d a i g) := by
  intro ok x he rest
  obtain ⟨hb, ho, m, f0, f1, f2, f3, z0⟩ := form1 _ x 22 d a i g (Option.some.inj he) rfl (by decide)
  refine decode_long x _ rest hb ho ?_
  rw [decode32, m]
  show leaf (fld x 31 30 == 0) (Instr.sari (bv x 17 11) (bv x 24 18) (bv x 29 25) (bv x 10 7)) = _
  rw [f0, f1, f2, f3, z0]; exact leaf_ok _ ok
theorem RoundTrip.fadd (d : BitVec 7) (a : BitVec 7) (b : BitVec 7) (g : BitVec 4) : RoundTrip.Statement (.fadd d a b g) := by
  intro ok x he rest
  obtain ⟨hb, ho, m, f0, f1, f2, f3⟩ := form0 _ x 24 d a b g (Option.some.inj he) rfl (by decide)
  refine decode_long x _ rest hb ho ?_
  rw [decode32, m]
  show leaf true (Instr.fadd (bv x 17 11) (bv x 24 18) (bv x 31 25) (bv x 10 7)) = _
  rw [f0, f1, f2, f3]; exact leaf_ok _ ok
theorem RoundTrip.fsub (d : BitVec 7) (a : BitVec 7) (b : BitVec 7) (g : BitVec 4) : RoundTrip.Statement (.fsub d a b g) := by
  intro ok x he rest
  obtain ⟨hb, ho, m, f0, f1, f2, f3⟩ := form0 _ x 25 d a b g (Option.some.inj he) rfl (by decide)
  refine decode_long x _ rest hb ho ?_
  rw [decode32, m]
  show leaf true (Instr.fsub (bv x 17 11) (bv x 24 18) (bv x 31 25) (bv x 10 7)) = _
  rw [f0, f1, f2, f3]; exact leaf_ok _ ok
theorem RoundTrip.fmul (d : BitVec 7) (a : BitVec 7) (b : BitVec 7) (g : BitVec 4) : RoundTrip.Statement (.fmul d a b g) := by
  intro ok x he rest
  obtain ⟨hb, ho, m, f0, f1, f2, f3⟩ := form0 _ x 26 d a b g (Option.some.inj he) rfl (by decide)
  refine decode_long x _ rest hb ho ?_
  rw [decode32, m]
  show leaf true (Instr.fmul (bv x 17 11) (bv x 24 18) (bv x 31 25) (bv x 10 7)) = _
  rw [f0, f1, f2, f3]; exact leaf_ok _ ok
theorem RoundTrip.ffma (d : BitVec 7) (a : BitVec 7) (b : BitVec 7) (g : BitVec 4) : RoundTrip.Statement (.ffma d a b g) := by
  intro ok x he rest
  obtain ⟨hb, ho, m, f0, f1, f2, f3⟩ := form0 _ x 27 d a b g (Option.some.inj he) rfl (by decide)
  refine decode_long x _ rest hb ho ?_
  rw [decode32, m]
  show leaf true (Instr.ffma (bv x 17 11) (bv x 24 18) (bv x 31 25) (bv x 10 7)) = _
  rw [f0, f1, f2, f3]; exact leaf_ok _ ok
theorem RoundTrip.fmin (d : BitVec 7) (a : BitVec 7) (b : BitVec 7) (g : BitVec 4) : RoundTrip.Statement (.fmin d a b g) := by
  intro ok x he rest
  obtain ⟨hb, ho, m, f0, f1, f2, f3⟩ := form0 _ x 28 d a b g (Option.some.inj he) rfl (by decide)
  refine decode_long x _ rest hb ho ?_
  rw [decode32, m]
  show leaf true (Instr.fmin (bv x 17 11) (bv x 24 18) (bv x 31 25) (bv x 10 7)) = _
  rw [f0, f1, f2, f3]; exact leaf_ok _ ok
theorem RoundTrip.fmax (d : BitVec 7) (a : BitVec 7) (b : BitVec 7) (g : BitVec 4) : RoundTrip.Statement (.fmax d a b g) := by
  intro ok x he rest
  obtain ⟨hb, ho, m, f0, f1, f2, f3⟩ := form0 _ x 29 d a b g (Option.some.inj he) rfl (by decide)
  refine decode_long x _ rest hb ho ?_
  rw [decode32, m]
  show leaf true (Instr.fmax (bv x 17 11) (bv x 24 18) (bv x 31 25) (bv x 10 7)) = _
  rw [f0, f1, f2, f3]; exact leaf_ok _ ok
theorem RoundTrip.fdiv (d : BitVec 7) (a : BitVec 7) (b : BitVec 7) (g : BitVec 4) : RoundTrip.Statement (.fdiv d a b g) := by
  intro ok x he rest
  obtain ⟨hb, ho, m, f0, f1, f2, f3⟩ := form0 _ x 30 d a b g (Option.some.inj he) rfl (by decide)
  refine decode_long x _ rest hb ho ?_
  rw [decode32, m]
  show leaf true (Instr.fdiv (bv x 17 11) (bv x 24 18) (bv x 31 25) (bv x 10 7)) = _
  rw [f0, f1, f2, f3]; exact leaf_ok _ ok
theorem RoundTrip.cvts (d : BitVec 7) (a : BitVec 7) (b : BitVec 7) (g : BitVec 4) : RoundTrip.Statement (.cvts d a b g) := by
  intro ok x he rest
  obtain ⟨hb, ho, m, f0, f1, f2, f3⟩ := form0 _ x 31 d a b g (Option.some.inj he) rfl (by decide)
  refine decode_long x _ rest hb ho ?_
  rw [decode32, m]
  show leaf true (Instr.cvts (bv x 17 11) (bv x 24 18) (bv x 31 25) (bv x 10 7)) = _
  rw [f0, f1, f2, f3]; exact leaf_ok _ ok
theorem RoundTrip.hadd2 (d : BitVec 7) (a : BitVec 7) (b : BitVec 7) (g : BitVec 4) : RoundTrip.Statement (.hadd2 d a b g) := by
  intro ok x he rest
  obtain ⟨hb, ho, m, f0, f1, f2, f3⟩ := form0 _ x 32 d a b g (Option.some.inj he) rfl (by decide)
  refine decode_long x _ rest hb ho ?_
  rw [decode32, m]
  show leaf true (Instr.hadd2 (bv x 17 11) (bv x 24 18) (bv x 31 25) (bv x 10 7)) = _
  rw [f0, f1, f2, f3]; exact leaf_ok _ ok
theorem RoundTrip.hmul2 (d : BitVec 7) (a : BitVec 7) (b : BitVec 7) (g : BitVec 4) : RoundTrip.Statement (.hmul2 d a b g) := by
  intro ok x he rest
  obtain ⟨hb, ho, m, f0, f1, f2, f3⟩ := form0 _ x 33 d a b g (Option.some.inj he) rfl (by decide)
  refine decode_long x _ rest hb ho ?_
  rw [decode32, m]
  show leaf true (Instr.hmul2 (bv x 17 11) (bv x 24 18) (bv x 31 25) (bv x 10 7)) = _
  rw [f0, f1, f2, f3]; exact leaf_ok _ ok
theorem RoundTrip.hfma2 (d : BitVec 7) (a : BitVec 7) (b : BitVec 7) (g : BitVec 4) : RoundTrip.Statement (.hfma2 d a b g) := by
  intro ok x he rest
  obtain ⟨hb, ho, m, f0, f1, f2, f3⟩ := form0 _ x 34 d a b g (Option.some.inj he) rfl (by decide)
  refine decode_long x _ rest hb ho ?_
  rw [decode32, m]
  show leaf true (Instr.hfma2 (bv x 17 11) (bv x 24 18) (bv x 31 25) (bv x 10 7)) = _
  rw [f0, f1, f2, f3]; exact leaf_ok _ ok
theorem RoundTrip.cmp (p : BitVec 3) (a : BitVec 7) (b : BitVec 7) (c : BitVec 4) (g : BitVec 4) : RoundTrip.Statement (.cmp p a b c g) := by
  intro ok x he rest
  obtain ⟨hb, ho, m, f0, f1, f2, f3, f4⟩ := form2 _ x 35 p a b c g (Option.some.inj he) rfl (by decide)
  refine decode_long x _ rest hb ho ?_
  rw [decode32, m]
  show leaf true (Instr.cmp (bv x 13 11) (bv x 24 18) (bv x 31 25) (bv x 17 14) (bv x 10 7)) = _
  rw [f0, f1, f2, f3, f4]; exact leaf_ok _ ok
theorem RoundTrip.fcmp (p : BitVec 3) (a : BitVec 7) (b : BitVec 7) (c : BitVec 4) (g : BitVec 4) : RoundTrip.Statement (.fcmp p a b c g) := by
  intro ok x he rest
  obtain ⟨hb, ho, m, f0, f1, f2, f3, f4⟩ := form2 _ x 36 p a b c g (Option.some.inj he) rfl (by decide)
  refine decode_long x _ rest hb ho ?_
  rw [decode32, m]
  show leaf true (Instr.fcmp (bv x 13 11) (bv x 24 18) (bv x 31 25) (bv x 17 14) (bv x 10 7)) = _
  rw [f0, f1, f2, f3, f4]; exact leaf_ok _ ok
theorem RoundTrip.movi (d : BitVec 7) (i : BitVec 18) : RoundTrip.Statement (.movi d i) := by
  intro ok x he rest
  obtain ⟨hb, ho, m, f0, f1⟩ := form3 _ x 37 d i (Option.some.inj he) rfl (by decide)
  refine decode_long x _ rest hb ho ?_
  rw [decode32, m]
  show leaf true (Instr.movi (bv x 13 7) (bv x 31 14)) = _
  rw [f0, f1]; exact leaf_ok _ ok
theorem RoundTrip.movhi (d : BitVec 7) (i : BitVec 14) : RoundTrip.Statement (.movhi d i) := by
  intro ok x he rest
  obtain ⟨hb, ho, m, f0, f1, z0⟩ := form4 _ x 38 d i (Option.some.inj he) rfl (by decide)
  refine decode_long x _ rest hb ho ?_
  rw [decode32, m]
  show leaf (fld x 31 28 == 0) (Instr.movhi (bv x 13 7) (bv x 27 14)) = _
  rw [f0, f1, z0]; exact leaf_ok _ ok
theorem RoundTrip.lea (d : BitVec 7) (a : BitVec 7) (b : BitVec 7) (g : BitVec 4) : RoundTrip.Statement (.lea d a b g) := by
  intro ok x he rest
  obtain ⟨hb, ho, m, f0, f1, f2, f3⟩ := form0 _ x 39 d a b g (Option.some.inj he) rfl (by decide)
  refine decode_long x _ rest hb ho ?_
  rw [decode32, m]
  show leaf true (Instr.lea (bv x 17 11) (bv x 24 18) (bv x 31 25) (bv x 10 7)) = _
  rw [f0, f1, f2, f3]; exact leaf_ok _ ok
theorem RoundTrip.ldU8 (d : BitVec 7) (a : BitVec 7) (o : BitVec 7) (g : BitVec 4) : RoundTrip.Statement (.ldU8 d a o g) := by
  intro ok x he rest
  obtain ⟨hb, ho, m, f0, f1, f2, f3⟩ := form0 _ x 40 d a o g (Option.some.inj he) rfl (by decide)
  refine decode_long x _ rest hb ho ?_
  rw [decode32, m]
  show leaf true (Instr.ldU8 (bv x 17 11) (bv x 24 18) (bv x 31 25) (bv x 10 7)) = _
  rw [f0, f1, f2, f3]; exact leaf_ok _ ok
theorem RoundTrip.ldS8 (d : BitVec 7) (a : BitVec 7) (o : BitVec 7) (g : BitVec 4) : RoundTrip.Statement (.ldS8 d a o g) := by
  intro ok x he rest
  obtain ⟨hb, ho, m, f0, f1, f2, f3⟩ := form0 _ x 41 d a o g (Option.some.inj he) rfl (by decide)
  refine decode_long x _ rest hb ho ?_
  rw [decode32, m]
  show leaf true (Instr.ldS8 (bv x 17 11) (bv x 24 18) (bv x 31 25) (bv x 10 7)) = _
  rw [f0, f1, f2, f3]; exact leaf_ok _ ok
theorem RoundTrip.ldU16 (d : BitVec 7) (a : BitVec 7) (o : BitVec 7) (g : BitVec 4) : RoundTrip.Statement (.ldU16 d a o g) := by
  intro ok x he rest
  obtain ⟨hb, ho, m, f0, f1, f2, f3⟩ := form0 _ x 42 d a o g (Option.some.inj he) rfl (by decide)
  refine decode_long x _ rest hb ho ?_
  rw [decode32, m]
  show leaf true (Instr.ldU16 (bv x 17 11) (bv x 24 18) (bv x 31 25) (bv x 10 7)) = _
  rw [f0, f1, f2, f3]; exact leaf_ok _ ok
theorem RoundTrip.ldS16 (d : BitVec 7) (a : BitVec 7) (o : BitVec 7) (g : BitVec 4) : RoundTrip.Statement (.ldS16 d a o g) := by
  intro ok x he rest
  obtain ⟨hb, ho, m, f0, f1, f2, f3⟩ := form0 _ x 43 d a o g (Option.some.inj he) rfl (by decide)
  refine decode_long x _ rest hb ho ?_
  rw [decode32, m]
  show leaf true (Instr.ldS16 (bv x 17 11) (bv x 24 18) (bv x 31 25) (bv x 10 7)) = _
  rw [f0, f1, f2, f3]; exact leaf_ok _ ok
theorem RoundTrip.ld32 (d : BitVec 7) (a : BitVec 7) (o : BitVec 7) (g : BitVec 4) : RoundTrip.Statement (.ld32 d a o g) := by
  intro ok x he rest
  obtain ⟨hb, ho, m, f0, f1, f2, f3⟩ := form0 _ x 44 d a o g (Option.some.inj he) rfl (by decide)
  refine decode_long x _ rest hb ho ?_
  rw [decode32, m]
  show leaf true (Instr.ld32 (bv x 17 11) (bv x 24 18) (bv x 31 25) (bv x 10 7)) = _
  rw [f0, f1, f2, f3]; exact leaf_ok _ ok
theorem RoundTrip.ld64 (d : BitVec 7) (a : BitVec 7) (o : BitVec 7) (g : BitVec 4) : RoundTrip.Statement (.ld64 d a o g) := by
  intro ok x he rest
  obtain ⟨hb, ho, m, f0, f1, f2, f3⟩ := form0 _ x 45 d a o g (Option.some.inj he) rfl (by decide)
  refine decode_long x _ rest hb ho ?_
  rw [decode32, m]
  show leaf true (Instr.ld64 (bv x 17 11) (bv x 24 18) (bv x 31 25) (bv x 10 7)) = _
  rw [f0, f1, f2, f3]; exact leaf_ok _ ok
theorem RoundTrip.ld128 (d : BitVec 7) (a : BitVec 7) (o : BitVec 7) (g : BitVec 4) : RoundTrip.Statement (.ld128 d a o g) := by
  intro ok x he rest
  obtain ⟨hb, ho, m, f0, f1, f2, f3⟩ := form0 _ x 46 d a o g (Option.some.inj he) rfl (by decide)
  refine decode_long x _ rest hb ho ?_
  rw [decode32, m]
  show leaf true (Instr.ld128 (bv x 17 11) (bv x 24 18) (bv x 31 25) (bv x 10 7)) = _
  rw [f0, f1, f2, f3]; exact leaf_ok _ ok
theorem RoundTrip.ldro32 (d : BitVec 7) (a : BitVec 7) (o : BitVec 7) (g : BitVec 4) : RoundTrip.Statement (.ldro32 d a o g) := by
  intro ok x he rest
  obtain ⟨hb, ho, m, f0, f1, f2, f3⟩ := form0 _ x 47 d a o g (Option.some.inj he) rfl (by decide)
  refine decode_long x _ rest hb ho ?_
  rw [decode32, m]
  show leaf true (Instr.ldro32 (bv x 17 11) (bv x 24 18) (bv x 31 25) (bv x 10 7)) = _
  rw [f0, f1, f2, f3]; exact leaf_ok _ ok
theorem RoundTrip.ldro128 (d : BitVec 7) (a : BitVec 7) (o : BitVec 7) (g : BitVec 4) : RoundTrip.Statement (.ldro128 d a o g) := by
  intro ok x he rest
  obtain ⟨hb, ho, m, f0, f1, f2, f3⟩ := form0 _ x 53 d a o g (Option.some.inj he) rfl (by decide)
  refine decode_long x _ rest hb ho ?_
  rw [decode32, m]
  show leaf true (Instr.ldro128 (bv x 17 11) (bv x 24 18) (bv x 31 25) (bv x 10 7)) = _
  rw [f0, f1, f2, f3]; exact leaf_ok _ ok
theorem RoundTrip.st8 (d : BitVec 7) (a : BitVec 7) (o : BitVec 7) (g : BitVec 4) : RoundTrip.Statement (.st8 d a o g) := by
  intro ok x he rest
  obtain ⟨hb, ho, m, f0, f1, f2, f3⟩ := form0 _ x 48 d a o g (Option.some.inj he) rfl (by decide)
  refine decode_long x _ rest hb ho ?_
  rw [decode32, m]
  show leaf true (Instr.st8 (bv x 17 11) (bv x 24 18) (bv x 31 25) (bv x 10 7)) = _
  rw [f0, f1, f2, f3]; exact leaf_ok _ ok
theorem RoundTrip.st16 (d : BitVec 7) (a : BitVec 7) (o : BitVec 7) (g : BitVec 4) : RoundTrip.Statement (.st16 d a o g) := by
  intro ok x he rest
  obtain ⟨hb, ho, m, f0, f1, f2, f3⟩ := form0 _ x 49 d a o g (Option.some.inj he) rfl (by decide)
  refine decode_long x _ rest hb ho ?_
  rw [decode32, m]
  show leaf true (Instr.st16 (bv x 17 11) (bv x 24 18) (bv x 31 25) (bv x 10 7)) = _
  rw [f0, f1, f2, f3]; exact leaf_ok _ ok
theorem RoundTrip.st32 (d : BitVec 7) (a : BitVec 7) (o : BitVec 7) (g : BitVec 4) : RoundTrip.Statement (.st32 d a o g) := by
  intro ok x he rest
  obtain ⟨hb, ho, m, f0, f1, f2, f3⟩ := form0 _ x 50 d a o g (Option.some.inj he) rfl (by decide)
  refine decode_long x _ rest hb ho ?_
  rw [decode32, m]
  show leaf true (Instr.st32 (bv x 17 11) (bv x 24 18) (bv x 31 25) (bv x 10 7)) = _
  rw [f0, f1, f2, f3]; exact leaf_ok _ ok
theorem RoundTrip.st64 (d : BitVec 7) (a : BitVec 7) (o : BitVec 7) (g : BitVec 4) : RoundTrip.Statement (.st64 d a o g) := by
  intro ok x he rest
  obtain ⟨hb, ho, m, f0, f1, f2, f3⟩ := form0 _ x 51 d a o g (Option.some.inj he) rfl (by decide)
  refine decode_long x _ rest hb ho ?_
  rw [decode32, m]
  show leaf true (Instr.st64 (bv x 17 11) (bv x 24 18) (bv x 31 25) (bv x 10 7)) = _
  rw [f0, f1, f2, f3]; exact leaf_ok _ ok
theorem RoundTrip.st128 (d : BitVec 7) (a : BitVec 7) (o : BitVec 7) (g : BitVec 4) : RoundTrip.Statement (.st128 d a o g) := by
  intro ok x he rest
  obtain ⟨hb, ho, m, f0, f1, f2, f3⟩ := form0 _ x 52 d a o g (Option.some.inj he) rfl (by decide)
  refine decode_long x _ rest hb ho ?_
  rw [decode32, m]
  show leaf true (Instr.st128 (bv x 17 11) (bv x 24 18) (bv x 31 25) (bv x 10 7)) = _
  rw [f0, f1, f2, f3]; exact leaf_ok _ ok
theorem RoundTrip.bra (o : BitVec 21) (g : BitVec 4) : RoundTrip.Statement (.bra o g) := by
  intro ok x he rest
  obtain ⟨hb, ho, m, f0, f1⟩ := form5 _ x 54 o g (Option.some.inj he) rfl (by decide)
  refine decode_long x _ rest hb ho ?_
  rw [decode32, m]
  show leaf true (Instr.bra (bv x 31 11) (bv x 10 7)) = _
  rw [f0, f1]; exact leaf_ok _ ok
theorem RoundTrip.call (o : BitVec 21) (g : BitVec 4) : RoundTrip.Statement (.call o g) := by
  intro ok x he rest
  obtain ⟨hb, ho, m, f0, f1⟩ := form5 _ x 55 o g (Option.some.inj he) rfl (by decide)
  refine decode_long x _ rest hb ho ?_
  rw [decode32, m]
  show leaf true (Instr.call (bv x 31 11) (bv x 10 7)) = _
  rw [f0, f1]; exact leaf_ok _ ok
theorem RoundTrip.sadd (d : BitVec 6) (a : BitVec 6) (b : BitVec 6) : RoundTrip.Statement (.sadd d a b) := by
  intro ok x he rest
  obtain ⟨hb, ho, m, k, f0, f1, f2, z0⟩ := form6 _ x 0 d a b (Option.some.inj he) rfl (by decide)
  refine decode_long x _ rest hb ho ?_
  rw [decode32_decodeFs x m, decodeFs, k]
  show leaf (fld x 31 29 == 0) (Instr.sadd (bv x 16 11) (bv x 22 17) (bv x 28 23)) = _
  rw [f0, f1, f2, z0]; exact leaf_ok _ ok
theorem RoundTrip.ssub (d : BitVec 6) (a : BitVec 6) (b : BitVec 6) : RoundTrip.Statement (.ssub d a b) := by
  intro ok x he rest
  obtain ⟨hb, ho, m, k, f0, f1, f2, z0⟩ := form6 _ x 1 d a b (Option.some.inj he) rfl (by decide)
  refine decode_long x _ rest hb ho ?_
  rw [decode32_decodeFs x m, decodeFs, k]
  show leaf (fld x 31 29 == 0) (Instr.ssub (bv x 16 11) (bv x 22 17) (bv x 28 23)) = _
  rw [f0, f1, f2, z0]; exact leaf_ok _ ok
theorem RoundTrip.smul (d : BitVec 6) (a : BitVec 6) (b : BitVec 6) : RoundTrip.Statement (.smul d a b) := by
  intro ok x he rest
  obtain ⟨hb, ho, m, k, f0, f1, f2, z0⟩ := form6 _ x 2 d a b (Option.some.inj he) rfl (by decide)
  refine decode_long x _ rest hb ho ?_
  rw [decode32_decodeFs x m, decodeFs, k]
  show leaf (fld x 31 29 == 0) (Instr.smul (bv x 16 11) (bv x 22 17) (bv x 28 23)) = _
  rw [f0, f1, f2, z0]; exact leaf_ok _ ok
theorem RoundTrip.sand (d : BitVec 6) (a : BitVec 6) (b : BitVec 6) : RoundTrip.Statement (.sand d a b) := by
  intro ok x he rest
  obtain ⟨hb, ho, m, k, f0, f1, f2, z0⟩ := form6 _ x 3 d a b (Option.some.inj he) rfl (by decide)
  refine decode_long x _ rest hb ho ?_
  rw [decode32_decodeFs x m, decodeFs, k]
  show leaf (fld x 31 29 == 0) (Instr.sand (bv x 16 11) (bv x 22 17) (bv x 28 23)) = _
  rw [f0, f1, f2, z0]; exact leaf_ok _ ok
theorem RoundTrip.sor (d : BitVec 6) (a : BitVec 6) (b : BitVec 6) : RoundTrip.Statement (.sor d a b) := by
  intro ok x he rest
  obtain ⟨hb, ho, m, k, f0, f1, f2, z0⟩ := form6 _ x 4 d a b (Option.some.inj he) rfl (by decide)
  refine decode_long x _ rest hb ho ?_
  rw [decode32_decodeFs x m, decodeFs, k]
  show leaf (fld x 31 29 == 0) (Instr.sor (bv x 16 11) (bv x 22 17) (bv x 28 23)) = _
  rw [f0, f1, f2, z0]; exact leaf_ok _ ok
theorem RoundTrip.sxor (d : BitVec 6) (a : BitVec 6) (b : BitVec 6) : RoundTrip.Statement (.sxor d a b) := by
  intro ok x he rest
  obtain ⟨hb, ho, m, k, f0, f1, f2, z0⟩ := form6 _ x 5 d a b (Option.some.inj he) rfl (by decide)
  refine decode_long x _ rest hb ho ?_
  rw [decode32_decodeFs x m, decodeFs, k]
  show leaf (fld x 31 29 == 0) (Instr.sxor (bv x 16 11) (bv x 22 17) (bv x 28 23)) = _
  rw [f0, f1, f2, z0]; exact leaf_ok _ ok
theorem RoundTrip.sshl (d : BitVec 6) (a : BitVec 6) (b : BitVec 6) : RoundTrip.Statement (.sshl d a b) := by
  intro ok x he rest
  obtain ⟨hb, ho, m, k, f0, f1, f2, z0⟩ := form6 _ x 6 d a b (Option.some.inj he) rfl (by decide)
  refine decode_long x _ rest hb ho ?_
  rw [decode32_decodeFs x m, decodeFs, k]
  show leaf (fld x 31 29 == 0) (Instr.sshl (bv x 16 11) (bv x 22 17) (bv x 28 23)) = _
  rw [f0, f1, f2, z0]; exact leaf_ok _ ok
theorem RoundTrip.sshr (d : BitVec 6) (a : BitVec 6) (b : BitVec 6) : RoundTrip.Statement (.sshr d a b) := by
  intro ok x he rest
  obtain ⟨hb, ho, m, k, f0, f1, f2, z0⟩ := form6 _ x 7 d a b (Option.some.inj he) rfl (by decide)
  refine decode_long x _ rest hb ho ?_
  rw [decode32_decodeFs x m, decodeFs, k]
  show leaf (fld x 31 29 == 0) (Instr.sshr (bv x 16 11) (bv x 22 17) (bv x 28 23)) = _
  rw [f0, f1, f2, z0]; exact leaf_ok _ ok
theorem RoundTrip.ssar (d : BitVec 6) (a : BitVec 6) (b : BitVec 6) : RoundTrip.Statement (.ssar d a b) := by
  intro ok x he rest
  obtain ⟨hb, ho, m, k, f0, f1, f2, z0⟩ := form6 _ x 8 d a b (Option.some.inj he) rfl (by decide)
  refine decode_long x _ rest hb ho ?_
  rw [decode32_decodeFs x m, decodeFs, k]
  show leaf (fld x 31 29 == 0) (Instr.ssar (bv x 16 11) (bv x 22 17) (bv x 28 23)) = _
  rw [f0, f1, f2, z0]; exact leaf_ok _ ok
theorem RoundTrip.smin (d : BitVec 6) (a : BitVec 6) (b : BitVec 6) : RoundTrip.Statement (.smin d a b) := by
  intro ok x he rest
  obtain ⟨hb, ho, m, k, f0, f1, f2, z0⟩ := form6 _ x 9 d a b (Option.some.inj he) rfl (by decide)
  refine decode_long x _ rest hb ho ?_
  rw [decode32_decodeFs x m, decodeFs, k]
  show leaf (fld x 31 29 == 0) (Instr.smin (bv x 16 11) (bv x 22 17) (bv x 28 23)) = _
  rw [f0, f1, f2, z0]; exact leaf_ok _ ok
theorem RoundTrip.smax (d : BitVec 6) (a : BitVec 6) (b : BitVec 6) : RoundTrip.Statement (.smax d a b) := by
  intro ok x he rest
  obtain ⟨hb, ho, m, k, f0, f1, f2, z0⟩ := form6 _ x 10 d a b (Option.some.inj he) rfl (by decide)
  refine decode_long x _ rest hb ho ?_
  rw [decode32_decodeFs x m, decodeFs, k]
  show leaf (fld x 31 29 == 0) (Instr.smax (bv x 16 11) (bv x 22 17) (bv x 28 23)) = _
  rw [f0, f1, f2, z0]; exact leaf_ok _ ok
theorem RoundTrip.smov (d : BitVec 6) (a : BitVec 6) : RoundTrip.Statement (.smov d a) := by
  intro ok x he rest
  obtain ⟨hb, ho, m, k, f0, f1, z0⟩ := form7 _ x 11 d a (Option.some.inj he) rfl (by decide)
  refine decode_long x _ rest hb ho ?_
  rw [decode32_decodeFs x m, decodeFs, k]
  show leaf (fld x 31 23 == 0) (Instr.smov (bv x 16 11) (bv x 22 17)) = _
  rw [f0, f1, z0]; exact leaf_ok _ ok
theorem RoundTrip.spset (p : BitVec 3) (a : BitVec 6) : RoundTrip.Statement (.spset p a) := by
  intro ok x he rest
  obtain ⟨hb, ho, m, k, f0, f1, z0, z1⟩ := form8 _ x 12 p a (Option.some.inj he) rfl (by decide)
  refine decode_long x _ rest hb ho ?_
  rw [decode32_decodeFs x m, decodeFs, k]
  show leaf (fld x 31 26 == 0 && fld x 16 11 == 0) (Instr.spset (bv x 25 23) (bv x 22 17)) = _
  rw [f0, f1, z0, z1]; exact leaf_ok _ ok
theorem RoundTrip.slt (d : BitVec 6) (a : BitVec 6) (b : BitVec 6) : RoundTrip.Statement (.slt d a b) := by
  intro ok x he rest
  obtain ⟨hb, ho, m, k, f0, f1, f2, z0⟩ := form6 _ x 13 d a b (Option.some.inj he) rfl (by decide)
  refine decode_long x _ rest hb ho ?_
  rw [decode32_decodeFs x m, decodeFs, k]
  show leaf (fld x 31 29 == 0) (Instr.slt (bv x 16 11) (bv x 22 17) (bv x 28 23)) = _
  rw [f0, f1, f2, z0]; exact leaf_ok _ ok
theorem RoundTrip.saddImm (d : BitVec 6) (a : BitVec 6) (i : BitVec 9) : RoundTrip.Statement (.saddImm d a i) := by
  intro ok x he rest
  obtain ⟨hb, ho, m, k, f0, f1, f2⟩ := form9 _ x 0 d a i (Option.some.inj he) rfl (by decide)
  refine decode_long x _ rest hb ho ?_
  rw [decode32_decodeFsi x m, decodeFsi, k]
  show leaf true (Instr.saddImm (bv x 16 11) (bv x 22 17) (bv x 31 23)) = _
  rw [f0, f1, f2]; exact leaf_ok _ ok
theorem RoundTrip.ssubImm (d : BitVec 6) (a : BitVec 6) (i : BitVec 9) : RoundTrip.Statement (.ssubImm d a i) := by
  intro ok x he rest
  obtain ⟨hb, ho, m, k, f0, f1, f2⟩ := form9 _ x 1 d a i (Option.some.inj he) rfl (by decide)
  refine decode_long x _ rest hb ho ?_
  rw [decode32_decodeFsi x m, decodeFsi, k]
  show leaf true (Instr.ssubImm (bv x 16 11) (bv x 22 17) (bv x 31 23)) = _
  rw [f0, f1, f2]; exact leaf_ok _ ok
theorem RoundTrip.smulImm (d : BitVec 6) (a : BitVec 6) (i : BitVec 9) : RoundTrip.Statement (.smulImm d a i) := by
  intro ok x he rest
  obtain ⟨hb, ho, m, k, f0, f1, f2⟩ := form9 _ x 2 d a i (Option.some.inj he) rfl (by decide)
  refine decode_long x _ rest hb ho ?_
  rw [decode32_decodeFsi x m, decodeFsi, k]
  show leaf true (Instr.smulImm (bv x 16 11) (bv x 22 17) (bv x 31 23)) = _
  rw [f0, f1, f2]; exact leaf_ok _ ok
theorem RoundTrip.sandImm (d : BitVec 6) (a : BitVec 6) (i : BitVec 9) : RoundTrip.Statement (.sandImm d a i) := by
  intro ok x he rest
  obtain ⟨hb, ho, m, k, f0, f1, f2⟩ := form9 _ x 3 d a i (Option.some.inj he) rfl (by decide)
  refine decode_long x _ rest hb ho ?_
  rw [decode32_decodeFsi x m, decodeFsi, k]
  show leaf true (Instr.sandImm (bv x 16 11) (bv x 22 17) (bv x 31 23)) = _
  rw [f0, f1, f2]; exact leaf_ok _ ok
theorem RoundTrip.sorImm (d : BitVec 6) (a : BitVec 6) (i : BitVec 9) : RoundTrip.Statement (.sorImm d a i) := by
  intro ok x he rest
  obtain ⟨hb, ho, m, k, f0, f1, f2⟩ := form9 _ x 4 d a i (Option.some.inj he) rfl (by decide)
  refine decode_long x _ rest hb ho ?_
  rw [decode32_decodeFsi x m, decodeFsi, k]
  show leaf true (Instr.sorImm (bv x 16 11) (bv x 22 17) (bv x 31 23)) = _
  rw [f0, f1, f2]; exact leaf_ok _ ok
theorem RoundTrip.sxorImm (d : BitVec 6) (a : BitVec 6) (i : BitVec 9) : RoundTrip.Statement (.sxorImm d a i) := by
  intro ok x he rest
  obtain ⟨hb, ho, m, k, f0, f1, f2⟩ := form9 _ x 5 d a i (Option.some.inj he) rfl (by decide)
  refine decode_long x _ rest hb ho ?_
  rw [decode32_decodeFsi x m, decodeFsi, k]
  show leaf true (Instr.sxorImm (bv x 16 11) (bv x 22 17) (bv x 31 23)) = _
  rw [f0, f1, f2]; exact leaf_ok _ ok
theorem RoundTrip.sshlImm (d : BitVec 6) (a : BitVec 6) (i : BitVec 6) : RoundTrip.Statement (.sshlImm d a i) := by
  intro ok x he rest
  obtain ⟨hb, ho, m, k, f0, f1, f2, z0⟩ := form10 _ x 6 d a i (Option.some.inj he) rfl (by decide)
  refine decode_long x _ rest hb ho ?_
  rw [decode32_decodeFsi x m, decodeFsi, k]
  show leaf (fld x 31 29 == 0) (Instr.sshlImm (bv x 16 11) (bv x 22 17) (bv x 28 23)) = _
  rw [f0, f1, f2, z0]; exact leaf_ok _ ok
theorem RoundTrip.sshrImm (d : BitVec 6) (a : BitVec 6) (i : BitVec 6) : RoundTrip.Statement (.sshrImm d a i) := by
  intro ok x he rest
  obtain ⟨hb, ho, m, k, f0, f1, f2, z0⟩ := form10 _ x 7 d a i (Option.some.inj he) rfl (by decide)
  refine decode_long x _ rest hb ho ?_
  rw [decode32_decodeFsi x m, decodeFsi, k]
  show leaf (fld x 31 29 == 0) (Instr.sshrImm (bv x 16 11) (bv x 22 17) (bv x 28 23)) = _
  rw [f0, f1, f2, z0]; exact leaf_ok _ ok
theorem RoundTrip.ssarImm (d : BitVec 6) (a : BitVec 6) (i : BitVec 6) : RoundTrip.Statement (.ssarImm d a i) := by
  intro ok x he rest
  obtain ⟨hb, ho, m, k, f0, f1, f2, z0⟩ := form10 _ x 8 d a i (Option.some.inj he) rfl (by decide)
  refine decode_long x _ rest hb ho ?_
  rw [decode32_decodeFsi x m, decodeFsi, k]
  show leaf (fld x 31 29 == 0) (Instr.ssarImm (bv x 16 11) (bv x 22 17) (bv x 28 23)) = _
  rw [f0, f1, f2, z0]; exact leaf_ok _ ok
theorem RoundTrip.sminImm (d : BitVec 6) (a : BitVec 6) (i : BitVec 9) : RoundTrip.Statement (.sminImm d a i) := by
  intro ok x he rest
  obtain ⟨hb, ho, m, k, f0, f1, f2⟩ := form9 _ x 9 d a i (Option.some.inj he) rfl (by decide)
  refine decode_long x _ rest hb ho ?_
  rw [decode32_decodeFsi x m, decodeFsi, k]
  show leaf true (Instr.sminImm (bv x 16 11) (bv x 22 17) (bv x 31 23)) = _
  rw [f0, f1, f2]; exact leaf_ok _ ok
theorem RoundTrip.smaxImm (d : BitVec 6) (a : BitVec 6) (i : BitVec 9) : RoundTrip.Statement (.smaxImm d a i) := by
  intro ok x he rest
  obtain ⟨hb, ho, m, k, f0, f1, f2⟩ := form9 _ x 10 d a i (Option.some.inj he) rfl (by decide)
  refine decode_long x _ rest hb ho ?_
  rw [decode32_decodeFsi x m, decodeFsi, k]
  show leaf true (Instr.smaxImm (bv x 16 11) (bv x 22 17) (bv x 31 23)) = _
  rw [f0, f1, f2]; exact leaf_ok _ ok
theorem RoundTrip.smovImm (d : BitVec 6) (i : BitVec 9) : RoundTrip.Statement (.smovImm d i) := by
  intro ok x he rest
  obtain ⟨hb, ho, m, k, f0, f1, z0⟩ := form11 _ x 11 d i (Option.some.inj he) rfl (by decide)
  refine decode_long x _ rest hb ho ?_
  rw [decode32_decodeFsi x m, decodeFsi, k]
  show leaf (fld x 22 17 == 0) (Instr.smovImm (bv x 16 11) (bv x 31 23)) = _
  rw [f0, f1, z0]; exact leaf_ok _ ok
theorem RoundTrip.sltImm (d : BitVec 6) (a : BitVec 6) (i : BitVec 9) : RoundTrip.Statement (.sltImm d a i) := by
  intro ok x he rest
  obtain ⟨hb, ho, m, k, f0, f1, f2⟩ := form9 _ x 13 d a i (Option.some.inj he) rfl (by decide)
  refine decode_long x _ rest hb ho ?_
  rw [decode32_decodeFsi x m, decodeFsi, k]
  show leaf true (Instr.sltImm (bv x 16 11) (bv x 22 17) (bv x 31 23)) = _
  rw [f0, f1, f2]; exact leaf_ok _ ok
theorem RoundTrip.sld (d : BitVec 6) (a : BitVec 6) (i : BitVec 9) : RoundTrip.Statement (.sld d a i) := by
  intro ok x he rest
  obtain ⟨hb, ho, m, k, f0, f1, f2⟩ := form9 _ x 14 d a i (Option.some.inj he) rfl (by decide)
  refine decode_long x _ rest hb ho ?_
  rw [decode32_decodeFsi x m, decodeFsi, k]
  show leaf true (Instr.sld (bv x 16 11) (bv x 22 17) (bv x 31 23)) = _
  rw [f0, f1, f2]; exact leaf_ok _ ok
theorem RoundTrip.sst (d : BitVec 6) (a : BitVec 6) (i : BitVec 9) : RoundTrip.Statement (.sst d a i) := by
  intro ok x he rest
  obtain ⟨hb, ho, m, k, f0, f1, f2⟩ := form9 _ x 15 d a i (Option.some.inj he) rfl (by decide)
  refine decode_long x _ rest hb ho ?_
  rw [decode32_decodeFsi x m, decodeFsi, k]
  show leaf true (Instr.sst (bv x 16 11) (bv x 22 17) (bv x 31 23)) = _
  rw [f0, f1, f2]; exact leaf_ok _ ok
theorem RoundTrip.smovi (d : BitVec 6) (i : BitVec 19) : RoundTrip.Statement (.smovi d i) := by
  intro ok x he rest
  obtain ⟨hb, ho, m, f0, f1⟩ := form12 _ x 58 d i (Option.some.inj he) rfl (by decide)
  refine decode_long x _ rest hb ho ?_
  rw [decode32, m]
  show leaf true (Instr.smovi (bv x 12 7) (bv x 31 13)) = _
  rw [f0, f1]; exact leaf_ok _ ok
theorem RoundTrip.smovhi (d : BitVec 6) (i : BitVec 19) : RoundTrip.Statement (.smovhi d i) := by
  intro ok x he rest
  obtain ⟨hb, ho, m, f0, f1⟩ := form12 _ x 59 d i (Option.some.inj he) rfl (by decide)
  refine decode_long x _ rest hb ho ?_
  rw [decode32, m]
  show leaf true (Instr.smovhi (bv x 12 7) (bv x 31 13)) = _
  rw [f0, f1]; exact leaf_ok _ ok
theorem RoundTrip.mov (d : BitVec 7) (a : BitVec 7) (g : BitVec 4) : RoundTrip.Statement (.mov d a g) := by
  intro ok x he rest
  obtain ⟨hb, ho, m, k, f0, f1, f2⟩ := form13 _ x 0 d a g (Option.some.inj he) rfl (by decide)
  refine decode_long x _ rest hb ho ?_
  rw [decode32_decodeFx3C x m, decodeFx3C, k]
  show leaf true (Instr.mov (bv x 17 11) (bv x 24 18) (bv x 10 7)) = _
  rw [f0, f1, f2]; exact leaf_ok _ ok
theorem RoundTrip.not (d : BitVec 7) (a : BitVec 7) (g : BitVec 4) : RoundTrip.Statement (.not d a g) := by
  intro ok x he rest
  obtain ⟨hb, ho, m, k, f0, f1, f2⟩ := form13 _ x 1 d a g (Option.some.inj he) rfl (by decide)
  refine decode_long x _ rest hb ho ?_
  rw [decode32_decodeFx3C x m, decodeFx3C, k]
  show leaf true (Instr.not (bv x 17 11) (bv x 24 18) (bv x 10 7)) = _
  rw [f0, f1, f2]; exact leaf_ok _ ok
theorem RoundTrip.abs (d : BitVec 7) (a : BitVec 7) (g : BitVec 4) : RoundTrip.Statement (.abs d a g) := by
  intro ok x he rest
  obtain ⟨hb, ho, m, k, f0, f1, f2⟩ := form13 _ x 2 d a g (Option.some.inj he) rfl (by decide)
  refine decode_long x _ rest hb ho ?_
  rw [decode32_decodeFx3C x m, decodeFx3C, k]
  show leaf true (Instr.abs (bv x 17 11) (bv x 24 18) (bv x 10 7)) = _
  rw [f0, f1, f2]; exact leaf_ok _ ok
theorem RoundTrip.popc (d : BitVec 7) (a : BitVec 7) (g : BitVec 4) : RoundTrip.Statement (.popc d a g) := by
  intro ok x he rest
  obtain ⟨hb, ho, m, k, f0, f1, f2⟩ := form13 _ x 3 d a g (Option.some.inj he) rfl (by decide)
  refine decode_long x _ rest hb ho ?_
  rw [decode32_decodeFx3C x m, decodeFx3C, k]
  show leaf true (Instr.popc (bv x 17 11) (bv x 24 18) (bv x 10 7)) = _
  rw [f0, f1, f2]; exact leaf_ok _ ok
theorem RoundTrip.clz (d : BitVec 7) (a : BitVec 7) (g : BitVec 4) : RoundTrip.Statement (.clz d a g) := by
  intro ok x he rest
  obtain ⟨hb, ho, m, k, f0, f1, f2⟩ := form13 _ x 4 d a g (Option.some.inj he) rfl (by decide)
  refine decode_long x _ rest hb ho ?_
  rw [decode32_decodeFx3C x m, decodeFx3C, k]
  show leaf true (Instr.clz (bv x 17 11) (bv x 24 18) (bv x 10 7)) = _
  rw [f0, f1, f2]; exact leaf_ok _ ok
theorem RoundTrip.brev (d : BitVec 7) (a : BitVec 7) (g : BitVec 4) : RoundTrip.Statement (.brev d a g) := by
  intro ok x he rest
  obtain ⟨hb, ho, m, k, f0, f1, f2⟩ := form13 _ x 5 d a g (Option.some.inj he) rfl (by decide)
  refine decode_long x _ rest hb ho ?_
  rw [decode32_decodeFx3C x m, decodeFx3C, k]
  show leaf true (Instr.brev (bv x 17 11) (bv x 24 18) (bv x 10 7)) = _
  rw [f0, f1, f2]; exact leaf_ok _ ok
theorem RoundTrip.movs (d : BitVec 7) (a : BitVec 6) (g : BitVec 4) : RoundTrip.Statement (.movs d a g) := by
  intro ok x he rest
  obtain ⟨hb, ho, m, k, f0, f1, f2, z0⟩ := form14 _ x 6 d a g (Option.some.inj he) rfl (by decide)
  refine decode_long x _ rest hb ho ?_
  rw [decode32_decodeFx3C x m, decodeFx3C, k]
  show leaf (fld x 24 24 == 0) (Instr.movs (bv x 17 11) (bv x 23 18) (bv x 10 7)) = _
  rw [f0, f1, f2, z0]; exact leaf_ok _ ok
theorem RoundTrip.movsHi (d : BitVec 7) (a : BitVec 6) (g : BitVec 4) : RoundTrip.Statement (.movsHi d a g) := by
  intro ok x he rest
  obtain ⟨hb, ho, m, k, f0, f1, f2, z0⟩ := form14 _ x 7 d a g (Option.some.inj he) rfl (by decide)
  refine decode_long x _ rest hb ho ?_
  rw [decode32_decodeFx3C x m, decodeFx3C, k]
  show leaf (fld x 24 24 == 0) (Instr.movsHi (bv x 17 11) (bv x 23 18) (bv x 10 7)) = _
  rw [f0, f1, f2, z0]; exact leaf_ok _ ok
theorem RoundTrip.rdlane (d : BitVec 7) (a : BitVec 7) (g : BitVec 4) : RoundTrip.Statement (.rdlane d a g) := by
  intro ok x he rest
  obtain ⟨hb, ho, m, k, f0, f1, f2⟩ := form13 _ x 8 d a g (Option.some.inj he) rfl (by decide)
  refine decode_long x _ rest hb ho ?_
  rw [decode32_decodeFx3C x m, decodeFx3C, k]
  show leaf true (Instr.rdlane (bv x 17 11) (bv x 24 18) (bv x 10 7)) = _
  rw [f0, f1, f2]; exact leaf_ok _ ok
theorem RoundTrip.fabs (d : BitVec 7) (a : BitVec 7) (g : BitVec 4) : RoundTrip.Statement (.fabs d a g) := by
  intro ok x he rest
  obtain ⟨hb, ho, m, k, f0, f1, f2⟩ := form13 _ x 9 d a g (Option.some.inj he) rfl (by decide)
  refine decode_long x _ rest hb ho ?_
  rw [decode32_decodeFx3C x m, decodeFx3C, k]
  show leaf true (Instr.fabs (bv x 17 11) (bv x 24 18) (bv x 10 7)) = _
  rw [f0, f1, f2]; exact leaf_ok _ ok
theorem RoundTrip.fneg (d : BitVec 7) (a : BitVec 7) (g : BitVec 4) : RoundTrip.Statement (.fneg d a g) := by
  intro ok x he rest
  obtain ⟨hb, ho, m, k, f0, f1, f2⟩ := form13 _ x 10 d a g (Option.some.inj he) rfl (by decide)
  refine decode_long x _ rest hb ho ?_
  rw [decode32_decodeFx3C x m, decodeFx3C, k]
  show leaf true (Instr.fneg (bv x 17 11) (bv x 24 18) (bv x 10 7)) = _
  rw [f0, f1, f2]; exact leaf_ok _ ok
theorem RoundTrip.frcp (d : BitVec 7) (a : BitVec 7) (g : BitVec 4) : RoundTrip.Statement (.frcp d a g) := by
  intro ok x he rest
  obtain ⟨hb, ho, m, k, f0, f1, f2⟩ := form13 _ x 11 d a g (Option.some.inj he) rfl (by decide)
  refine decode_long x _ rest hb ho ?_
  rw [decode32_decodeFx3C x m, decodeFx3C, k]
  show leaf true (Instr.frcp (bv x 17 11) (bv x 24 18) (bv x 10 7)) = _
  rw [f0, f1, f2]; exact leaf_ok _ ok
theorem RoundTrip.frsq (d : BitVec 7) (a : BitVec 7) (g : BitVec 4) : RoundTrip.Statement (.frsq d a g) := by
  intro ok x he rest
  obtain ⟨hb, ho, m, k, f0, f1, f2⟩ := form13 _ x 12 d a g (Option.some.inj he) rfl (by decide)
  refine decode_long x _ rest hb ho ?_
  rw [decode32_decodeFx3C x m, decodeFx3C, k]
  show leaf true (Instr.frsq (bv x 17 11) (bv x 24 18) (bv x 10 7)) = _
  rw [f0, f1, f2]; exact leaf_ok _ ok
theorem RoundTrip.fsqrt (d : BitVec 7) (a : BitVec 7) (g : BitVec 4) : RoundTrip.Statement (.fsqrt d a g) := by
  intro ok x he rest
  obtain ⟨hb, ho, m, k, f0, f1, f2⟩ := form13 _ x 13 d a g (Option.some.inj he) rfl (by decide)
  refine decode_long x _ rest hb ho ?_
  rw [decode32_decodeFx3C x m, decodeFx3C, k]
  show leaf true (Instr.fsqrt (bv x 17 11) (bv x 24 18) (bv x 10 7)) = _
  rw [f0, f1, f2]; exact leaf_ok _ ok
theorem RoundTrip.fexp2 (d : BitVec 7) (a : BitVec 7) (g : BitVec 4) : RoundTrip.Statement (.fexp2 d a g) := by
  intro ok x he rest
  obtain ⟨hb, ho, m, k, f0, f1, f2⟩ := form13 _ x 14 d a g (Option.some.inj he) rfl (by decide)
  refine decode_long x _ rest hb ho ?_
  rw [decode32_decodeFx3C x m, decodeFx3C, k]
  show leaf true (Instr.fexp2 (bv x 17 11) (bv x 24 18) (bv x 10 7)) = _
  rw [f0, f1, f2]; exact leaf_ok _ ok
theorem RoundTrip.flog2 (d : BitVec 7) (a : BitVec 7) (g : BitVec 4) : RoundTrip.Statement (.flog2 d a g) := by
  intro ok x he rest
  obtain ⟨hb, ho, m, k, f0, f1, f2⟩ := form13 _ x 15 d a g (Option.some.inj he) rfl (by decide)
  refine decode_long x _ rest hb ho ?_
  rw [decode32_decodeFx3C x m, decodeFx3C, k]
  show leaf true (Instr.flog2 (bv x 17 11) (bv x 24 18) (bv x 10 7)) = _
  rw [f0, f1, f2]; exact leaf_ok _ ok
theorem RoundTrip.fsin (d : BitVec 7) (a : BitVec 7) (g : BitVec 4) : RoundTrip.Statement (.fsin d a g) := by
  intro ok x he rest
  obtain ⟨hb, ho, m, k, f0, f1, f2⟩ := form13 _ x 16 d a g (Option.some.inj he) rfl (by decide)
  refine decode_long x _ rest hb ho ?_
  rw [decode32_decodeFx3C x m, decodeFx3C, k]
  show leaf true (Instr.fsin (bv x 17 11) (bv x 24 18) (bv x 10 7)) = _
  rw [f0, f1, f2]; exact leaf_ok _ ok
theorem RoundTrip.fcos (d : BitVec 7) (a : BitVec 7) (g : BitVec 4) : RoundTrip.Statement (.fcos d a g) := by
  intro ok x he rest
  obtain ⟨hb, ho, m, k, f0, f1, f2⟩ := form13 _ x 17 d a g (Option.some.inj he) rfl (by decide)
  refine decode_long x _ rest hb ho ?_
  rw [decode32_decodeFx3C x m, decodeFx3C, k]
  show leaf true (Instr.fcos (bv x 17 11) (bv x 24 18) (bv x 10 7)) = _
  rw [f0, f1, f2]; exact leaf_ok _ ok
theorem RoundTrip.frndRne (d : BitVec 7) (a : BitVec 7) (g : BitVec 4) : RoundTrip.Statement (.frndRne d a g) := by
  intro ok x he rest
  obtain ⟨hb, ho, m, k, f0, f1, f2⟩ := form13 _ x 18 d a g (Option.some.inj he) rfl (by decide)
  refine decode_long x _ rest hb ho ?_
  rw [decode32_decodeFx3C x m, decodeFx3C, k]
  show leaf true (Instr.frndRne (bv x 17 11) (bv x 24 18) (bv x 10 7)) = _
  rw [f0, f1, f2]; exact leaf_ok _ ok
theorem RoundTrip.frndRtz (d : BitVec 7) (a : BitVec 7) (g : BitVec 4) : RoundTrip.Statement (.frndRtz d a g) := by
  intro ok x he rest
  obtain ⟨hb, ho, m, k, f0, f1, f2⟩ := form13 _ x 19 d a g (Option.some.inj he) rfl (by decide)
  refine decode_long x _ rest hb ho ?_
  rw [decode32_decodeFx3C x m, decodeFx3C, k]
  show leaf true (Instr.frndRtz (bv x 17 11) (bv x 24 18) (bv x 10 7)) = _
  rw [f0, f1, f2]; exact leaf_ok _ ok
theorem RoundTrip.frndRup (d : BitVec 7) (a : BitVec 7) (g : BitVec 4) : RoundTrip.Statement (.frndRup d a g) := by
  intro ok x he rest
  obtain ⟨hb, ho, m, k, f0, f1, f2⟩ := form13 _ x 20 d a g (Option.some.inj he) rfl (by decide)
  refine decode_long x _ rest hb ho ?_
  rw [decode32_decodeFx3C x m, decodeFx3C, k]
  show leaf true (Instr.frndRup (bv x 17 11) (bv x 24 18) (bv x 10 7)) = _
  rw [f0, f1, f2]; exact leaf_ok _ ok
theorem RoundTrip.frndRdn (d : BitVec 7) (a : BitVec 7) (g : BitVec 4) : RoundTrip.Statement (.frndRdn d a g) := by
  intro ok x he rest
  obtain ⟨hb, ho, m, k, f0, f1, f2⟩ := form13 _ x 21 d a g (Option.some.inj he) rfl (by decide)
  refine decode_long x _ rest hb ho ?_
  rw [decode32_decodeFx3C x m, decodeFx3C, k]
  show leaf true (Instr.frndRdn (bv x 17 11) (bv x 24 18) (bv x 10 7)) = _
  rw [f0, f1, f2]; exact leaf_ok _ ok
theorem RoundTrip.cvt (d : BitVec 7) (a : BitVec 7) (c : BitVec 4) (g : BitVec 4) : RoundTrip.Statement (.cvt d a c g) := by
  intro ok x he rest
  obtain ⟨hb, ho, m, k, f0, f1, f2, f3⟩ := form15 _ x 32 d a c g (Option.some.inj he) rfl (by decide) (by decide)
  have h : leaf true (Instr.cvt (bv x 17 11) (bv x 24 18) (bv x 28 25) (bv x 10 7)) = some (Instr.cvt d a c g) := by rw [f0, f1, f2, f3]; exact leaf_ok _ ok
  refine decode_long x _ rest hb ho ?_
  rw [decode32_decodeFx3C x m, decodeFx3C, k]
  have hcase : c.toNat = 0 ∨ c.toNat = 1 ∨ c.toNat = 2 ∨ c.toNat = 3 ∨ c.toNat = 4 ∨ c.toNat = 5 ∨ c.toNat = 6 ∨ c.toNat = 7 ∨ c.toNat = 8 ∨ c.toNat = 9 ∨ c.toNat = 10 ∨ c.toNat = 11 ∨ c.toNat = 12 ∨ c.toNat = 13 ∨ c.toNat = 14 ∨ c.toNat = 15 := by have := c.isLt; omega
  rcases hcase with hcase | hcase | hcase | hcase | hcase | hcase | hcase | hcase | hcase | hcase | hcase | hcase | hcase | hcase | hcase | hcase <;> rw [hcase] <;> exact h
theorem RoundTrip.rzcvt (d : BitVec 7) (a : BitVec 7) (g : BitVec 4) : RoundTrip.Statement (.rzcvt d a g) := by
  intro ok x he rest
  obtain ⟨hb, ho, m, k, f0, f1, f2⟩ := form13 _ x 48 d a g (Option.some.inj he) rfl (by decide)
  refine decode_long x _ rest hb ho ?_
  rw [decode32_decodeFx3C x m, decodeFx3C, k]
  show leaf true (Instr.rzcvt (bv x 17 11) (bv x 24 18) (bv x 10 7)) = _
  rw [f0, f1, f2]; exact leaf_ok _ ok
theorem RoundTrip.rzadd (d : BitVec 7) (a : BitVec 7) (g : BitVec 4) : RoundTrip.Statement (.rzadd d a g) := by
  intro ok x he rest
  obtain ⟨hb, ho, m, k, f0, f1, f2⟩ := form13 _ x 49 d a g (Option.some.inj he) rfl (by decide)
  refine decode_long x _ rest hb ho ?_
  rw [decode32_decodeFx3C x m, decodeFx3C, k]
  show leaf true (Instr.rzadd (bv x 17 11) (bv x 24 18) (bv x 10 7)) = _
  rw [f0, f1, f2]; exact leaf_ok _ ok
theorem RoundTrip.vsome (d : BitVec 3) (a : BitVec 3) (g : BitVec 4) : RoundTrip.Statement (.vsome d a g) := by
  intro ok x he rest
  obtain ⟨hb, ho, m, k, f0, f1, f2, z0, z1⟩ := form16 _ x 0 d a g (Option.some.inj he) rfl (by decide)
  refine decode_long x _ rest hb ho ?_
  rw [decode32_decodeFx3D x m, decodeFx3D, k]
  show leaf (fld x 24 21 == 0 && fld x 17 14 == 0) (Instr.vsome (bv x 13 11) (bv x 20 18) (bv x 10 7)) = _
  rw [f0, f1, f2, z0, z1]; exact leaf_ok _ ok
theorem RoundTrip.vevery (d : BitVec 3) (a : BitVec 3) (g : BitVec 4) : RoundTrip.Statement (.vevery d a g) := by
  intro ok x he rest
  obtain ⟨hb, ho, m, k, f0, f1, f2, z0, z1⟩ := form16 _ x 1 d a g (Option.some.inj he) rfl (by decide)
  refine decode_long x _ rest hb ho ?_
  rw [decode32_decodeFx3D x m, decodeFx3D, k]
  show leaf (fld x 24 21 == 0 && fld x 17 14 == 0) (Instr.vevery (bv x 13 11) (bv x 20 18) (bv x 10 7)) = _
  rw [f0, f1, f2, z0, z1]; exact leaf_ok _ ok
theorem RoundTrip.badge (d : BitVec 6) (a : BitVec 3) (g : BitVec 4) : RoundTrip.Statement (.badge d a g) := by
  intro ok x he rest
  obtain ⟨hb, ho, m, k, f0, f1, f2, z0, z1⟩ := form17 _ x 2 d a g (Option.some.inj he) rfl (by decide)
  refine decode_long x _ rest hb ho ?_
  rw [decode32_decodeFx3D x m, decodeFx3D, k]
  show leaf (fld x 24 21 == 0 && fld x 17 17 == 0) (Instr.badge (bv x 16 11) (bv x 20 18) (bv x 10 7)) = _
  rw [f0, f1, f2, z0, z1]; exact leaf_ok _ ok
theorem RoundTrip.mates (d : BitVec 7) (a : BitVec 7) (g : BitVec 4) : RoundTrip.Statement (.mates d a g) := by
  intro ok x he rest
  obtain ⟨hb, ho, m, k, f0, f1, f2⟩ := form18 _ x 3 d a g (Option.some.inj he) rfl (by decide)
  refine decode_long x _ rest hb ho ?_
  rw [decode32_decodeFx3D x m, decodeFx3D, k]
  show leaf true (Instr.mates (bv x 17 11) (bv x 24 18) (bv x 10 7)) = _
  rw [f0, f1, f2]; exact leaf_ok _ ok
theorem RoundTrip.refoldAdd (d : BitVec 6) (a : BitVec 7) (g : BitVec 4) : RoundTrip.Statement (.refoldAdd d a g) := by
  intro ok x he rest
  obtain ⟨hb, ho, m, k, f0, f1, f2, z0⟩ := form19 _ x 4 d a g (Option.some.inj he) rfl (by decide)
  refine decode_long x _ rest hb ho ?_
  rw [decode32_decodeFx3D x m, decodeFx3D, k]
  show leaf (fld x 17 17 == 0) (Instr.refoldAdd (bv x 16 11) (bv x 24 18) (bv x 10 7)) = _
  rw [f0, f1, f2, z0]; exact leaf_ok _ ok
theorem RoundTrip.refoldMin (d : BitVec 6) (a : BitVec 7) (g : BitVec 4) : RoundTrip.Statement (.refoldMin d a g) := by
  intro ok x he rest
  obtain ⟨hb, ho, m, k, f0, f1, f2, z0⟩ := form19 _ x 5 d a g (Option.some.inj he) rfl (by decide)
  refine decode_long x _ rest hb ho ?_
  rw [decode32_decodeFx3D x m, decodeFx3D, k]
  show leaf (fld x 17 17 == 0) (Instr.refoldMin (bv x 16 11) (bv x 24 18) (bv x 10 7)) = _
  rw [f0, f1, f2, z0]; exact leaf_ok _ ok
theorem RoundTrip.refoldMax (d : BitVec 6) (a : BitVec 7) (g : BitVec 4) : RoundTrip.Statement (.refoldMax d a g) := by
  intro ok x he rest
  obtain ⟨hb, ho, m, k, f0, f1, f2, z0⟩ := form19 _ x 6 d a g (Option.some.inj he) rfl (by decide)
  refine decode_long x _ rest hb ho ?_
  rw [decode32_decodeFx3D x m, decodeFx3D, k]
  show leaf (fld x 17 17 == 0) (Instr.refoldMax (bv x 16 11) (bv x 24 18) (bv x 10 7)) = _
  rw [f0, f1, f2, z0]; exact leaf_ok _ ok
theorem RoundTrip.refoldFadd (d : BitVec 6) (a : BitVec 7) (g : BitVec 4) : RoundTrip.Statement (.refoldFadd d a g) := by
  intro ok x he rest
  obtain ⟨hb, ho, m, k, f0, f1, f2, z0⟩ := form19 _ x 7 d a g (Option.some.inj he) rfl (by decide)
  refine decode_long x _ rest hb ho ?_
  rw [decode32_decodeFx3D x m, decodeFx3D, k]
  show leaf (fld x 17 17 == 0) (Instr.refoldFadd (bv x 16 11) (bv x 24 18) (bv x 10 7)) = _
  rw [f0, f1, f2, z0]; exact leaf_ok _ ok
theorem RoundTrip.refoldMinu (d : BitVec 6) (a : BitVec 7) (g : BitVec 4) : RoundTrip.Statement (.refoldMinu d a g) := by
  intro ok x he rest
  obtain ⟨hb, ho, m, k, f0, f1, f2, z0⟩ := form19 _ x 14 d a g (Option.some.inj he) rfl (by decide)
  refine decode_long x _ rest hb ho ?_
  rw [decode32_decodeFx3D x m, decodeFx3D, k]
  show leaf (fld x 17 17 == 0) (Instr.refoldMinu (bv x 16 11) (bv x 24 18) (bv x 10 7)) = _
  rw [f0, f1, f2, z0]; exact leaf_ok _ ok
theorem RoundTrip.refoldMaxu (d : BitVec 6) (a : BitVec 7) (g : BitVec 4) : RoundTrip.Statement (.refoldMaxu d a g) := by
  intro ok x he rest
  obtain ⟨hb, ho, m, k, f0, f1, f2, z0⟩ := form19 _ x 15 d a g (Option.some.inj he) rfl (by decide)
  refine decode_long x _ rest hb ho ?_
  rw [decode32_decodeFx3D x m, decodeFx3D, k]
  show leaf (fld x 17 17 == 0) (Instr.refoldMaxu (bv x 16 11) (bv x 24 18) (bv x 10 7)) = _
  rw [f0, f1, f2, z0]; exact leaf_ok _ ok
theorem RoundTrip.ppack (d : BitVec 7) (g : BitVec 4) : RoundTrip.Statement (.ppack d g) := by
  intro ok x he rest
  obtain ⟨hb, ho, m, k, f0, f1, z0⟩ := form20 _ x 8 d g (Option.some.inj he) rfl (by decide)
  refine decode_long x _ rest hb ho ?_
  rw [decode32_decodeFx3D x m, decodeFx3D, k]
  show leaf (fld x 24 18 == 0) (Instr.ppack (bv x 17 11) (bv x 10 7)) = _
  rw [f0, f1, z0]; exact leaf_ok _ ok
theorem RoundTrip.punpack (a : BitVec 7) (g : BitVec 4) : RoundTrip.Statement (.punpack a g) := by
  intro ok x he rest
  obtain ⟨hb, ho, m, k, f0, f1, z0⟩ := form21 _ x 9 a g (Option.some.inj he) rfl (by decide)
  refine decode_long x _ rest hb ho ?_
  rw [decode32_decodeFx3D x m, decodeFx3D, k]
  show leaf (fld x 17 11 == 0) (Instr.punpack (bv x 24 18) (bv x 10 7)) = _
  rw [f0, f1, z0]; exact leaf_ok _ ok
theorem RoundTrip.pand (d : BitVec 3) (a : BitVec 3) (g : BitVec 4) : RoundTrip.Statement (.pand d a g) := by
  intro ok x he rest
  obtain ⟨hb, ho, m, k, f0, f1, f2, z0, z1⟩ := form16 _ x 10 d a g (Option.some.inj he) rfl (by decide)
  refine decode_long x _ rest hb ho ?_
  rw [decode32_decodeFx3D x m, decodeFx3D, k]
  show leaf (fld x 24 21 == 0 && fld x 17 14 == 0) (Instr.pand (bv x 13 11) (bv x 20 18) (bv x 10 7)) = _
  rw [f0, f1, f2, z0, z1]; exact leaf_ok _ ok
theorem RoundTrip.por (d : BitVec 3) (a : BitVec 3) (g : BitVec 4) : RoundTrip.Statement (.por d a g) := by
  intro ok x he rest
  obtain ⟨hb, ho, m, k, f0, f1, f2, z0, z1⟩ := form16 _ x 11 d a g (Option.some.inj he) rfl (by decide)
  refine decode_long x _ rest hb ho ?_
  rw [decode32_decodeFx3D x m, decodeFx3D, k]
  show leaf (fld x 24 21 == 0 && fld x 17 14 == 0) (Instr.por (bv x 13 11) (bv x 20 18) (bv x 10 7)) = _
  rw [f0, f1, f2, z0, z1]; exact leaf_ok _ ok
theorem RoundTrip.pxor (d : BitVec 3) (a : BitVec 3) (g : BitVec 4) : RoundTrip.Statement (.pxor d a g) := by
  intro ok x he rest
  obtain ⟨hb, ho, m, k, f0, f1, f2, z0, z1⟩ := form16 _ x 12 d a g (Option.some.inj he) rfl (by decide)
  refine decode_long x _ rest hb ho ?_
  rw [decode32_decodeFx3D x m, decodeFx3D, k]
  show leaf (fld x 24 21 == 0 && fld x 17 14 == 0) (Instr.pxor (bv x 13 11) (bv x 20 18) (bv x 10 7)) = _
  rw [f0, f1, f2, z0, z1]; exact leaf_ok _ ok
theorem RoundTrip.pnot (d : BitVec 3) (a : BitVec 3) (g : BitVec 4) : RoundTrip.Statement (.pnot d a g) := by
  intro ok x he rest
  obtain ⟨hb, ho, m, k, f0, f1, f2, z0, z1⟩ := form16 _ x 13 d a g (Option.some.inj he) rfl (by decide)
  refine decode_long x _ rest hb ho ?_
  rw [decode32_decodeFx3D x m, decodeFx3D, k]
  show leaf (fld x 24 21 == 0 && fld x 17 14 == 0) (Instr.pnot (bv x 13 11) (bv x 20 18) (bv x 10 7)) = _
  rw [f0, f1, f2, z0, z1]; exact leaf_ok _ ok
theorem RoundTrip.sptest (d : BitVec 3) (a : BitVec 7) (w : BitVec 2) (g : BitVec 4) : RoundTrip.Statement (.sptest d a w g) := by
  intro ok x he rest
  obtain ⟨hb, ho, m, k, f0, f1, f2, f3, z0⟩ := form22 _ x 16 d a w g (Option.some.inj he) rfl (by decide) (by decide)
  have h : leaf (fld x 17 14 == 0) (Instr.sptest (bv x 13 11) (bv x 24 18) (bv x 26 25) (bv x 10 7)) = some (Instr.sptest d a w g) := by rw [f0, f1, f2, f3, z0]; exact leaf_ok _ ok
  refine decode_long x _ rest hb ho ?_
  rw [decode32_decodeFx3D x m, decodeFx3D, k]
  have hcase : w.toNat = 0 ∨ w.toNat = 1 ∨ w.toNat = 2 ∨ w.toNat = 3 := by have := w.isLt; omega
  rcases hcase with hcase | hcase | hcase | hcase <;> rw [hcase] <;> exact h
theorem RoundTrip.spcastToprv (d : BitVec 7) (a : BitVec 7) (g : BitVec 4) : RoundTrip.Statement (.spcastToprv d a g) := by
  intro ok x he rest
  obtain ⟨hb, ho, m, k, f0, f1, f2⟩ := form18 _ x 20 d a g (Option.some.inj he) rfl (by decide)
  refine decode_long x _ rest hb ho ?_
  rw [decode32_decodeFx3D x m, decodeFx3D, k]
  show leaf true (Instr.spcastToprv (bv x 17 11) (bv x 24 18) (bv x 10 7)) = _
  rw [f0, f1, f2]; exact leaf_ok _ ok
theorem RoundTrip.spcastToscr (d : BitVec 7) (a : BitVec 7) (g : BitVec 4) : RoundTrip.Statement (.spcastToscr d a g) := by
  intro ok x he rest
  obtain ⟨hb, ho, m, k, f0, f1, f2⟩ := form18 _ x 21 d a g (Option.some.inj he) rfl (by decide)
  refine decode_long x _ rest hb ho ?_
  rw [decode32_decodeFx3D x m, decodeFx3D, k]
  show leaf true (Instr.spcastToscr (bv x 17 11) (bv x 24 18) (bv x 10 7)) = _
  rw [f0, f1, f2]; exact leaf_ok _ ok
theorem RoundTrip.spcastToclu (d : BitVec 7) (a : BitVec 7) (g : BitVec 4) : RoundTrip.Statement (.spcastToclu d a g) := by
  intro ok x he rest
  obtain ⟨hb, ho, m, k, f0, f1, f2⟩ := form18 _ x 22 d a g (Option.some.inj he) rfl (by decide)
  refine decode_long x _ rest hb ho ?_
  rw [decode32_decodeFx3D x m, decodeFx3D, k]
  show leaf true (Instr.spcastToclu (bv x 17 11) (bv x 24 18) (bv x 10 7)) = _
  rw [f0, f1, f2]; exact leaf_ok _ ok
theorem RoundTrip.spcastPrvgen (d : BitVec 7) (a : BitVec 7) (g : BitVec 4) : RoundTrip.Statement (.spcastPrvgen d a g) := by
  intro ok x he rest
  obtain ⟨hb, ho, m, k, f0, f1, f2⟩ := form18 _ x 23 d a g (Option.some.inj he) rfl (by decide)
  refine decode_long x _ rest hb ho ?_
  rw [decode32_decodeFx3D x m, decodeFx3D, k]
  show leaf true (Instr.spcastPrvgen (bv x 17 11) (bv x 24 18) (bv x 10 7)) = _
  rw [f0, f1, f2]; exact leaf_ok _ ok
theorem RoundTrip.spcastScrgen (d : BitVec 7) (a : BitVec 7) (g : BitVec 4) : RoundTrip.Statement (.spcastScrgen d a g) := by
  intro ok x he rest
  obtain ⟨hb, ho, m, k, f0, f1, f2⟩ := form18 _ x 24 d a g (Option.some.inj he) rfl (by decide)
  refine decode_long x _ rest hb ho ?_
  rw [decode32_decodeFx3D x m, decodeFx3D, k]
  show leaf true (Instr.spcastScrgen (bv x 17 11) (bv x 24 18) (bv x 10 7)) = _
  rw [f0, f1, f2]; exact leaf_ok _ ok
theorem RoundTrip.spcastClugen (d : BitVec 7) (a : BitVec 7) (g : BitVec 4) : RoundTrip.Statement (.spcastClugen d a g) := by
  intro ok x he rest
  obtain ⟨hb, ho, m, k, f0, f1, f2⟩ := form18 _ x 25 d a g (Option.some.inj he) rfl (by decide)
  refine decode_long x _ rest hb ho ?_
  rw [decode32_decodeFx3D x m, decodeFx3D, k]
  show leaf true (Instr.spcastClugen (bv x 17 11) (bv x 24 18) (bv x 10 7)) = _
  rw [f0, f1, f2]; exact leaf_ok _ ok
theorem RoundTrip.lda (d : BitVec 7) (a : BitVec 7) (g : BitVec 4) : RoundTrip.Statement (.lda d a g) := by
  intro ok x he rest
  obtain ⟨hb, ho, m, k, f0, f1, f2⟩ := form18 _ x 26 d a g (Option.some.inj he) rfl (by decide)
  refine decode_long x _ rest hb ho ?_
  rw [decode32_decodeFx3D x m, decodeFx3D, k]
  show leaf true (Instr.lda (bv x 17 11) (bv x 24 18) (bv x 10 7)) = _
  rw [f0, f1, f2]; exact leaf_ok _ ok
theorem RoundTrip.pref (a : BitVec 7) (g : BitVec 4) : RoundTrip.Statement (.pref a g) := by
  intro ok x he rest
  obtain ⟨hb, ho, m, k, f0, f1, z0⟩ := form21 _ x 27 a g (Option.some.inj he) rfl (by decide)
  refine decode_long x _ rest hb ho ?_
  rw [decode32_decodeFx3D x m, decodeFx3D, k]
  show leaf (fld x 17 11 == 0) (Instr.pref (bv x 24 18) (bv x 10 7)) = _
  rw [f0, f1, z0]; exact leaf_ok _ ok
theorem RoundTrip.invro (g : BitVec 4) : RoundTrip.Statement (.invro g) := by
  intro ok x he rest
  obtain ⟨hb, ho, m, k, f0, z0⟩ := form23 _ x 28 g (Option.some.inj he) rfl (by decide)
  refine decode_long x _ rest hb ho ?_
  rw [decode32_decodeFx3D x m, decodeFx3D, k]
  show leaf (fld x 24 11 == 0) (Instr.invro (bv x 10 7)) = _
  rw [f0, z0]; exact leaf_ok _ ok
theorem RoundTrip.cflush (a : BitVec 7) (g : BitVec 4) : RoundTrip.Statement (.cflush a g) := by
  intro ok x he rest
  obtain ⟨hb, ho, m, k, f0, f1, z0⟩ := form21 _ x 29 a g (Option.some.inj he) rfl (by decide)
  refine decode_long x _ rest hb ho ?_
  rw [decode32_decodeFx3D x m, decodeFx3D, k]
  show leaf (fld x 17 11 == 0) (Instr.cflush (bv x 24 18) (bv x 10 7)) = _
  rw [f0, f1, z0]; exact leaf_ok _ ok
theorem RoundTrip.cinv (a : BitVec 7) (g : BitVec 4) : RoundTrip.Statement (.cinv a g) := by
  intro ok x he rest
  obtain ⟨hb, ho, m, k, f0, f1, z0⟩ := form21 _ x 30 a g (Option.some.inj he) rfl (by decide)
  refine decode_long x _ rest hb ho ?_
  rw [decode32_decodeFx3D x m, decodeFx3D, k]
  show leaf (fld x 17 11 == 0) (Instr.cinv (bv x 24 18) (bv x 10 7)) = _
  rw [f0, f1, z0]; exact leaf_ok _ ok
theorem RoundTrip.atomAdd (d : BitVec 7) (a : BitVec 7) (w : BitVec 1) (g : BitVec 4) : RoundTrip.Statement (.atomAdd d a w g) := by
  intro ok x he rest
  obtain ⟨hb, ho, m, k, f0, f1, f2, f3⟩ := form24 _ x 32 d a w g (Option.some.inj he) rfl (by decide) (by decide)
  have h : leaf true (Instr.atomAdd (bv x 17 11) (bv x 24 18) (bv x 25 25) (bv x 10 7)) = some (Instr.atomAdd d a w g) := by rw [f0, f1, f2, f3]; exact leaf_ok _ ok
  refine decode_long x _ rest hb ho ?_
  rw [decode32_decodeFx3D x m, decodeFx3D, k]
  have hcase : w.toNat = 0 ∨ w.toNat = 1 := by have := w.isLt; omega
  rcases hcase with hcase | hcase <;> rw [hcase] <;> exact h
theorem RoundTrip.atomMinS (d : BitVec 7) (a : BitVec 7) (w : BitVec 1) (g : BitVec 4) : RoundTrip.Statement (.atomMinS d a w g) := by
  intro ok x he rest
  obtain ⟨hb, ho, m, k, f0, f1, f2, f3⟩ := form24 _ x 34 d a w g (Option.some.inj he) rfl (by decide) (by decide)
  have h : leaf true (Instr.atomMinS (bv x 17 11) (bv x 24 18) (bv x 25 25) (bv x 10 7)) = some (Instr.atomMinS d a w g) := by rw [f0, f1, f2, f3]; exact leaf_ok _ ok
  refine decode_long x _ rest hb ho ?_
  rw [decode32_decodeFx3D x m, decodeFx3D, k]
  have hcase : w.toNat = 0 ∨ w.toNat = 1 := by have := w.isLt; omega
  rcases hcase with hcase | hcase <;> rw [hcase] <;> exact h
theorem RoundTrip.atomMaxS (d : BitVec 7) (a : BitVec 7) (w : BitVec 1) (g : BitVec 4) : RoundTrip.Statement (.atomMaxS d a w g) := by
  intro ok x he rest
  obtain ⟨hb, ho, m, k, f0, f1, f2, f3⟩ := form24 _ x 36 d a w g (Option.some.inj he) rfl (by decide) (by decide)
  have h : leaf true (Instr.atomMaxS (bv x 17 11) (bv x 24 18) (bv x 25 25) (bv x 10 7)) = some (Instr.atomMaxS d a w g) := by rw [f0, f1, f2, f3]; exact leaf_ok _ ok
  refine decode_long x _ rest hb ho ?_
  rw [decode32_decodeFx3D x m, decodeFx3D, k]
  have hcase : w.toNat = 0 ∨ w.toNat = 1 := by have := w.isLt; omega
  rcases hcase with hcase | hcase <;> rw [hcase] <;> exact h
theorem RoundTrip.atomMinU (d : BitVec 7) (a : BitVec 7) (w : BitVec 1) (g : BitVec 4) : RoundTrip.Statement (.atomMinU d a w g) := by
  intro ok x he rest
  obtain ⟨hb, ho, m, k, f0, f1, f2, f3⟩ := form24 _ x 38 d a w g (Option.some.inj he) rfl (by decide) (by decide)
  have h : leaf true (Instr.atomMinU (bv x 17 11) (bv x 24 18) (bv x 25 25) (bv x 10 7)) = some (Instr.atomMinU d a w g) := by rw [f0, f1, f2, f3]; exact leaf_ok _ ok
  refine decode_long x _ rest hb ho ?_
  rw [decode32_decodeFx3D x m, decodeFx3D, k]
  have hcase : w.toNat = 0 ∨ w.toNat = 1 := by have := w.isLt; omega
  rcases hcase with hcase | hcase <;> rw [hcase] <;> exact h
theorem RoundTrip.atomMaxU (d : BitVec 7) (a : BitVec 7) (w : BitVec 1) (g : BitVec 4) : RoundTrip.Statement (.atomMaxU d a w g) := by
  intro ok x he rest
  obtain ⟨hb, ho, m, k, f0, f1, f2, f3⟩ := form24 _ x 40 d a w g (Option.some.inj he) rfl (by decide) (by decide)
  have h : leaf true (Instr.atomMaxU (bv x 17 11) (bv x 24 18) (bv x 25 25) (bv x 10 7)) = some (Instr.atomMaxU d a w g) := by rw [f0, f1, f2, f3]; exact leaf_ok _ ok
  refine decode_long x _ rest hb ho ?_
  rw [decode32_decodeFx3D x m, decodeFx3D, k]
  have hcase : w.toNat = 0 ∨ w.toNat = 1 := by have := w.isLt; omega
  rcases hcase with hcase | hcase <;> rw [hcase] <;> exact h
theorem RoundTrip.atomAnd (d : BitVec 7) (a : BitVec 7) (w : BitVec 1) (g : BitVec 4) : RoundTrip.Statement (.atomAnd d a w g) := by
  intro ok x he rest
  obtain ⟨hb, ho, m, k, f0, f1, f2, f3⟩ := form24 _ x 42 d a w g (Option.some.inj he) rfl (by decide) (by decide)
  have h : leaf true (Instr.atomAnd (bv x 17 11) (bv x 24 18) (bv x 25 25) (bv x 10 7)) = some (Instr.atomAnd d a w g) := by rw [f0, f1, f2, f3]; exact leaf_ok _ ok
  refine decode_long x _ rest hb ho ?_
  rw [decode32_decodeFx3D x m, decodeFx3D, k]
  have hcase : w.toNat = 0 ∨ w.toNat = 1 := by have := w.isLt; omega
  rcases hcase with hcase | hcase <;> rw [hcase] <;> exact h
theorem RoundTrip.atomOr (d : BitVec 7) (a : BitVec 7) (w : BitVec 1) (g : BitVec 4) : RoundTrip.Statement (.atomOr d a w g) := by
  intro ok x he rest
  obtain ⟨hb, ho, m, k, f0, f1, f2, f3⟩ := form24 _ x 44 d a w g (Option.some.inj he) rfl (by decide) (by decide)
  have h : leaf true (Instr.atomOr (bv x 17 11) (bv x 24 18) (bv x 25 25) (bv x 10 7)) = some (Instr.atomOr d a w g) := by rw [f0, f1, f2, f3]; exact leaf_ok _ ok
  refine decode_long x _ rest hb ho ?_
  rw [decode32_decodeFx3D x m, decodeFx3D, k]
  have hcase : w.toNat = 0 ∨ w.toNat = 1 := by have := w.isLt; omega
  rcases hcase with hcase | hcase <;> rw [hcase] <;> exact h
theorem RoundTrip.atomXor (d : BitVec 7) (a : BitVec 7) (w : BitVec 1) (g : BitVec 4) : RoundTrip.Statement (.atomXor d a w g) := by
  intro ok x he rest
  obtain ⟨hb, ho, m, k, f0, f1, f2, f3⟩ := form24 _ x 46 d a w g (Option.some.inj he) rfl (by decide) (by decide)
  have h : leaf true (Instr.atomXor (bv x 17 11) (bv x 24 18) (bv x 25 25) (bv x 10 7)) = some (Instr.atomXor d a w g) := by rw [f0, f1, f2, f3]; exact leaf_ok _ ok
  refine decode_long x _ rest hb ho ?_
  rw [decode32_decodeFx3D x m, decodeFx3D, k]
  have hcase : w.toNat = 0 ∨ w.toNat = 1 := by have := w.isLt; omega
  rcases hcase with hcase | hcase <;> rw [hcase] <;> exact h
theorem RoundTrip.atomExch (d : BitVec 7) (a : BitVec 7) (w : BitVec 1) (g : BitVec 4) : RoundTrip.Statement (.atomExch d a w g) := by
  intro ok x he rest
  obtain ⟨hb, ho, m, k, f0, f1, f2, f3⟩ := form24 _ x 48 d a w g (Option.some.inj he) rfl (by decide) (by decide)
  have h : leaf true (Instr.atomExch (bv x 17 11) (bv x 24 18) (bv x 25 25) (bv x 10 7)) = some (Instr.atomExch d a w g) := by rw [f0, f1, f2, f3]; exact leaf_ok _ ok
  refine decode_long x _ rest hb ho ?_
  rw [decode32_decodeFx3D x m, decodeFx3D, k]
  have hcase : w.toNat = 0 ∨ w.toNat = 1 := by have := w.isLt; omega
  rcases hcase with hcase | hcase <;> rw [hcase] <;> exact h
theorem RoundTrip.atomcas (d : BitVec 7) (a : BitVec 7) (w : BitVec 1) (g : BitVec 4) : RoundTrip.Statement (.atomcas d a w g) := by
  intro ok x he rest
  obtain ⟨hb, ho, m, k, f0, f1, f2, f3⟩ := form24 _ x 50 d a w g (Option.some.inj he) rfl (by decide) (by decide)
  have h : leaf true (Instr.atomcas (bv x 17 11) (bv x 24 18) (bv x 25 25) (bv x 10 7)) = some (Instr.atomcas d a w g) := by rw [f0, f1, f2, f3]; exact leaf_ok _ ok
  refine decode_long x _ rest hb ho ?_
  rw [decode32_decodeFx3D x m, decodeFx3D, k]
  have hcase : w.toNat = 0 ∨ w.toNat = 1 := by have := w.isLt; omega
  rcases hcase with hcase | hcase <;> rw [hcase] <;> exact h
theorem RoundTrip.redAdd32 (d : BitVec 7) (a : BitVec 7) (g : BitVec 4) : RoundTrip.Statement (.redAdd32 d a g) := by
  intro ok x he rest
  obtain ⟨hb, ho, m, k, f0, f1, f2⟩ := form18 _ x 56 d a g (Option.some.inj he) rfl (by decide)
  refine decode_long x _ rest hb ho ?_
  rw [decode32_decodeFx3D x m, decodeFx3D, k]
  show leaf true (Instr.redAdd32 (bv x 17 11) (bv x 24 18) (bv x 10 7)) = _
  rw [f0, f1, f2]; exact leaf_ok _ ok
theorem RoundTrip.redAdd64 (d : BitVec 7) (a : BitVec 7) (g : BitVec 4) : RoundTrip.Statement (.redAdd64 d a g) := by
  intro ok x he rest
  obtain ⟨hb, ho, m, k, f0, f1, f2⟩ := form18 _ x 57 d a g (Option.some.inj he) rfl (by decide)
  refine decode_long x _ rest hb ho ?_
  rw [decode32_decodeFx3D x m, decodeFx3D, k]
  show leaf true (Instr.redAdd64 (bv x 17 11) (bv x 24 18) (bv x 10 7)) = _
  rw [f0, f1, f2]; exact leaf_ok _ ok
theorem RoundTrip.redMaxU64 (d : BitVec 7) (a : BitVec 7) (g : BitVec 4) : RoundTrip.Statement (.redMaxU64 d a g) := by
  intro ok x he rest
  obtain ⟨hb, ho, m, k, f0, f1, f2⟩ := form18 _ x 58 d a g (Option.some.inj he) rfl (by decide)
  refine decode_long x _ rest hb ho ?_
  rw [decode32_decodeFx3D x m, decodeFx3D, k]
  show leaf true (Instr.redMaxU64 (bv x 17 11) (bv x 24 18) (bv x 10 7)) = _
  rw [f0, f1, f2]; exact leaf_ok _ ok
theorem RoundTrip.redMinS32 (d : BitVec 7) (a : BitVec 7) (g : BitVec 4) : RoundTrip.Statement (.redMinS32 d a g) := by
  intro ok x he rest
  obtain ⟨hb, ho, m, k, f0, f1, f2⟩ := form18 _ x 59 d a g (Option.some.inj he) rfl (by decide)
  refine decode_long x _ rest hb ho ?_
  rw [decode32_decodeFx3D x m, decodeFx3D, k]
  show leaf true (Instr.redMinS32 (bv x 17 11) (bv x 24 18) (bv x 10 7)) = _
  rw [f0, f1, f2]; exact leaf_ok _ ok
theorem RoundTrip.redMaxS32 (d : BitVec 7) (a : BitVec 7) (g : BitVec 4) : RoundTrip.Statement (.redMaxS32 d a g) := by
  intro ok x he rest
  obtain ⟨hb, ho, m, k, f0, f1, f2⟩ := form18 _ x 60 d a g (Option.some.inj he) rfl (by decide)
  refine decode_long x _ rest hb ho ?_
  rw [decode32_decodeFx3D x m, decodeFx3D, k]
  show leaf true (Instr.redMaxS32 (bv x 17 11) (bv x 24 18) (bv x 10 7)) = _
  rw [f0, f1, f2]; exact leaf_ok _ ok
theorem RoundTrip.redOr32 (d : BitVec 7) (a : BitVec 7) (g : BitVec 4) : RoundTrip.Statement (.redOr32 d a g) := by
  intro ok x he rest
  obtain ⟨hb, ho, m, k, f0, f1, f2⟩ := form18 _ x 61 d a g (Option.some.inj he) rfl (by decide)
  refine decode_long x _ rest hb ho ?_
  rw [decode32_decodeFx3D x m, decodeFx3D, k]
  show leaf true (Instr.redOr32 (bv x 17 11) (bv x 24 18) (bv x 10 7)) = _
  rw [f0, f1, f2]; exact leaf_ok _ ok
theorem RoundTrip.redFaddF32 (d : BitVec 7) (a : BitVec 7) (g : BitVec 4) : RoundTrip.Statement (.redFaddF32 d a g) := by
  intro ok x he rest
  obtain ⟨hb, ho, m, k, f0, f1, f2⟩ := form18 _ x 62 d a g (Option.some.inj he) rfl (by decide)
  refine decode_long x _ rest hb ho ?_
  rw [decode32_decodeFx3D x m, decodeFx3D, k]
  show leaf true (Instr.redFaddF32 (bv x 17 11) (bv x 24 18) (bv x 10 7)) = _
  rw [f0, f1, f2]; exact leaf_ok _ ok
theorem RoundTrip.redRzadd (d : BitVec 7) (a : BitVec 7) (g : BitVec 4) : RoundTrip.Statement (.redRzadd d a g) := by
  intro ok x he rest
  obtain ⟨hb, ho, m, k, f0, f1, f2⟩ := form18 _ x 63 d a g (Option.some.inj he) rfl (by decide)
  refine decode_long x _ rest hb ho ?_
  rw [decode32_decodeFx3D x m, decodeFx3D, k]
  show leaf true (Instr.redRzadd (bv x 17 11) (bv x 24 18) (bv x 10 7)) = _
  rw [f0, f1, f2]; exact leaf_ok _ ok
theorem RoundTrip.fence (s : BitVec 3) (g : BitVec 4) : RoundTrip.Statement (.fence s g) := by
  intro ok x he rest
  obtain ⟨hb, ho, m, k, f0, f1, z0⟩ := form25 _ x 0 s g (Option.some.inj he) rfl (by decide) (by decide)
  have h : leaf (fld x 24 11 == 0) (Instr.fence (bv x 27 25) (bv x 10 7)) = some (Instr.fence s g) := by rw [f0, f1, z0]; exact leaf_ok _ ok
  refine decode_long x _ rest hb ho ?_
  rw [decode32_decodeFx3E x m, decodeFx3E, k]
  have hcase : s.toNat = 0 ∨ s.toNat = 1 ∨ s.toNat = 2 ∨ s.toNat = 3 ∨ s.toNat = 4 ∨ s.toNat = 5 ∨ s.toNat = 6 ∨ s.toNat = 7 := by have := s.isLt; omega
  rcases hcase with hcase | hcase | hcase | hcase | hcase | hcase | hcase | hcase <;> rw [hcase] <;> exact h
theorem RoundTrip.bar (l : BitVec 2) (n : BitVec 3) : RoundTrip.Statement (.bar l n) := by
  intro ok x he rest
  obtain ⟨hb, ho, m, k, f0, f1, z0, z1⟩ := form26 _ x 8 l n (Option.some.inj he) rfl (by decide) (by decide)
  have h : leaf (fld x 24 14 == 0 && fld x 10 7 == 0) (Instr.bar (bv x 26 25) (bv x 13 11)) = some (Instr.bar l n) := by rw [f0, f1, z0, z1]; exact leaf_ok _ ok
  refine decode_long x _ rest hb ho ?_
  rw [decode32_decodeFx3E x m, decodeFx3E, k]
  have hcase : l.toNat = 0 ∨ l.toNat = 1 ∨ l.toNat = 2 ∨ l.toNat = 3 := by have := l.isLt; omega
  rcases hcase with hcase | hcase | hcase | hcase <;> rw [hcase] <;> exact h
theorem RoundTrip.bararr (l : BitVec 2) (n : BitVec 3) : RoundTrip.Statement (.bararr l n) := by
  intro ok x he rest
  obtain ⟨hb, ho, m, k, f0, f1, z0, z1⟩ := form27 _ x 12 l n (Option.some.inj he) rfl (by decide)
  refine decode_long x _ rest hb ho ?_
  rw [decode32_decodeFx3E x m, decodeFx3E, k]
  show leaf (fld x 24 16 == 0 && fld x 10 7 == 0) (Instr.bararr (bv x 15 14) (bv x 13 11)) = _
  rw [f0, f1, z0, z1]; exact leaf_ok _ ok
theorem RoundTrip.barwt (l : BitVec 2) (n : BitVec 3) : RoundTrip.Statement (.barwt l n) := by
  intro ok x he rest
  have e := Option.some.inj he
  have hl := l.isLt; have hn := n.isLt
  refine decode_long x _ rest (by omega) (by omega) ?_
  rw [decode32_decodeFx3E x (by unfold fld; omega), decodeFx3E, show fld x 31 25 = 13 by unfold fld; omega]
  show (leaf (fld x 24 16 == 0 && fld x 10 7 == 0) (Instr.barwt (bv x 15 14) (bv x 13 11)) <|> leaf (fld x 24 13 == 10 && fld x 10 7 == 0) (Instr.barwtRemote (bv x 12 11))) = _
  rw [bv_eq x 15 14 l (by unfold fld; omega), bv_eq x 13 11 n (by unfold fld; omega), show fld x 24 16 = 0 by unfold fld; omega, show fld x 10 7 = 0 by unfold fld; omega]
  exact alt_ok _ _ _ rfl ok
theorem RoundTrip.barwtRemote (n : BitVec 2) : RoundTrip.Statement (.barwtRemote n) := by
  intro ok x he rest
  have e := Option.some.inj he
  have hn := n.isLt
  refine decode_long x _ rest (by omega) (by omega) ?_
  rw [decode32_decodeFx3E x (by unfold fld; omega), decodeFx3E, show fld x 31 25 = 13 by unfold fld; omega]
  show (leaf (fld x 24 16 == 0 && fld x 10 7 == 0) (Instr.barwt (bv x 15 14) (bv x 13 11)) <|> leaf (fld x 24 13 == 10 && fld x 10 7 == 0) (Instr.barwtRemote (bv x 12 11))) = _
  rw [bv_eq x 12 11 n (by unfold fld; omega), show fld x 24 13 = 10 by unfold fld; omega, show fld x 10 7 = 0 by unfold fld; omega]
  exact alt_no _ _ _ _ (by first | rfl | simp only [Bool.and_eq_false_iff, beq_eq_false_iff_ne]; unfold fld; omega) rfl ok
theorem RoundTrip.rarrive (c : BitVec 2) (n : BitVec 2) : RoundTrip.Statement (.rarrive c n) := by
  intro ok x he rest
  obtain ⟨hb, ho, m, k, f0, f1, z0, z1, z2⟩ := form28 _ x 14 c n (Option.some.inj he) rfl (by decide)
  refine decode_long x _ rest hb ho ?_
  rw [decode32_decodeFx3E x m, decodeFx3E, k]
  show leaf (fld x 24 20 == 0 && fld x 17 13 == 0 && fld x 10 7 == 0) (Instr.rarrive (bv x 19 18) (bv x 12 11)) = _
  rw [f0, f1, z0, z1, z2]; exact leaf_ok _ ok
theorem RoundTrip.monitor (a : BitVec 6) (g : BitVec 4) : RoundTrip.Statement (.monitor a g) := by
  intro ok x he rest
  obtain ⟨hb, ho, m, k, f0, f1, z0, z1⟩ := form29 _ x 16 a g (Option.some.inj he) rfl (by decide)
  refine decode_long x _ rest hb ho ?_
  rw [decode32_decodeFx3E x m, decodeFx3E, k]
  show leaf (fld x 24 24 == 0 && fld x 17 11 == 0) (Instr.monitor (bv x 23 18) (bv x 10 7)) = _
  rw [f0, f1, z0, z1]; exact leaf_ok _ ok
theorem RoundTrip.mwait (d : BitVec 6) (g : BitVec 4) : RoundTrip.Statement (.mwait d g) := by
  intro ok x he rest
  obtain ⟨hb, ho, m, k, f0, f1, z0⟩ := form30 _ x 17 d g (Option.some.inj he) rfl (by decide)
  refine decode_long x _ rest hb ho ?_
  rw [decode32_decodeFx3E x m, decodeFx3E, k]
  show leaf (fld x 24 17 == 0) (Instr.mwait (bv x 16 11) (bv x 10 7)) = _
  rw [f0, f1, z0]; exact leaf_ok _ ok
theorem RoundTrip.batseal (d : BitVec 6) (g : BitVec 4) : RoundTrip.Statement (.batseal d g) := by
  intro ok x he rest
  obtain ⟨hb, ho, m, k, f0, f1, z0⟩ := form30 _ x 18 d g (Option.some.inj he) rfl (by decide)
  refine decode_long x _ rest hb ho ?_
  rw [decode32_decodeFx3E x m, decodeFx3E, k]
  show leaf (fld x 24 17 == 0) (Instr.batseal (bv x 16 11) (bv x 10 7)) = _
  rw [f0, f1, z0]; exact leaf_ok _ ok
theorem RoundTrip.batwait (a : BitVec 6) (g : BitVec 4) : RoundTrip.Statement (.batwait a g) := by
  intro ok x he rest
  obtain ⟨hb, ho, m, k, f0, f1, z0, z1⟩ := form29 _ x 19 a g (Option.some.inj he) rfl (by decide)
  refine decode_long x _ rest hb ho ?_
  rw [decode32_decodeFx3E x m, decodeFx3E, k]
  show leaf (fld x 24 24 == 0 && fld x 17 11 == 0) (Instr.batwait (bv x 23 18) (bv x 10 7)) = _
  rw [f0, f1, z0, z1]; exact leaf_ok _ ok
theorem RoundTrip.chwait (d : BitVec 6) (a : BitVec 6) (g : BitVec 4) : RoundTrip.Statement (.chwait d a g) := by
  intro ok x he rest
  obtain ⟨hb, ho, m, k, f0, f1, f2, z0, z1⟩ := form31 _ x 20 d a g (Option.some.inj he) rfl (by decide)
  refine decode_long x _ rest hb ho ?_
  rw [decode32_decodeFx3E x m, decodeFx3E, k]
  show leaf (fld x 24 24 == 0 && fld x 17 17 == 0) (Instr.chwait (bv x 16 11) (bv x 23 18) (bv x 10 7)) = _
  rw [f0, f1, f2, z0, z1]; exact leaf_ok _ ok
theorem RoundTrip.exit (g : BitVec 4) : RoundTrip.Statement (.exit g) := by
  intro ok x he rest
  obtain ⟨hb, ho, m, k, f0, z0⟩ := form32 _ x 24 g (Option.some.inj he) rfl (by decide)
  refine decode_long x _ rest hb ho ?_
  rw [decode32_decodeFx3E x m, decodeFx3E, k]
  show leaf (fld x 24 11 == 0) (Instr.exit (bv x 10 7)) = _
  rw [f0, z0]; exact leaf_ok _ ok
theorem RoundTrip.ret (g : BitVec 4) : RoundTrip.Statement (.ret g) := by
  intro ok x he rest
  obtain ⟨hb, ho, m, k, f0, z0⟩ := form32 _ x 25 g (Option.some.inj he) rfl (by decide)
  refine decode_long x _ rest hb ho ?_
  rw [decode32_decodeFx3E x m, decodeFx3E, k]
  show leaf (fld x 24 11 == 0) (Instr.ret (bv x 10 7)) = _
  rw [f0, z0]; exact leaf_ok _ ok
theorem RoundTrip.brx (a : BitVec 7) (g : BitVec 4) : RoundTrip.Statement (.brx a g) := by
  intro ok x he rest
  obtain ⟨hb, ho, m, k, f0, f1, z0⟩ := form33 _ x 26 a g (Option.some.inj he) rfl (by decide)
  refine decode_long x _ rest hb ho ?_
  rw [decode32_decodeFx3E x m, decodeFx3E, k]
  show leaf (fld x 17 11 == 0) (Instr.brx (bv x 24 18) (bv x 10 7)) = _
  rw [f0, f1, z0]; exact leaf_ok _ ok
theorem RoundTrip.callx (a : BitVec 7) (g : BitVec 4) : RoundTrip.Statement (.callx a g) := by
  intro ok x he rest
  obtain ⟨hb, ho, m, k, f0, f1, z0⟩ := form33 _ x 27 a g (Option.some.inj he) rfl (by decide)
  refine decode_long x _ rest hb ho ?_
  rw [decode32_decodeFx3E x m, decodeFx3E, k]
  show leaf (fld x 17 11 == 0) (Instr.callx (bv x 24 18) (bv x 10 7)) = _
  rw [f0, f1, z0]; exact leaf_ok _ ok
theorem RoundTrip.conv (g : BitVec 4) : RoundTrip.Statement (.conv g) := by
  intro ok x he rest
  obtain ⟨hb, ho, m, k, f0, z0⟩ := form32 _ x 28 g (Option.some.inj he) rfl (by decide)
  refine decode_long x _ rest hb ho ?_
  rw [decode32_decodeFx3E x m, decodeFx3E, k]
  show leaf (fld x 24 11 == 0) (Instr.conv (bv x 10 7)) = _
  rw [f0, z0]; exact leaf_ok _ ok
theorem RoundTrip.yield (g : BitVec 4) : RoundTrip.Statement (.yield g) := by
  intro ok x he rest
  obtain ⟨hb, ho, m, k, f0, z0⟩ := form32 _ x 29 g (Option.some.inj he) rfl (by decide)
  refine decode_long x _ rest hb ho ?_
  rw [decode32_decodeFx3E x m, decodeFx3E, k]
  show leaf (fld x 24 11 == 0) (Instr.yield (bv x 10 7)) = _
  rw [f0, z0]; exact leaf_ok _ ok
theorem RoundTrip.safept (n : BitVec 7) : RoundTrip.Statement (.safept n) := by
  intro ok x he rest
  obtain ⟨hb, ho, m, k, f0, z0, z1⟩ := form34 _ x 30 n (Option.some.inj he) rfl (by decide)
  refine decode_long x _ rest hb ho ?_
  rw [decode32_decodeFx3E x m, decodeFx3E, k]
  show leaf (fld x 24 18 == 0 && fld x 10 7 == 0) (Instr.safept (bv x 17 11)) = _
  rw [f0, z0, z1]; exact leaf_ok _ ok
theorem RoundTrip.trap (n : BitVec 7) (g : BitVec 4) : RoundTrip.Statement (.trap n g) := by
  intro ok x he rest
  obtain ⟨hb, ho, m, k, f0, f1, z0⟩ := form35 _ x 31 n g (Option.some.inj he) rfl (by decide)
  refine decode_long x _ rest hb ho ?_
  rw [decode32_decodeFx3E x m, decodeFx3E, k]
  show leaf (fld x 24 18 == 0) (Instr.trap (bv x 17 11) (bv x 10 7)) = _
  rw [f0, f1, z0]; exact leaf_ok _ ok
theorem RoundTrip.brk (n : BitVec 7) (g : BitVec 4) : RoundTrip.Statement (.brk n g) := by
  intro ok x he rest
  obtain ⟨hb, ho, m, k, f0, f1, z0⟩ := form35 _ x 32 n g (Option.some.inj he) rfl (by decide)
  refine decode_long x _ rest hb ho ?_
  rw [decode32_decodeFx3E x m, decodeFx3E, k]
  show leaf (fld x 24 18 == 0) (Instr.brk (bv x 17 11) (bv x 10 7)) = _
  rw [f0, f1, z0]; exact leaf_ok _ ok
theorem RoundTrip.roleOffer : RoundTrip.Statement .roleOffer := by
  intro ok x he rest
  have e := Option.some.inj he
  refine decode_long x _ rest (by omega) (by omega) ?_
  rw [decode32_decodeFx3E x (by unfold fld; omega), decodeFx3E, show fld x 31 25 = 33 by unfold fld; omega]
  show (leaf (fld x 24 7 == 0) (Instr.roleOffer) <|> leaf (fld x 24 13 == 0 && fld x 10 7 == 0) (Instr.role (bv x 12 11))) = _
  rw [show fld x 24 7 = 0 by unfold fld; omega]
  exact alt_ok _ _ _ rfl ok
theorem RoundTrip.role (r : BitVec 2) : RoundTrip.Statement (.role r) := by
  intro ok x he rest
  have e := Option.some.inj he
  have hr := r.isLt
  refine decode_long x _ rest (by omega) (by omega) ?_
  rw [decode32_decodeFx3E x (by unfold fld; omega), decodeFx3E, show fld x 31 25 = 33 by unfold fld; omega]
  show (leaf (fld x 24 7 == 0) (Instr.roleOffer) <|> leaf (fld x 24 13 == 0 && fld x 10 7 == 0) (Instr.role (bv x 12 11))) = _
  rw [bv_eq x 12 11 r (by unfold fld; omega), show fld x 24 13 = 0 by unfold fld; omega, show fld x 10 7 = 0 by unfold fld; omega]
  have : r.toNat ≠ 0 := by simp [Instr.wf, ← BitVec.toNat_inj] at ok; omega
  exact alt_no _ _ _ _ (by first | rfl | simp only [beq_eq_false_iff_ne]; unfold fld; omega) rfl ok
theorem RoundTrip.bcopy (a : BitVec 6) (g : BitVec 4) : RoundTrip.Statement (.bcopy a g) := by
  intro ok x he rest
  obtain ⟨hb, ho, m, k, f0, f1, z0, z1⟩ := form29 _ x 40 a g (Option.some.inj he) rfl (by decide)
  refine decode_long x _ rest hb ho ?_
  rw [decode32_decodeFx3E x m, decodeFx3E, k]
  show leaf (fld x 24 24 == 0 && fld x 17 11 == 0) (Instr.bcopy (bv x 23 18) (bv x 10 7)) = _
  rw [f0, f1, z0, z1]; exact leaf_ok _ ok
theorem RoundTrip.bcast (a : BitVec 6) (g : BitVec 4) : RoundTrip.Statement (.bcast a g) := by
  intro ok x he rest
  obtain ⟨hb, ho, m, k, f0, f1, z0, z1⟩ := form29 _ x 41 a g (Option.some.inj he) rfl (by decide)
  refine decode_long x _ rest hb ho ?_
  rw [decode32_decodeFx3E x m, decodeFx3E, k]
  show leaf (fld x 24 24 == 0 && fld x 17 11 == 0) (Instr.bcast (bv x 23 18) (bv x 10 7)) = _
  rw [f0, f1, z0, z1]; exact leaf_ok _ ok
theorem RoundTrip.stage (g : BitVec 4) : RoundTrip.Statement (.stage g) := by
  intro ok x he rest
  obtain ⟨hb, ho, m, k, f0, z0⟩ := form32 _ x 42 g (Option.some.inj he) rfl (by decide)
  refine decode_long x _ rest hb ho ?_
  rw [decode32_decodeFx3E x m, decodeFx3E, k]
  show leaf (fld x 24 11 == 0) (Instr.stage (bv x 10 7)) = _
  rw [f0, z0]; exact leaf_ok _ ok
theorem RoundTrip.mxissue (d : BitVec 7) (a : BitVec 6) (n : BitVec 2) (g : BitVec 4) : RoundTrip.Statement (.mxissue d a n g) := by
  intro ok x he rest
  obtain ⟨hb, ho, m, k, f0, f1, f2, f3, z0⟩ := form36 _ x 48 d a n g (Option.some.inj he) rfl (by decide) (by decide)
  have h : leaf (fld x 24 24 == 0) (Instr.mxissue (bv x 17 11) (bv x 23 18) (bv x 26 25) (bv x 10 7)) = some (Instr.mxissue d a n g) := by rw [f0, f1, f2, f3, z0]; exact leaf_ok _ ok
  refine decode_long x _ rest hb ho ?_
  rw [decode32_decodeFx3E x m, decodeFx3E, k]
  have hcase : n.toNat = 0 ∨ n.toNat = 1 ∨ n.toNat = 2 ∨ n.toNat = 3 := by have := n.isLt; omega
  rcases hcase with hcase | hcase | hcase | hcase <;> rw [hcase] <;> exact h
theorem RoundTrip.mxchain (g : BitVec 4) : RoundTrip.Statement (.mxchain g) := by
  intro ok x he rest
  obtain ⟨hb, ho, m, k, f0, z0⟩ := form32 _ x 52 g (Option.some.inj he) rfl (by decide)
  refine decode_long x _ rest hb ho ?_
  rw [decode32_decodeFx3E x m, decodeFx3E, k]
  show leaf (fld x 24 11 == 0) (Instr.mxchain (bv x 10 7)) = _
  rw [f0, z0]; exact leaf_ok _ ok
theorem RoundTrip.mxend (g : BitVec 4) : RoundTrip.Statement (.mxend g) := by
  intro ok x he rest
  obtain ⟨hb, ho, m, k, f0, z0⟩ := form32 _ x 53 g (Option.some.inj he) rfl (by decide)
  refine decode_long x _ rest hb ho ?_
  rw [decode32_decodeFx3E x m, decodeFx3E, k]
  show leaf (fld x 24 11 == 0) (Instr.mxend (bv x 10 7)) = _
  rw [f0, z0]; exact leaf_ok _ ok
theorem RoundTrip.mxdrain (a : BitVec 6) (g : BitVec 4) : RoundTrip.Statement (.mxdrain a g) := by
  intro ok x he rest
  obtain ⟨hb, ho, m, k, f0, f1, z0, z1⟩ := form29 _ x 54 a g (Option.some.inj he) rfl (by decide)
  refine decode_long x _ rest hb ho ?_
  rw [decode32_decodeFx3E x m, decodeFx3E, k]
  show leaf (fld x 24 24 == 0 && fld x 17 11 == 0) (Instr.mxdrain (bv x 23 18) (bv x 10 7)) = _
  rw [f0, f1, z0, z1]; exact leaf_ok _ ok
theorem RoundTrip.mxzero (t : BitVec 4) (g : BitVec 4) : RoundTrip.Statement (.mxzero t g) := by
  intro ok x he rest
  obtain ⟨hb, ho, m, k, f0, f1, z0, z1⟩ := form37 _ x 55 t g (Option.some.inj he) rfl (by decide)
  refine decode_long x _ rest hb ho ?_
  rw [decode32_decodeFx3E x m, decodeFx3E, k]
  show leaf (fld x 24 22 == 0 && fld x 17 11 == 0) (Instr.mxzero (bv x 21 18) (bv x 10 7)) = _
  rw [f0, f1, z0, z1]; exact leaf_ok _ ok
theorem RoundTrip.mxrd (d : BitVec 7) (c : BitVec 2) (t : BitVec 4) (g : BitVec 4) : RoundTrip.Statement (.mxrd d c t g) := by
  intro ok x he rest
  obtain ⟨hb, ho, m, k, f0, f1, f2, f3, z0⟩ := form38 _ x 56 d c t g (Option.some.inj he) rfl (by decide)
  refine decode_long x _ rest hb ho ?_
  rw [decode32_decodeFx3E x m, decodeFx3E, k]
  show leaf (fld x 24 24 == 0) (Instr.mxrd (bv x 17 11) (bv x 23 22) (bv x 21 18) (bv x 10 7)) = _
  rw [f0, f1, f2, f3, z0]; exact leaf_ok _ ok
theorem RoundTrip.mxwr (d : BitVec 7) (c : BitVec 2) (t : BitVec 4) (g : BitVec 4) : RoundTrip.Statement (.mxwr d c t g) := by
  intro ok x he rest
  obtain ⟨hb, ho, m, k, f0, f1, f2, f3, z0⟩ := form38 _ x 57 d c t g (Option.some.inj he) rfl (by decide)
  refine decode_long x _ rest hb ho ?_
  rw [decode32_decodeFx3E x m, decodeFx3E, k]
  show leaf (fld x 24 24 == 0) (Instr.mxwr (bv x 17 11) (bv x 23 22) (bv x 21 18) (bv x 10 7)) = _
  rw [f0, f1, f2, f3, z0]; exact leaf_ok _ ok
theorem RoundTrip.mxwait (g : BitVec 4) : RoundTrip.Statement (.mxwait g) := by
  intro ok x he rest
  obtain ⟨hb, ho, m, k, f0, z0⟩ := form32 _ x 58 g (Option.some.inj he) rfl (by decide)
  refine decode_long x _ rest hb ho ?_
  rw [decode32_decodeFx3E x m, decodeFx3E, k]
  show leaf (fld x 24 11 == 0) (Instr.mxwait (bv x 10 7)) = _
  rw [f0, z0]; exact leaf_ok _ ok
theorem RoundTrip.btake : RoundTrip.Statement .btake := by
  intro ok x he rest
  obtain ⟨hb, ho, m, k, z0⟩ := form39 _ x 59 (Option.some.inj he) rfl (by decide)
  refine decode_long x _ rest hb ho ?_
  rw [decode32_decodeFx3E x m, decodeFx3E, k]
  show leaf (fld x 24 7 == 0) (Instr.btake) = _
  rw [z0]; exact leaf_ok _ ok
theorem RoundTrip.bgive : RoundTrip.Statement .bgive := by
  intro ok x he rest
  obtain ⟨hb, ho, m, k, z0⟩ := form39 _ x 60 (Option.some.inj he) rfl (by decide)
  refine decode_long x _ rest hb ho ?_
  rw [decode32_decodeFx3E x m, decodeFx3E, k]
  show leaf (fld x 24 7 == 0) (Instr.bgive) = _
  rw [z0]; exact leaf_ok _ ok
theorem RoundTrip.ringput (d : BitVec 7) (p : BitVec 3) (n : BitVec 3) (g : BitVec 4) : RoundTrip.Statement (.ringput d p n g) := by
  intro ok x he rest
  obtain ⟨hb, ho, m, k, f0, f1, f2, f3, z0⟩ := form40 _ x 61 d p n g (Option.some.inj he) rfl (by decide)
  refine decode_long x _ rest hb ho ?_
  rw [decode32_decodeFx3E x m, decodeFx3E, k]
  show leaf (fld x 24 24 == 0) (Instr.ringput (bv x 17 11) (bv x 23 21) (bv x 20 18) (bv x 10 7)) = _
  rw [f0, f1, f2, f3, z0]; exact leaf_ok _ ok
theorem RoundTrip.ringget (d : BitVec 7) (p : BitVec 3) (n : BitVec 3) (g : BitVec 4) : RoundTrip.Statement (.ringget d p n g) := by
  intro ok x he rest
  obtain ⟨hb, ho, m, k, f0, f1, f2, f3, z0⟩ := form40 _ x 62 d p n g (Option.some.inj he) rfl (by decide)
  refine decode_long x _ rest hb ho ?_
  rw [decode32_decodeFx3E x m, decodeFx3E, k]
  show leaf (fld x 24 24 == 0) (Instr.ringget (bv x 17 11) (bv x 23 21) (bv x 20 18) (bv x 10 7)) = _
  rw [f0, f1, f2, f3, z0]; exact leaf_ok _ ok
theorem RoundTrip.launch (d : BitVec 6) (a : BitVec 6) (g : BitVec 4) : RoundTrip.Statement (.launch d a g) := by
  intro ok x he rest
  obtain ⟨hb, ho, m, k, f0, f1, f2, z0, z1⟩ := form41 _ x 0 d a g (Option.some.inj he) rfl (by decide)
  refine decode_long x _ rest hb ho ?_
  rw [decode32_decodeFx3F x m, decodeFx3F, k]
  show leaf (fld x 24 24 == 0 && fld x 17 17 == 0) (Instr.launch (bv x 16 11) (bv x 23 18) (bv x 10 7)) = _
  rw [f0, f1, f2, z0, z1]; exact leaf_ok _ ok
theorem RoundTrip.launchp (d : BitVec 6) (a : BitVec 6) (g : BitVec 4) : RoundTrip.Statement (.launchp d a g) := by
  intro ok x he rest
  obtain ⟨hb, ho, m, k, f0, f1, f2, z0, z1⟩ := form41 _ x 1 d a g (Option.some.inj he) rfl (by decide)
  refine decode_long x _ rest hb ho ?_
  rw [decode32_decodeFx3F x m, decodeFx3F, k]
  show leaf (fld x 24 24 == 0 && fld x 17 17 == 0) (Instr.launchp (bv x 16 11) (bv x 23 18) (bv x 10 7)) = _
  rw [f0, f1, f2, z0, z1]; exact leaf_ok _ ok
theorem RoundTrip.tspawn (d : BitVec 6) (a : BitVec 6) (g : BitVec 4) : RoundTrip.Statement (.tspawn d a g) := by
  intro ok x he rest
  obtain ⟨hb, ho, m, k, f0, f1, f2, z0, z1⟩ := form41 _ x 2 d a g (Option.some.inj he) rfl (by decide)
  refine decode_long x _ rest hb ho ?_
  rw [decode32_decodeFx3F x m, decodeFx3F, k]
  show leaf (fld x 24 24 == 0 && fld x 17 17 == 0) (Instr.tspawn (bv x 16 11) (bv x 23 18) (bv x 10 7)) = _
  rw [f0, f1, f2, z0, z1]; exact leaf_ok _ ok
theorem RoundTrip.twait (p : BitVec 3) (a : BitVec 6) (g : BitVec 4) : RoundTrip.Statement (.twait p a g) := by
  intro ok x he rest
  have e := Option.some.inj he
  have hp := p.isLt; have ha := a.isLt; have hg := g.isLt
  refine decode_long x _ rest (by omega) (by omega) ?_
  rw [decode32_decodeFx3F x (by unfold fld; omega), decodeFx3F, show fld x 31 25 = 3 by unfold fld; omega]
  show (leaf (fld x 24 24 == 0 && fld x 17 14 == 0) (Instr.twait (bv x 13 11) (bv x 23 18) (bv x 10 7)) <|> leaf (fld x 24 24 == 0 && fld x 17 14 == 1) (Instr.twaitLock (bv x 13 11) (bv x 23 18) (bv x 10 7))) = _
  rw [bv_eq x 13 11 p (by unfold fld; omega), bv_eq x 23 18 a (by unfold fld; omega), bv_eq x 10 7 g (by unfold fld; omega), show fld x 24 24 = 0 by unfold fld; omega, show fld x 17 14 = 0 by unfold fld; omega]
  exact alt_ok _ _ _ rfl ok
theorem RoundTrip.twaitLock (p : BitVec 3) (a : BitVec 6) (g : BitVec 4) : RoundTrip.Statement (.twaitLock p a g) := by
  intro ok x he rest
  have e := Option.some.inj he
  have hp := p.isLt; have ha := a.isLt; have hg := g.isLt
  refine decode_long x _ rest (by omega) (by omega) ?_
  rw [decode32_decodeFx3F x (by unfold fld; omega), decodeFx3F, show fld x 31 25 = 3 by unfold fld; omega]
  show (leaf (fld x 24 24 == 0 && fld x 17 14 == 0) (Instr.twait (bv x 13 11) (bv x 23 18) (bv x 10 7)) <|> leaf (fld x 24 24 == 0 && fld x 17 14 == 1) (Instr.twaitLock (bv x 13 11) (bv x 23 18) (bv x 10 7))) = _
  rw [bv_eq x 13 11 p (by unfold fld; omega), bv_eq x 23 18 a (by unfold fld; omega), bv_eq x 10 7 g (by unfold fld; omega), show fld x 24 24 = 0 by unfold fld; omega, show fld x 17 14 = 1 by unfold fld; omega]
  exact alt_no _ _ _ _ (by first | rfl | simp only [Bool.and_eq_false_iff, beq_eq_false_iff_ne]; unfold fld; omega) rfl ok
theorem RoundTrip.cancel (a : BitVec 6) (g : BitVec 4) : RoundTrip.Statement (.cancel a g) := by
  intro ok x he rest
  have e := Option.some.inj he
  have ha := a.isLt; have hg := g.isLt
  refine decode_long x _ rest (by omega) (by omega) ?_
  rw [decode32_decodeFx3F x (by unfold fld; omega), decodeFx3F, show fld x 31 25 = 4 by unfold fld; omega]
  show (leaf (fld x 24 24 == 0 && fld x 17 11 == 0) (Instr.cancel (bv x 23 18) (bv x 10 7)) <|> leaf (fld x 24 24 == 0 && fld x 17 11 == 1) (Instr.cancelKill (bv x 23 18) (bv x 10 7))) = _
  rw [bv_eq x 23 18 a (by unfold fld; omega), bv_eq x 10 7 g (by unfold fld; omega), show fld x 24 24 = 0 by unfold fld; omega, show fld x 17 11 = 0 by unfold fld; omega]
  exact alt_ok _ _ _ rfl ok
theorem RoundTrip.cancelKill (a : BitVec 6) (g : BitVec 4) : RoundTrip.Statement (.cancelKill a g) := by
  intro ok x he rest
  have e := Option.some.inj he
  have ha := a.isLt; have hg := g.isLt
  refine decode_long x _ rest (by omega) (by omega) ?_
  rw [decode32_decodeFx3F x (by unfold fld; omega), decodeFx3F, show fld x 31 25 = 4 by unfold fld; omega]
  show (leaf (fld x 24 24 == 0 && fld x 17 11 == 0) (Instr.cancel (bv x 23 18) (bv x 10 7)) <|> leaf (fld x 24 24 == 0 && fld x 17 11 == 1) (Instr.cancelKill (bv x 23 18) (bv x 10 7))) = _
  rw [bv_eq x 23 18 a (by unfold fld; omega), bv_eq x 10 7 g (by unfold fld; omega), show fld x 24 24 = 0 by unfold fld; omega, show fld x 17 11 = 1 by unfold fld; omega]
  exact alt_no _ _ _ _ (by first | rfl | simp only [Bool.and_eq_false_iff, beq_eq_false_iff_ne]; unfold fld; omega) rfl ok
theorem RoundTrip.trace (d : BitVec 7) (a : BitVec 7) (g : BitVec 4) : RoundTrip.Statement (.trace d a g) := by
  intro ok x he rest
  obtain ⟨hb, ho, m, k, f0, f1, f2⟩ := form42 _ x 8 d a g (Option.some.inj he) rfl (by decide)
  refine decode_long x _ rest hb ho ?_
  rw [decode32_decodeFx3F x m, decodeFx3F, k]
  show leaf true (Instr.trace (bv x 17 11) (bv x 24 18) (bv x 10 7)) = _
  rw [f0, f1, f2]; exact leaf_ok _ ok
theorem RoundTrip.callret (d : BitVec 7) (a : BitVec 7) (g : BitVec 4) : RoundTrip.Statement (.callret d a g) := by
  intro ok x he rest
  obtain ⟨hb, ho, m, k, f0, f1, f2⟩ := form42 _ x 9 d a g (Option.some.inj he) rfl (by decide)
  refine decode_long x _ rest hb ho ?_
  rw [decode32_decodeFx3F x m, decodeFx3F, k]
  show leaf true (Instr.callret (bv x 17 11) (bv x 24 18) (bv x 10 7)) = _
  rw [f0, f1, f2]; exact leaf_ok _ ok
theorem RoundTrip.repack (d : BitVec 7) (a : BitVec 6) : RoundTrip.Statement (.repack d a) := by
  intro ok x he rest
  obtain ⟨hb, ho, m, k, f0, f1, z0, z1⟩ := form43 _ x 10 d a (Option.some.inj he) rfl (by decide)
  refine decode_long x _ rest hb ho ?_
  rw [decode32_decodeFx3F x m, decodeFx3F, k]
  show leaf (fld x 24 24 == 0 && fld x 10 7 == 0) (Instr.repack (bv x 17 11) (bv x 23 18)) = _
  rw [f0, f1, z0, z1]; exact leaf_ok _ ok
theorem RoundTrip.treelock (d : BitVec 6) (a : BitVec 6) (g : BitVec 4) : RoundTrip.Statement (.treelock d a g) := by
  intro ok x he rest
  obtain ⟨hb, ho, m, k, f0, f1, f2, z0, z1⟩ := form41 _ x 11 d a g (Option.some.inj he) rfl (by decide)
  refine decode_long x _ rest hb ho ?_
  rw [decode32_decodeFx3F x m, decodeFx3F, k]
  show leaf (fld x 24 24 == 0 && fld x 17 17 == 0) (Instr.treelock (bv x 16 11) (bv x 23 18) (bv x 10 7)) = _
  rw [f0, f1, f2, z0, z1]; exact leaf_ok _ ok
theorem RoundTrip.treepub (d : BitVec 6) (a : BitVec 6) (g : BitVec 4) : RoundTrip.Statement (.treepub d a g) := by
  intro ok x he rest
  obtain ⟨hb, ho, m, k, f0, f1, f2, z0, z1⟩ := form41 _ x 12 d a g (Option.some.inj he) rfl (by decide)
  refine decode_long x _ rest hb ho ?_
  rw [decode32_decodeFx3F x m, decodeFx3F, k]
  show leaf (fld x 24 24 == 0 && fld x 17 17 == 0) (Instr.treepub (bv x 16 11) (bv x 23 18) (bv x 10 7)) = _
  rw [f0, f1, f2, z0, z1]; exact leaf_ok _ ok
theorem RoundTrip.lfetchBil (d : BitVec 7) (a : BitVec 7) (g : BitVec 4) : RoundTrip.Statement (.lfetchBil d a g) := by
  intro ok x he rest
  obtain ⟨hb, ho, m, k, f0, f1, f2⟩ := form42 _ x 16 d a g (Option.some.inj he) rfl (by decide)
  refine decode_long x _ rest hb ho ?_
  rw [decode32_decodeFx3F x m, decodeFx3F, k]
  show leaf true (Instr.lfetchBil (bv x 17 11) (bv x 24 18) (bv x 10 7)) = _
  rw [f0, f1, f2]; exact leaf_ok _ ok
theorem RoundTrip.lfetchTri (d : BitVec 7) (a : BitVec 7) (g : BitVec 4) : RoundTrip.Statement (.lfetchTri d a g) := by
  intro ok x he rest
  obtain ⟨hb, ho, m, k, f0, f1, f2⟩ := form42 _ x 17 d a g (Option.some.inj he) rfl (by decide)
  refine decode_long x _ rest hb ho ?_
  rw [decode32_decodeFx3F x m, decodeFx3F, k]
  show leaf true (Instr.lfetchTri (bv x 17 11) (bv x 24 18) (bv x 10 7)) = _
  rw [f0, f1, f2]; exact leaf_ok _ ok
theorem RoundTrip.hgrid (d : BitVec 7) (a : BitVec 7) (g : BitVec 4) : RoundTrip.Statement (.hgrid d a g) := by
  intro ok x he rest
  obtain ⟨hb, ho, m, k, f0, f1, f2⟩ := form42 _ x 18 d a g (Option.some.inj he) rfl (by decide)
  refine decode_long x _ rest hb ho ?_
  rw [decode32_decodeFx3F x m, decodeFx3F, k]
  show leaf true (Instr.hgrid (bv x 17 11) (bv x 24 18) (bv x 10 7)) = _
  rw [f0, f1, f2]; exact leaf_ok _ ok
theorem RoundTrip.sysr (d : BitVec 6) (i : BitVec 7) (g : BitVec 4) : RoundTrip.Statement (.sysr d i g) := by
  intro ok x he rest
  have e := Option.some.inj he
  have hd := d.isLt; have hi := i.isLt; have hg := g.isLt
  refine decode_long x _ rest (by omega) (by omega) ?_
  rw [decode32_decodeFx3F x (by unfold fld; omega), decodeFx3F, show fld x 31 25 = 24 by unfold fld; omega]
  show (leaf (fld x 17 17 == 0) (Instr.sysr (bv x 16 11) (bv x 24 18) (bv x 10 7)) <|> leaf (fld x 17 17 == 1) (Instr.sysrV (bv x 16 11) (bv x 24 18) (bv x 10 7))) = _
  rw [bv_eq x 16 11 d (by unfold fld; omega), bv_eq x 24 18 i (by unfold fld; omega), bv_eq x 10 7 g (by unfold fld; omega), show fld x 17 17 = 0 by unfold fld; omega]
  exact alt_ok _ _ _ rfl ok
theorem RoundTrip.sysrV (d : BitVec 6) (i : BitVec 7) (g : BitVec 4) : RoundTrip.Statement (.sysrV d i g) := by
  intro ok x he rest
  have e := Option.some.inj he
  have hd := d.isLt; have hi := i.isLt; have hg := g.isLt
  refine decode_long x _ rest (by omega) (by omega) ?_
  rw [decode32_decodeFx3F x (by unfold fld; omega), decodeFx3F, show fld x 31 25 = 24 by unfold fld; omega]
  show (leaf (fld x 17 17 == 0) (Instr.sysr (bv x 16 11) (bv x 24 18) (bv x 10 7)) <|> leaf (fld x 17 17 == 1) (Instr.sysrV (bv x 16 11) (bv x 24 18) (bv x 10 7))) = _
  rw [bv_eq x 16 11 d (by unfold fld; omega), bv_eq x 24 18 i (by unfold fld; omega), bv_eq x 10 7 g (by unfold fld; omega), show fld x 17 17 = 1 by unfold fld; omega]
  exact alt_no _ _ _ _ (by first | rfl | simp only [beq_eq_false_iff_ne]; unfold fld; omega) rfl ok
theorem RoundTrip.sysw (d : BitVec 6) (i : BitVec 7) (g : BitVec 4) : RoundTrip.Statement (.sysw d i g) := by
  intro ok x he rest
  obtain ⟨hb, ho, m, k, f0, f1, f2, z0⟩ := form44 _ x 25 d i g (Option.some.inj he) rfl (by decide)
  refine decode_long x _ rest hb ho ?_
  rw [decode32_decodeFx3F x m, decodeFx3F, k]
  show leaf (fld x 17 17 == 0) (Instr.sysw (bv x 16 11) (bv x 24 18) (bv x 10 7)) = _
  rw [f0, f1, f2, z0]; exact leaf_ok _ ok
theorem RoundTrip.rdtime (d : BitVec 6) (g : BitVec 4) : RoundTrip.Statement (.rdtime d g) := by
  intro ok x he rest
  obtain ⟨hb, ho, m, k, f0, f1, z0⟩ := form45 _ x 26 d g (Option.some.inj he) rfl (by decide)
  refine decode_long x _ rest hb ho ?_
  rw [decode32_decodeFx3F x m, decodeFx3F, k]
  show leaf (fld x 24 17 == 0) (Instr.rdtime (bv x 16 11) (bv x 10 7)) = _
  rw [f0, f1, z0]; exact leaf_ok _ ok
theorem RoundTrip.queueNop (q : Nat) : RoundTrip.Statement (.queueNop q) := fun _ _ he => nomatch he
theorem RoundTrip.dispatch (q : Nat) : RoundTrip.Statement (.dispatch q) := fun _ _ he => nomatch he
theorem RoundTrip.dispatchGang (q : Nat) : RoundTrip.Statement (.dispatchGang q) := fun _ _ he => nomatch he
theorem RoundTrip.signal (q : Nat) : RoundTrip.Statement (.signal q) := fun _ _ he => nomatch he
theorem RoundTrip.wait (q : Nat) : RoundTrip.Statement (.wait q) := fun _ _ he => nomatch he
theorem RoundTrip.drawLarge (q : Nat) : RoundTrip.Statement (.drawLarge q) := fun _ _ he => nomatch he
theorem RoundTrip.classify (q : Nat) : RoundTrip.Statement (.classify q) := fun _ _ he => nomatch he
theorem RoundTrip.queueFence (q : Nat) : RoundTrip.Statement (.queueFence q) := fun _ _ he => nomatch he
theorem RoundTrip.timestamp (q : Nat) : RoundTrip.Statement (.timestamp q) := fun _ _ he => nomatch he
theorem RoundTrip.tailWordUpdate (q : Nat) (value : Nat) : RoundTrip.Statement (.tailWordUpdate q value) := fun _ _ he => nomatch he
theorem RoundTrip.waitTimeout (q : Nat) : RoundTrip.Statement (.waitTimeout q) := fun _ _ he => nomatch he
theorem RoundTrip.gangUnmap (part : Nat) : RoundTrip.Statement (.gangUnmap part) := fun _ _ he => nomatch he
theorem RoundTrip.systemRequestPut (put : Nat) : RoundTrip.Statement (.systemRequestPut put) := fun _ _ he => nomatch he
theorem RoundTrip.setMode : RoundTrip.Statement .setMode := fun _ _ he => nomatch he
theorem RoundTrip.mapQueue : RoundTrip.Statement .mapQueue := fun _ _ he => nomatch he
theorem RoundTrip.unmapQueue : RoundTrip.Statement .unmapQueue := fun _ _ he => nomatch he
theorem RoundTrip.resetQueue : RoundTrip.Statement .resetQueue := fun _ _ he => nomatch he
theorem RoundTrip.preempt : RoundTrip.Statement .preempt := fun _ _ he => nomatch he
theorem RoundTrip.withdraw : RoundTrip.Statement .withdraw := fun _ _ he => nomatch he
theorem RoundTrip.resume : RoundTrip.Statement .resume := fun _ _ he => nomatch he
theorem RoundTrip.shootdown : RoundTrip.Statement .shootdown := fun _ _ he => nomatch he
theorem RoundTrip.writeReg : RoundTrip.Statement .writeReg := fun _ _ he => nomatch he
theorem RoundTrip.presence : RoundTrip.Statement .presence := fun _ _ he => nomatch he
theorem RoundTrip.swap : RoundTrip.Statement .swap := fun _ _ he => nomatch he
theorem RoundTrip.releaseBreak : RoundTrip.Statement .releaseBreak := fun _ _ he => nomatch he
theorem RoundTrip.fwInstall : RoundTrip.Statement .fwInstall := fun _ _ he => nomatch he
theorem RoundTrip.attest : RoundTrip.Statement .attest := fun _ _ he => nomatch he
theorem RoundTrip.setPools : RoundTrip.Statement .setPools := fun _ _ he => nomatch he
theorem RoundTrip.accept : RoundTrip.Statement .accept := fun _ _ he => nomatch he
theorem RoundTrip.fabGrpJoin : RoundTrip.Statement .fabGrpJoin := fun _ _ he => nomatch he
theorem RoundTrip.fabGrpLeave : RoundTrip.Statement .fabGrpLeave := fun _ _ he => nomatch he
theorem RoundTrip.joinReachesSwitch (part : Nat) (ctl : Nat) : RoundTrip.Statement (.joinReachesSwitch part ctl) := fun _ _ he => nomatch he
theorem RoundTrip.fabDomainSet : RoundTrip.Statement .fabDomainSet := fun _ _ he => nomatch he
theorem RoundTrip.remapStart : RoundTrip.Statement .remapStart := fun _ _ he => nomatch he
theorem RoundTrip.cupolaPinWrite : RoundTrip.Statement .cupolaPinWrite := fun _ _ he => nomatch he
theorem RoundTrip.blockFamilyWrite : RoundTrip.Statement .blockFamilyWrite := fun _ _ he => nomatch he
theorem RoundTrip.fwCommit : RoundTrip.Statement .fwCommit := fun _ _ he => nomatch he
theorem RoundTrip.eventTakeCount (ring : Nat) (take : Nat) : RoundTrip.Statement (.eventTakeCount ring take) := fun _ _ he => nomatch he
theorem RoundTrip.goStore (entry : Nat) : RoundTrip.Statement (.goStore entry) := fun _ _ he => nomatch he
theorem RoundTrip.roundDelivery (entry : Nat) (before : List Nat) (after : List Nat) : RoundTrip.Statement (.roundDelivery entry before after) := fun _ _ he => nomatch he
theorem RoundTrip.reduceRoundTimeout (entry : Nat) : RoundTrip.Statement (.reduceRoundTimeout entry) := fun _ _ he => nomatch he
theorem RoundTrip.linkResend (port : Nat) : RoundTrip.Statement (.linkResend port) := fun _ _ he => nomatch he
theorem RoundTrip.homeUnreachable (part : Nat) : RoundTrip.Statement (.homeUnreachable part) := fun _ _ he => nomatch he
theorem RoundTrip.teamDispatch (core : Nat) (grid : Nat) : RoundTrip.Statement (.teamDispatch core grid) := fun _ _ he => nomatch he
theorem RoundTrip.teamAdmit (core : Nat) (grid : Nat) (ticket : Nat) : RoundTrip.Statement (.teamAdmit core grid ticket) := fun _ _ he => nomatch he
theorem RoundTrip.groupPark (gid : Nat) : RoundTrip.Statement (.groupPark gid) := fun _ _ he => nomatch he
theorem RoundTrip.parkAfterLaunchWait (gid : Nat) : RoundTrip.Statement (.parkAfterLaunchWait gid) := fun _ _ he => nomatch he
theorem RoundTrip.groupRestore (gid : Nat) : RoundTrip.Statement (.groupRestore gid) := fun _ _ he => nomatch he
theorem RoundTrip.teamRetire (team : Nat) : RoundTrip.Statement (.teamRetire team) := fun _ _ he => nomatch he
theorem RoundTrip.launchAccept (die : Nat) : RoundTrip.Statement (.launchAccept die) := fun _ _ he => nomatch he
theorem RoundTrip.launchMulticast (launcher : Nat) (id : Nat) (asid : Nat) (root : Nat) (record : List Nat) : RoundTrip.Statement (.launchMulticast launcher id asid root record) := fun _ _ he => nomatch he
theorem RoundTrip.ready (id : Nat) (part : Nat) : RoundTrip.Statement (.ready id part) := fun _ _ he => nomatch he
theorem RoundTrip.refuse (id : Nat) (part : Nat) (hold : Nat) : RoundTrip.Statement (.refuse id part hold) := fun _ _ he => nomatch he
theorem RoundTrip.commit (id : Nat) : RoundTrip.Statement (.commit id) := fun _ _ he => nomatch he
theorem RoundTrip.rollback (id : Nat) : RoundTrip.Statement (.rollback id) := fun _ _ he => nomatch he
theorem RoundTrip.launchpTimeout (id : Nat) : RoundTrip.Statement (.launchpTimeout id) := fun _ _ he => nomatch he
theorem RoundTrip.steal (id : Nat) (thief : Nat) : RoundTrip.Statement (.steal id thief) := fun _ _ he => nomatch he
theorem RoundTrip.stealReply (id : Nat) (lo : Nat) (hi : Nat) : RoundTrip.Statement (.stealReply id lo hi) := fun _ _ he => nomatch he
theorem RoundTrip.cancelReachesPart (id : Nat) (kill : Nat) : RoundTrip.Statement (.cancelReachesPart id kill) := fun _ _ he => nomatch he
theorem RoundTrip.barrierToken (id : Nat) (level : Nat) (n : Nat) (phase : Nat) (count : Nat) (times : List (Nat × Nat)) : RoundTrip.Statement (.barrierToken id level n phase count times) := fun _ _ he => nomatch he
theorem RoundTrip.barrierPhaseComplete (level : Nat) (grid : Nat) (owner : Nat) (n : Nat) : RoundTrip.Statement (.barrierPhaseComplete level grid owner n) := fun _ _ he => nomatch he
theorem RoundTrip.finalStatus (id : Nat) : RoundTrip.Statement (.finalStatus id) := fun _ _ he => nomatch he
theorem RoundTrip.taskDispatch (core : Nat) : RoundTrip.Statement (.taskDispatch core) := fun _ _ he => nomatch he
theorem RoundTrip.rolePost (team : Nat) (gid : Nat) : RoundTrip.Statement (.rolePost team gid) := fun _ _ he => nomatch he
theorem RoundTrip.batonHandover (team : Nat) : RoundTrip.Statement (.batonHandover team) := fun _ _ he => nomatch he
theorem RoundTrip.mxAccept (gid : Nat) : RoundTrip.Statement (.mxAccept gid) := fun _ _ he => nomatch he
theorem RoundTrip.powerGrant (die : Nat) : RoundTrip.Statement (.powerGrant die) := fun _ _ he => nomatch he
theorem RoundTrip.powerGrantReturn (core : Nat) : RoundTrip.Statement (.powerGrantReturn core) := fun _ _ he => nomatch he
theorem RoundTrip.mxKstepCommit (team : Nat) : RoundTrip.Statement (.mxKstepCommit team) := fun _ _ he => nomatch he
theorem RoundTrip.mxDrainExecute (team : Nat) : RoundTrip.Statement (.mxDrainExecute team) := fun _ _ he => nomatch he
theorem RoundTrip.copyChunkWritten (copy : Nat) (chunk : Nat) : RoundTrip.Statement (.copyChunkWritten copy chunk) := fun _ _ he => nomatch he
theorem RoundTrip.loadDataLands (gid : Nat) (item : Nat) (data : Nat) : RoundTrip.Statement (.loadDataLands gid item data) := fun _ _ he => nomatch he
theorem RoundTrip.mwaitReturn (gid : Nat) : RoundTrip.Statement (.mwaitReturn gid) := fun _ _ he => nomatch he
theorem RoundTrip.memRequestStart (pc : Nat) : RoundTrip.Statement (.memRequestStart pc) := fun _ _ he => nomatch he
theorem RoundTrip.refreshDue (pc : Nat) (bank : Nat) : RoundTrip.Statement (.refreshDue pc bank) := fun _ _ he => nomatch he
theorem RoundTrip.alertBackoff (pc : Nat) (bank : Nat) (n : Nat) : RoundTrip.Statement (.alertBackoff pc bank n) := fun _ _ he => nomatch he
theorem RoundTrip.remapBlockMove (span : Nat) : RoundTrip.Statement (.remapBlockMove span) := fun _ _ he => nomatch he
theorem RoundTrip.remapThresholdPassed (span : Nat) (family : Nat) : RoundTrip.Statement (.remapThresholdPassed span family) := fun _ _ he => nomatch he
theorem RoundTrip.memRemapWindow (span : Nat) : RoundTrip.Statement (.memRemapWindow span) := fun _ _ he => nomatch he
theorem RoundTrip.memHotEpoch (iodie : Nat) : RoundTrip.Statement (.memHotEpoch iodie) := fun _ _ he => nomatch he
theorem RoundTrip.rayMessageArrival (ray : Nat) : RoundTrip.Statement (.rayMessageArrival ray) := fun _ _ he => nomatch he
theorem RoundTrip.spireBatchStart (unit : Nat) : RoundTrip.Statement (.spireBatchStart unit) := fun _ _ he => nomatch he
theorem RoundTrip.nodeVisit (ray : Nat) : RoundTrip.Statement (.nodeVisit ray) := fun _ _ he => nomatch he
theorem RoundTrip.rayEnd (ray : Nat) : RoundTrip.Statement (.rayEnd ray) := fun _ _ he => nomatch he
theorem RoundTrip.calloutGroupSend (stack : Nat) : RoundTrip.Statement (.calloutGroupSend stack) := fun _ _ he => nomatch he
theorem RoundTrip.calloutGatherTimeout (stack : Nat) : RoundTrip.Statement (.calloutGatherTimeout stack) := fun _ _ he => nomatch he
theorem RoundTrip.calloutGroupDispatch (core : Nat) : RoundTrip.Statement (.calloutGroupDispatch core) := fun _ _ he => nomatch he
theorem RoundTrip.rayPark (ray : Nat) : RoundTrip.Statement (.rayPark ray) := fun _ _ he => nomatch he
theorem RoundTrip.rayAbort (ray : Nat) : RoundTrip.Statement (.rayAbort ray) := fun _ _ he => nomatch he
theorem RoundTrip.groupTakenAtSite (gid : Nat) : RoundTrip.Statement (.groupTakenAtSite gid) := fun _ _ he => nomatch he
theorem RoundTrip.eccError (place : Nat) (unit : Nat) (fatal : Nat) : RoundTrip.Statement (.eccError place unit fatal) := fun _ _ he => nomatch he
theorem RoundTrip.watchdogFire (core : Nat) : RoundTrip.Statement (.watchdogFire core) := fun _ _ he => nomatch he
theorem RoundTrip.fwTrialTimeout : RoundTrip.Statement .fwTrialTimeout := fun _ _ he => nomatch he
theorem RoundTrip.moduleReset : RoundTrip.Statement .moduleReset := fun _ _ he => nomatch he
theorem RoundTrip.fabricIngressRequest (port : Nat) (op : Nat) (addr : Nat) (size : Nat) (data : Nat) (cls : Nat) (stamp : Nat) : RoundTrip.Statement (.fabricIngressRequest port op addr size data cls stamp) := fun _ _ he => nomatch he
theorem RoundTrip.acknowledgedAtHome (gid : Nat) (n : Nat) : RoundTrip.Statement (.acknowledgedAtHome gid n) := fun _ _ he => nomatch he
theorem RoundTrip.linkTakenOutOfService (port : Nat) : RoundTrip.Statement (.linkTakenOutOfService port) := fun _ _ he => nomatch he
theorem RoundTrip.linkUp (port : Nat) : RoundTrip.Statement (.linkUp port) := fun _ _ he => nomatch he

end Sys2Proof.Laws
end

