-- ==== Sys2Proof/Safety.lean ====
section
/-! DEFINITION. The terms in which claims speak: an issue of an instruction, what it leaves alone, and the invariant of every step. -/
namespace Sys2Proof.Machine

/-! ## An issue (15 R281) -/

/-- A path that issues: its group's number, the group before the issue, the PC and the lanes. -/
structure Turn where
  gid : Nat
  g : Group
  pc : Nat
  lanes : Mask
deriving DecidableEq, Repr

/-- The part issues the path `q`, whose lanes are live. -/
structure State.Path (s : State) (q : Turn) : Prop where
  cur : s.cur = some { gid := q.gid, pc := q.pc, lanes := q.lanes, wait := 0 }
  group : s.groups.get? q.gid = some q.g
  some_lane : q.lanes ≠ 0
  live : q.lanes &&& q.g.live = q.lanes

/-- The accumulator tiles that a path may name; none where the path belongs to no team (02 R32, 24 R357). -/
def State.tilesFor (s : State) (q : Turn) : Option Nat := if q.g.kind = .team then some (s.teamOf q.g).tiles else none

/-- What a form reads, by the numbers that stand for it among a group's poisoned registers: its guard, vR, sN and pN (12 R231). -/
def readCodes (i : Instr) : List Nat :=
  poisonP ((guardOf i).toNat % 8) :: (readsOf i ++ (scalarReads i).map poisonS ++ (predReads i).map poisonP)

/-- The part issues `i` for the path `q`, and none of the checks that come before the form's own effect fails: fields and guard,
registers, poison (15 R281). -/
structure State.Issues (s : State) (q : Turn) (i : Instr) : Prop extends State.Path s q where
  fields : i.wf = true
  regs : regsFail q.g.budget (s.tilesFor q) (regsOf i) = none
  clean : ∀ r ∈ readCodes i, r ∉ q.g.poison

/-- A lane of the path takes part: the form's guard is true in it (15 R267). -/
def Turn.takes (q : Turn) (i : Instr) (l : Nat) : Bool :=
  q.lanes.getLsbD l && (q.g.pget ((guardOf i).toNat % 8) l != (guardOf i).getLsbD 3)

/-- Some lane takes part. -/
def Turn.acts (q : Turn) (i : Instr) : Prop := ∃ l < 32, q.takes i l = true

/-- The lowest lane that satisfies a test; 32 when none does. -/
def lowest (f : Nat → Bool) : Nat := ((List.range 32).find? f).getD 32

/-- The lane that a fault of the whole path names: the lowest that takes part, or the lowest live one (12 R216). -/
def Turn.pathLane (q : Turn) (i : Instr) : Nat :=
  if lowest (q.takes i) < 32 then lowest (q.takes i) else lowest (fun l => q.lanes.getLsbD l)

/-- The path's group ends by a fault that a lane raises at this instruction (12 R218). -/
def Turn.ends (q : Turn) (s : State) (lane : Nat) (f : FaultInfo) : State :=
  (s.setGroup q.gid (q.g.unwait q.lanes)).takeFault q.gid lane q.pc f

/-- The PC after the instruction (15 R265). -/
def Turn.next (q : Turn) (i : Instr) : Nat := (q.pc + i.size) % 2 ^ 32

/-- The group `h` differs from `g` in its registers, its PCs, and the lanes' waits alone; no register is newly poisoned. -/
structure Group.RegsOnly (g h : Group) : Prop where
  same : { h with
    v := g.v
    s := g.s
    p := g.p
    pcs := g.pcs
    waits := g.waits
    poison := g.poison } = g
  poison : ∀ r ∈ h.poison, r ∈ g.poison

/-- The lanes of the path have left the waits they were in; the others wait as before. -/
def Turn.Leaves (q : Turn) (h : Group) : Prop := h.waits = (q.g.unwait q.lanes).waits

/-- Every lane of the path stands at the next instruction; the others stay where they were. -/
def Turn.GoesOn (q : Turn) (i : Instr) (h : Group) : Prop :=
  ∀ l < 32, h.pcOf l = if q.lanes.getLsbD l then q.next i else q.g.pcOf l

/-- vR of a group's lanes is as before, for every register and lane. -/
def Group.sameV (g h : Group) : Prop := ∀ r l, h.vget r l = g.vget r l
/-- Every sN is as before. -/
def Group.sameS (g h : Group) : Prop := ∀ n, h.sget n = g.sget n
/-- Every pN is as before in every lane. -/
def Group.sameP (g h : Group) : Prop := ∀ n l, h.pget n l = g.pget n l

/-! ## What forms write, from the spec's tables of results

These values are written with exact integers, as the spec's pseudocode has it (00 R7), and say nothing of how the model computes. -/

/-- What a form writes in vector registers: for a register and a lane, the value or none. -/
abbrev VWrite := Turn → Nat → Nat → Option W32

/-- A number as a 32-bit word: Trunc32 (00 R7). -/
def word (n : Int) : W32 := BitVec.ofInt 32 n
/-- vD is written. -/
def toV (d : BitVec 7) (f : Turn → Nat → W32) : VWrite := fun q r l => if r = d.toNat then some (f q l) else none
/-- vD is written, D below 64. -/
def toV6 (d : BitVec 6) (f : Turn → Nat → W32) : VWrite := fun q r l => if r = d.toNat then some (f q l) else none
/-- The pair wD is written. -/
def toW (d : BitVec 7) (f : Turn → Nat → Int) : VWrite := fun q r l =>
  if r = d.toNat then some (word (f q l)) else if r = d.toNat + 1 then some (word (f q l / 2 ^ 32)) else none

/-- vR of a lane as an unsigned number. -/
def Turn.u (q : Turn) (r : BitVec 7) (l : Nat) : Int := (q.g.vget r.toNat l).toNat
/-- vR of a lane as a signed number. -/
def Turn.i (q : Turn) (r : BitVec 7) (l : Nat) : Int := (q.g.vget r.toNat l).toInt
/-- wR of a lane as an unsigned number. -/
def Turn.w (q : Turn) (r : BitVec 7) (l : Nat) : Int := (q.g.wget r.toNat l).toNat
/-- A register number of a 16-bit form. -/
def wide {n : Nat} (r : BitVec n) : BitVec 7 := r.setWidth 7

/-- A result computed from two registers as unsigned numbers. -/
def uu (a b : BitVec 7) (f : Int → Int → Int) : Turn → Nat → W32 := fun q l => word (f (q.u a l) (q.u b l))
/-- A result computed from two registers as signed numbers. -/
def ii (a b : BitVec 7) (f : Int → Int → Int) : Turn → Nat → W32 := fun q l => word (f (q.i a l) (q.i b l))
/-- A result computed from a signed number and an unsigned one. -/
def iu (a b : BitVec 7) (f : Int → Int → Int) : Turn → Nat → W32 := fun q l => word (f (q.i a l) (q.u b l))
/-- A result computed bit by bit. -/
def bb (a b : BitVec 7) (f : W32 → W32 → W32) : Turn → Nat → W32 := fun q l => f (q.g.vget a.toNat l) (q.g.vget b.toNat l)

/-- The integer vector forms and what they write (15 R266; 22 R307; 23 R329; 24 R351, R352, R355, R356; 25 R375). -/
def intWrite : Instr → Option VWrite
  | .add d a b _ => some (toV d (uu a b (· + ·)))
  | .sub d a b _ => some (toV d (uu a b (· - ·)))
  | .mul d a b _ => some (toV d (uu a b (· * ·)))
  | .mulh d a b _ => some (toV d (ii a b (fun x y => x * y / 2 ^ 32)))
  | .min d a b _ => some (toV d (ii a b Min.min))
  | .max d a b _ => some (toV d (ii a b Max.max))
  | .and d a b _ => some (toV d (bb a b (· &&& ·)))
  | .or d a b _ => some (toV d (bb a b (· ||| ·)))
  | .xor d a b _ => some (toV d (bb a b (· ^^^ ·)))
  | .shl d a b _ => some (toV d (uu a b (fun x y => x * 2 ^ (y % 32).toNat)))
  | .shr d a b _ => some (toV d (uu a b (fun x y => x / 2 ^ (y % 32).toNat)))
  | .sar d a b _ => some (toV d (iu a b (fun x y => x / 2 ^ (y % 32).toNat)))
  | .mad d a b _ => some (toV d fun q l => word (q.u a l * q.u b l + q.u d l))
  | .mov16 d b => some (toV6 d fun q l => q.g.vget b.toNat l)
  | .add16 d b => some (toV6 d (uu (wide d) (wide b) (· + ·)))
  | .sub16 d b => some (toV6 d (uu (wide d) (wide b) (· - ·)))
  | .mul16 d b => some (toV6 d (uu (wide d) (wide b) (· * ·)))
  | .min16 d b => some (toV6 d (ii (wide d) (wide b) Min.min))
  | .max16 d b => some (toV6 d (ii (wide d) (wide b) Max.max))
  | .and16 d b => some (toV6 d (bb (wide d) (wide b) (· &&& ·)))
  | .or16 d b => some (toV6 d (bb (wide d) (wide b) (· ||| ·)))
  | .xor16 d b => some (toV6 d (bb (wide d) (wide b) (· ^^^ ·)))
  | .shl16 d b => some (toV6 d (uu (wide d) (wide b) (fun x y => x * 2 ^ (y % 32).toNat)))
  | .shr16 d b => some (toV6 d (uu (wide d) (wide b) (fun x y => x / 2 ^ (y % 32).toNat)))
  | .addi d a i _ => some (toV d fun q l => word (q.i a l + i.toInt))
  | .andi d a i _ => some (toV d fun q l => q.g.vget a.toNat l &&& word i.toInt)
  | .ori d a i _ => some (toV d fun q l => q.g.vget a.toNat l ||| word i.toInt)
  | .xori d a i _ => some (toV d fun q l => q.g.vget a.toNat l ^^^ word i.toInt)
  | .shli d a i _ => some (toV d fun q l => word (q.u a l * 2 ^ i.toNat))
  | .shri d a i _ => some (toV d fun q l => word (q.u a l / 2 ^ i.toNat))
  | .sari d a i _ => some (toV d fun q l => word (q.i a l / 2 ^ i.toNat))
  | .movi d i => some (toV d fun _ _ => word i.toInt)
  | .movhi d i => some (toV d fun q l => word (i.toNat * 2 ^ 18 + q.u d l % 2 ^ 18))
  | .mov d a _ => some (toV d fun q l => q.g.vget a.toNat l)
  | .not d a _ => some (toV d fun q l => word (-1 - q.u a l))
  | .abs d a _ => some (toV d fun q l => word (if q.i a l < 0 then -q.i a l else q.i a l))
  | .popc d a _ => some (toV d fun q l => word (((List.range 32).filter (fun k => (q.g.vget a.toNat l).getLsbD k)).length : Nat))
  | .clz d a _ => some (toV d fun q l => word (lowest (fun k => (q.g.vget a.toNat l).getLsbD (31 - k)) : Nat))
  | .brev d a _ => some (toV d fun q l => (q.g.vget a.toNat l).reverse)
  | .movs d a _ => some (toV d fun q _ => word ((q.g.sget a.toNat).toNat : Int))
  | .movsHi d a _ => some (toV d fun q _ => word ((q.g.sget a.toNat).toNat / 2 ^ 32 : Int))
  | .lea d a b _ => some (toW d fun q l => (q.w a l + q.i b l) % 2 ^ 64)
  | _ => none

/-- The forms whose result depends on other lanes, on predicates or on windows, and what they write (05 R90; 24 R353, R360;
25 R376, R377; 15 R278). -/
def laneWrite : Instr → Option VWrite
  | .sel d a b g => some (toV d fun q l =>
      if q.g.pget (g.toNat % 8) l != g.getLsbD 3 then q.g.vget a.toNat l else q.g.vget b.toNat l)
  | .shfl d a b _ => some (toV d fun q l =>
      let k := (q.u b l % 32).toNat
      if q.g.live.getLsbD k then q.g.vget a.toNat k else 0)
  | .mates d a g => some (toV d fun q l =>
      maskOf (fun k => q.takes (.mates d a g) k && q.g.vget a.toNat k == q.g.vget a.toNat l))
  | .ppack d _ => some (toV d fun q l => maskOf (fun i => decide (i < 8) && q.g.pget i l))
  | .spcastToprv d a _ => some (toV d fun q l =>
      if q.w a l / 2 ^ 24 = 0xFC * 2 ^ 32 then word (q.w a l % 2 ^ 24) else 0xFFFFFFFF)
  | .spcastToclu d a _ => some (toV d fun q l =>
      if q.w a l / 2 ^ 26 = 0xFD * 2 ^ 30 then word (q.w a l % 2 ^ 26) else 0xFFFFFFFF)
  | .spcastToscr d a _ => some (toV d fun q l =>
      if q.w a l / 2 ^ 32 = 0xFE * 2 ^ 24 ∧ q.w a l / 2 ^ 24 % 2 ^ 8 = q.g.core then word (q.w a l % 2 ^ 24) else 0xFFFFFFFF)
  | .spcastPrvgen d a _ => some (toW d fun q l => 0xFC * 2 ^ 56 + q.u a l)
  | .spcastClugen d a _ => some (toW d fun q l => 0xFD * 2 ^ 56 + q.u a l)
  | .spcastScrgen d a _ => some (toW d fun q l =>
      0xFE * 2 ^ 56 + q.u a l / 2 ^ 24 * 2 ^ 32 + q.g.core * 2 ^ 24 + q.u a l % 2 ^ 24)
  | _ => none

/-- A result of floating-point operands, rounded in FPMODE.RM. -/
def ff (a b : BitVec 7) (f : RM → W32 → W32 → W32) : Turn → Nat → W32 := fun q l =>
  f q.g.rm (q.g.vget a.toNat l) (q.g.vget b.toNat l)
/-- A result of one floating-point operand. -/
def f1 (a : BitVec 7) (f : W32 → W32) : Turn → Nat → W32 := fun q l => f (q.g.vget a.toNat l)
/-- A result of two FP16 pairs and the destination, half by half, each rounded in FPMODE.RM. -/
def hh (d a b : BitVec 7) (f : RM → FVal → FVal → FVal → Nat) : Turn → Nat → W32 := fun q l =>
  let half (w : W32) (k : Nat) : FVal := unpack .f16 (w.toNat / 2 ^ (16 * k) % 2 ^ 16)
  let x := q.g.vget a.toNat l
  let y := q.g.vget b.toNat l
  let z := q.g.vget d.toNat l
  BitVec.ofNat 32 (f q.g.rm (half x 0) (half y 0) (half z 0) + 2 ^ 16 * f q.g.rm (half x 1) (half y 1) (half z 1))

/-- The floating-point, packed and residue forms and what they write (03 R48, R54, R56 to R62; 23 R332, R335 to R340; 24 R342,
R343). -/
def floatWrite : Instr → Option VWrite
  | .fadd16 d b => some (toV6 d (ff (wide d) (wide b) fadd32))
  | .fsub16 d b => some (toV6 d (ff (wide d) (wide b) fsub32))
  | .fmul16 d b => some (toV6 d (ff (wide d) (wide b) fmul32))
  | .fmin16 d b => some (toV6 d (ff (wide d) (wide b) fun _ => fmin))
  | .fmax16 d b => some (toV6 d (ff (wide d) (wide b) fun _ => fmax))
  | .fadd d a b _ => some (toV d (ff a b fadd32))
  | .fsub d a b _ => some (toV d (ff a b fsub32))
  | .fmul d a b _ => some (toV d (ff a b fmul32))
  | .fdiv d a b _ => some (toV d (ff a b fdiv32))
  | .fmin d a b _ => some (toV d (ff a b fun _ => fmin))
  | .fmax d a b _ => some (toV d (ff a b fun _ => fmax))
  | .ffma d a b _ => some (toV d fun q l => ffma32 q.g.rm (q.g.vget a.toNat l) (q.g.vget b.toNat l) (q.g.vget d.toNat l))
  | .cvts d a b _ => some (toV d fun q l =>
      BitVec.ofNat 32 (fdiv q.g.narrow q.g.rm (f32 (q.g.vget a.toNat l)) (f32 (q.g.vget b.toNat l))))
  | .hadd2 d a b _ => some (toV d (hh d a b fun m x y _ => fadd .f16 m x y))
  | .hmul2 d a b _ => some (toV d (hh d a b fun m x y _ => fmul .f16 m x y))
  | .hfma2 d a b _ => some (toV d (hh d a b fun m x y z => ffma .f16 m x y z))
  | .fabs d a _ => some (toV d fun q l => word (q.u a l % 2 ^ 31))
  | .fneg d a _ => some (toV d fun q l => word (q.u a l + 2 ^ 31))
  | .frcp d a _ => some (toV d fun q l => fdiv32 q.g.rm 0x3F800000 (q.g.vget a.toNat l))
  | .fsqrt d a _ => some (toV d fun q l => fsqrt32 q.g.rm (q.g.vget a.toNat l))
  | .frsq d a _ => some (toV d (f1 a frsq32))
  | .fexp2 d a _ => some (toV d (f1 a fexp2))
  | .flog2 d a _ => some (toV d (f1 a flog2))
  | .fsin d a _ => some (toV d (f1 a fsin))
  | .fcos d a _ => some (toV d (f1 a fcos))
  | .frndRne d a _ => some (toV d (f1 a (frnd .rne)))
  | .frndRtz d a _ => some (toV d (f1 a (frnd .rtz)))
  | .frndRup d a _ => some (toV d (f1 a (frnd .rup)))
  | .frndRdn d a _ => some (toV d (f1 a (frnd .rdn)))
  | .cvt d a c _ => some (toV d (f1 a (cvt c.toNat)))
  | .rzcvt d a _ => some (toV d fun q l => ofInt (rzInt (q.g.wget a.toNat l)))
  | .rzadd d a _ => some (toW d fun q l => ((rzAdd (q.g.wget d.toNat l) (q.g.wget a.toNat l)).toNat : Int))
  | _ => none

/-! ## Exact results, rounded (03 R45, R53, R54, R56) -/

/-- The exponent field and the fraction of an encoding, and its sign (03 R45). -/
def Fmt.expOf (f : Fmt) (w : Nat) : Nat := w / 2 ^ f.frac % 2 ^ f.expo
def Fmt.fracOf (f : Fmt) (w : Nat) : Nat := w % 2 ^ f.frac
def Fmt.minus (f : Fmt) (w : Nat) : Bool := decide (w / 2 ^ (f.frac + f.expo) % 2 = 1)
/-- An encoding holds a finite value (03 R45). -/
def Fmt.isFinite (f : Fmt) (w : Nat) : Bool :=
  decide (w < 2 ^ (1 + f.frac + f.expo)) && (f.expOf w != 2 ^ f.expo - 1 || f == .e4m3 && f.fracOf w != 7)
/-- An encoding holds an infinity (03 R45). -/
def Fmt.isInf (f : Fmt) (w : Nat) : Bool := f != .e4m3 && f.expOf w == 2 ^ f.expo - 1 && f.fracOf w == 0
/-- The value of a finite encoding in units of 2^-149, of which the finite values of every format are multiples (03 R45). -/
def Fmt.units (f : Fmt) (w : Nat) : Int :=
  let x : Nat := if f.expOf w = 0 then f.fracOf w * 2 ^ (150 - f.bias - f.frac)
    else (2 ^ f.frac + f.fracOf w) * 2 ^ (149 + f.expOf w - f.bias - f.frac)
  if f.minus w then -(x : Int) else x

/-- An exact real number: how an integer compares with twice the number, in units of 2^-149. -/
abbrev Exact := Int → Ordering
/-- The number n / d units. -/
def ofRatio (n : Int) (d : Nat) : Exact := fun t => compare (t * d) (2 * n)
/-- The square root of n / d units. -/
def ofRoot (n d : Nat) : Exact := fun t => if t < 0 then .lt else compare (t * t * d) (4 * n)

/-- Words as numbers: the value of a word that holds one, in units of 2^-149, and whether its last place is even; and, where there are
infinities, the first magnitude beyond the finite ones, and the words of the two. -/
structure NumFormat where
  val : Nat → Option Int
  even : Nat → Prop
  top : Option (Int × Nat × Nat)
/-- The values of a floating-point format; E4M3 has no infinity (03 R45). -/
def floats (f : Fmt) : NumFormat :=
  { val := fun w => if f.isFinite w then some (f.units w) else none, even := fun w => w % 2 = 0,
    top := if f = .e4m3 then none
      else let inf := (2 ^ f.expo - 1) * 2 ^ f.frac
        some (2 ^ (148 + 2 ^ f.expo - f.bias), inf, inf + 2 ^ (f.frac + f.expo)) }
/-- The integral values among those of FP32. -/
def integral : NumFormat :=
  { val := fun w => if Fmt.f32.isFinite w ∧ Fmt.f32.units w % 2 ^ 149 = 0 then some (Fmt.f32.units w) else none,
    even := fun w => Fmt.f32.units w / 2 ^ 149 % 2 = 0, top := none }
/-- 32-bit integers, signed or not. -/
def integers (signed : Bool) : NumFormat :=
  { val := fun w => if w < 2 ^ 32 then some ((if signed then (BitVec.ofNat 32 w).toInt else (w : Int)) * 2 ^ 149) else none,
    even := fun w => w % 2 = 0, top := none }

/-- A word is an exact number rounded in a mode: to the nearest value of its format, of two the one whose last place is even; towards
zero, upwards or downwards. An infinity stands for a number beyond all finite ones, to the nearest only from half-way to the first magnitude
beyond them (03 R53). -/
def NumFormat.Rounds (n : NumFormat) (m : RM) (x : Exact) (w : Nat) : Prop :=
  let up (v : Int) : Prop := x (2 * v) ≠ .lt ∧ ∀ u y, n.val u = some y → x (2 * y) ≠ .lt → v ≤ y
  let down (v : Int) : Prop := x (2 * v) ≠ .gt ∧ ∀ u y, n.val u = some y → x (2 * y) ≠ .gt → y ≤ v
  match n.val w with
  | some v => (match m with
    | .rne =>
      (∀ u y, n.val u = some y → (v < y → x (v + y) ≠ .lt) ∧ (y < v → x (v + y) ≠ .gt) ∧ (v ≠ y → x (v + y) = .eq → n.even w)) ∧
      ∀ o p q, n.top = some (o, p, q) → x (v + o) = .gt ∧ x (v - o) = .lt
    | .rtz => if x 0 = .gt then up v else down v
    | .rup => up v
    | .rdn => down v)
  | none => ∃ o p q, n.top = some (o, p, q) ∧
    (w = p ∧ (∀ u y, n.val u = some y → x (2 * y) = .lt) ∧ (m = .rup ∨ m = .rne ∧ ∀ u y, n.val u = some y → x (y + o) ≠ .gt) ∨
     w = q ∧ (∀ u y, n.val u = some y → x (2 * y) = .gt) ∧ (m = .rdn ∨ m = .rne ∧ ∀ u y, n.val u = some y → x (y - o) ≠ .lt))

/-- An exact result of a form: a register's bits from one on, as many as `width`, its format, the mode, and the number. -/
structure Result where
  reg : Nat
  low : Nat
  width : Nat
  format : NumFormat
  mode : RM
  exact : Exact

/-- The exact results of the rounded forms in a lane whose operands are finite and give a real number (03 R54, R56, R57). E4M3 holds no
infinity, and a quotient beyond its range is left out (03 R53). -/
def Turn.exacts (q : Turn) (i : Instr) (l : Nat) : List Result :=
  let w (r : BitVec 7) : Nat := (q.g.vget r.toNat l).toNat
  let x (r : BitVec 7) : Int := Fmt.f32.units (w r)
  let fin (r : BitVec 7) : Bool := Fmt.f32.isFinite (w r)
  let one : Nat := 2 ^ 149
  let quot (a b : Int) : Exact := ofRatio (a * one * b.sign) b.natAbs
  let out (d : BitVec 7) (ok : Bool) (e : Exact) : List Result := if ok then [⟨d.toNat, 0, 32, floats .f32, q.g.rm, e⟩] else []
  let near (d : BitVec 7) (ok : Bool) (f : NumFormat) (e : Exact) : List Result := if ok then [⟨d.toNat, 0, 32, f, .rne, e⟩] else []
  let whole (d a : BitVec 7) (m : RM) : List Result := if fin a then [⟨d.toNat, 0, 32, integral, m, ofRatio (x a) 1⟩] else []
  let half (r : BitVec 7) (k : Nat) : Nat := w r / 2 ^ (16 * k) % 2 ^ 16
  let h (r : BitVec 7) (k : Nat) : Int := Fmt.f16.units (half r k)
  let pair (d : BitVec 7) (rs : List (BitVec 7)) (e : Nat → Exact) : List Result := (List.range 2).filterMap (fun k =>
    if rs.all (fun r => Fmt.f16.isFinite (half r k)) then some ⟨d.toNat, 16 * k, 16, floats .f16, q.g.rm, e k⟩ else none)
  match i with
  | .fadd d a b _ => out d (fin a && fin b) (ofRatio (x a + x b) 1)
  | .fsub d a b _ => out d (fin a && fin b) (ofRatio (x a - x b) 1)
  | .fmul d a b _ => out d (fin a && fin b) (ofRatio (x a * x b) one)
  | .fadd16 d b => out (wide d) (fin (wide d) && fin (wide b)) (ofRatio (x (wide d) + x (wide b)) 1)
  | .fsub16 d b => out (wide d) (fin (wide d) && fin (wide b)) (ofRatio (x (wide d) - x (wide b)) 1)
  | .fmul16 d b => out (wide d) (fin (wide d) && fin (wide b)) (ofRatio (x (wide d) * x (wide b)) one)
  | .ffma d a b _ => out d (fin d && fin a && fin b) (ofRatio (x a * x b + x d * one) one)
  | .fdiv d a b _ => out d (fin a && fin b && x b != 0) (quot (x a) (x b))
  | .frcp d a _ => out d (fin a && x a != 0) (quot one (x a))
  | .fsqrt d a _ => out d (fin a && decide (0 ≤ x a)) (ofRoot ((x a).toNat * one) 1)
  | .frsq d a _ => near d (fin a && decide (0 < x a)) (floats .f32) (ofRoot (one ^ 3) (x a).toNat)
  | .frndRne d a _ => whole d a .rne
  | .frndRtz d a _ => whole d a .rtz
  | .frndRup d a _ => whole d a .rup
  | .frndRdn d a _ => whole d a .rdn
  | .cvts d a b _ =>
    let e := quot (x a) (x b)
    if fin a && fin b && x b != 0 && (q.g.narrow != .e4m3 || e (2 * (448 * one)) != .lt && e (-(2 * (448 * one))) != .gt)
    then [⟨d.toNat, 0, 32, floats q.g.narrow, q.g.rm, e⟩] else []
  | .hadd2 d a b _ => pair d [a, b] (fun k => ofRatio (h a k + h b k) 1)
  | .hmul2 d a b _ => pair d [a, b] (fun k => ofRatio (h a k * h b k) one)
  | .hfma2 d a b _ => pair d [a, b, d] (fun k => ofRatio (h a k * h b k + h d k * one) one)
  | .cvt d a c _ => (match c.toNat with
    | 0 => near d true (floats .f32) (ofRatio ((q.g.vget a.toNat l).toInt * one) 1)
    | 1 => near d true (floats .f32) (ofRatio (w a * one) 1)
    | 2 => near d (fin a) (integers true) (ofRatio (x a) 1)
    | 3 => if fin a then [⟨d.toNat, 0, 32, integers true, .rtz, ofRatio (x a) 1⟩] else []
    | 4 => near d (fin a) (floats .f16) (ofRatio (x a) 1)
    | 5 => near d (fin a) (floats .bf16) (ofRatio (x a) 1)
    | 8 => near d (fin a) (floats .e4m3) (ofRatio (x a) 1)
    | 9 => near d (fin a) (floats .e5m2) (ofRatio (x a) 1)
    | 15 => near d (fin a) (integers false) (ofRatio (x a) 1)
    | _ => [])
  | _ => []

/-- An encoding holds a NaN (03 R45). -/
def Fmt.isNan (f : Fmt) (w : Nat) : Bool := f.expOf w == 2 ^ f.expo - 1 && (if f = .e4m3 then f.fracOf w == 7 else f.fracOf w != 0)

/-- A product of a k-step: two elements, and the scale of each if it has one (03 R63, R65). -/
structure Product where
  a : Nat
  b : Nat
  sa : Option Nat
  sb : Option Nat

/-- It is a NaN: an operand or a scale is one, or it is an infinity times zero (03 R64, R66). -/
def Product.nan (p : Product) (fa fb : Fmt) : Bool :=
  fa.isNan p.a || fb.isNan p.b || p.sa == some 0xFF || p.sb == some 0xFF || fa.isInf p.a && fb.isFinite p.b && fb.units p.b == 0 ||
  fa.isFinite p.a && fa.units p.a == 0 && fb.isInf p.b
/-- Its sign. -/
def Product.minus (p : Product) (fa fb : Fmt) : Bool := fa.minus p.a != fb.minus p.b
/-- Its exact value, times 2^403, in units of 2^-149 (03 R65, R66). -/
def Product.num (p : Product) (fa fb : Fmt) : Int := fa.units p.a * fb.units p.b * 2 ^ (p.sa.getD 127 + p.sb.getD 127)
/-- Its operands and scales are numbers. -/
def Product.isNum (p : Product) (fa fb : Fmt) : Bool := fa.isFinite p.a && fb.isFinite p.b && p.sa != some 0xFF && p.sb != some 0xFF
/-- It is scaled, to a magnitude that FP32 does not hold (03 R66). -/
def Product.tooLarge (p : Product) (fa fb : Fmt) : Bool :=
  (p.sa.isSome || p.sb.isSome) && p.isNum fa fb && decide (2 ^ 680 ≤ (p.num fa fb).natAbs)
/-- It is an infinity of a sign (03 R64, R66). -/
def Product.isInf (p : Product) (fa fb : Fmt) (sign : Bool) : Bool :=
  (!p.nan fa fb && (fa.isInf p.a || fb.isInf p.b) || p.tooLarge fa fb) && p.minus fa fb == sign
/-- The integer nearest to n / d, of two the even one. -/
def nearest (n d : Int) : Int := if d < 2 * (n % d) ∨ d = 2 * (n % d) ∧ n / d % 2 = 1 then n / d + 1 else n / d
/-- What it adds, times 2^403, in units of 2^-149: a scaled one below the normal range of FP32 is rounded there (03 R66). -/
def Product.term (p : Product) (fa fb : Fmt) : Int :=
  if (p.sa.isSome || p.sb.isSome) && decide ((p.num fa fb).natAbs < 2 ^ 426) then nearest (p.num fa fb) (2 ^ 403) * 2 ^ 403 else p.num fa fb

/-! ## What forms write in scalar registers and in predicates -/

/-- sN as an unsigned number. -/
def Turn.su (q : Turn) (n : BitVec 6) : Int := (q.g.sget n.toNat).toNat
/-- sN as a signed number. -/
def Turn.si (q : Turn) (n : BitVec 6) : Int := (q.g.sget n.toNat).toInt
/-- The participating lanes in ascending order. -/
def Turn.parts (q : Turn) (i : Instr) : List Nat := (List.range 32).filter (q.takes i)
/-- sN bit by bit. -/
def Turn.sb (q : Turn) (n m : BitVec 6) (f : W64 → W64 → W64) : Int := (f (q.g.sget n.toNat) (q.g.sget m.toNat)).toInt
/-- The same with an immediate. -/
def Turn.sbi (q : Turn) (n : BitVec 6) (m : BitVec 9) (f : W64 → W64 → W64) : Int :=
  (f (q.g.sget n.toNat) (BitVec.ofInt 64 m.toInt)).toInt
/-- A list of numbers folded from its first. -/
def foldFirst (f : Int → Int → Int) (l : List Int) : Int := l.tail.foldl f (l.headD 0)

/-- The forms that write one scalar register once for their path: the register and the exact value, of which the low 64 bits are
kept (15 R273; 22 R313; 25 R367, R372, R373, R378). -/
def scalWrite (q : Turn) (i : Instr) : Option (BitVec 6 × Int) :=
  let sh (x : Int) (y : BitVec 6) : Int := x * 2 ^ y.toNat
  match i with
  | .sadd d a b => some (d, q.su a + q.su b)
  | .ssub d a b => some (d, q.su a - q.su b)
  | .smul d a b => some (d, q.su a * q.su b)
  | .sand d a b => some (d, q.sb a b (· &&& ·))
  | .sor d a b => some (d, q.sb a b (· ||| ·))
  | .sxor d a b => some (d, q.sb a b (· ^^^ ·))
  | .sshl d a b => some (d, q.su a * 2 ^ (q.su b % 64).toNat)
  | .sshr d a b => some (d, q.su a / 2 ^ (q.su b % 64).toNat)
  | .ssar d a b => some (d, q.si a / 2 ^ (q.su b % 64).toNat)
  | .smin d a b => some (d, min (q.si a) (q.si b))
  | .smax d a b => some (d, max (q.si a) (q.si b))
  | .slt d a b => some (d, if q.si a < q.si b then 1 else 0)
  | .smov d a => some (d, q.su a)
  | .saddImm d a m => some (d, q.su a + m.toInt)
  | .ssubImm d a m => some (d, q.su a - m.toInt)
  | .smulImm d a m => some (d, q.su a * m.toInt)
  | .sandImm d a m => some (d, q.sbi a m (· &&& ·))
  | .sorImm d a m => some (d, q.sbi a m (· ||| ·))
  | .sxorImm d a m => some (d, q.sbi a m (· ^^^ ·))
  | .sshlImm d a m => some (d, sh (q.su a) m)
  | .sshrImm d a m => some (d, q.su a / 2 ^ m.toNat)
  | .ssarImm d a m => some (d, q.si a / 2 ^ m.toNat)
  | .sminImm d a m => some (d, min (q.si a) m.toInt)
  | .smaxImm d a m => some (d, max (q.si a) m.toInt)
  | .sltImm d a m => some (d, if q.si a < m.toInt then 1 else 0)
  | .smovImm d m => some (d, m.toInt)
  | .smovi d m => some (d, m.toInt)
  | .smovhi d m => some (d, q.su d * 2 ^ 19 + m.toNat)
  | .badge d a g => some (d, ((q.parts (.badge d a g)).map (fun l => if q.g.pget a.toNat l then (2 ^ l : Int) else 0)).sum)
  | .refoldAdd d a g => some (d, ((q.parts (.refoldAdd d a g)).map (q.i a)).sum)
  | .refoldMin d a g => some (d, foldFirst min ((q.parts (.refoldMin d a g)).map (q.i a)))
  | .refoldMax d a g => some (d, foldFirst max ((q.parts (.refoldMax d a g)).map (q.i a)))
  | .refoldMinu d a g => some (d, foldFirst min ((q.parts (.refoldMinu d a g)).map (q.u a)))
  | .refoldMaxu d a g => some (d, foldFirst max ((q.parts (.refoldMaxu d a g)).map (q.u a)))
  | .refoldFadd d a g => some (d,
      let l := (q.parts (.refoldFadd d a g)).map (q.g.vget a.toNat)
      ((l.tail.foldl (fadd32 q.g.rm) (l.headD 0)).toNat : Int))
  | _ => none

/-- A value that s62 takes: an address of private memory from the stack's floor to the private size (02 R34). -/
def Group.inStack (g : Group) (x : Nat) : Prop := x / 2 ^ 24 = 0xFC00000000 ∧ g.floor ≤ x % 2 ^ 24 ∧ x % 2 ^ 24 ≤ g.priv

/-- What a form writes in predicates: for a predicate and a lane, the value or none. -/
abbrev PWrite := Turn → Nat → Nat → Option Bool
/-- pD is written. -/
def toP (d : BitVec 3) (f : Turn → Nat → Bool) : PWrite := fun q n l => if n = d.toNat then some (f q l) else none

/-- A finite FP32 value in units of 2^-149; an infinity lies beyond all of them. -/
def flt (w : W32) : Int := if w.toNat % 2 ^ 31 = 0x7F800000 then (if w.getLsbD 31 then -2 ^ 400 else 2 ^ 400) else fx w
/-- An FP32 word is a NaN (03 R45). -/
def flNan (w : W32) : Bool := decide (0x7F800000 < w.toNat % 2 ^ 31)

/-- The condition of a CMP code on two words (15 R271). -/
def cmpHolds (cc : Nat) (a b : W32) : Bool :=
  match cc with
  | 0 => decide (a.toNat = b.toNat)
  | 1 => decide (a.toNat ≠ b.toNat)
  | 2 => decide (a.toInt < b.toInt)
  | 3 => decide (a.toInt ≤ b.toInt)
  | 4 => decide (a.toInt > b.toInt)
  | 5 => decide (a.toInt ≥ b.toInt)
  | 6 => decide (a.toNat < b.toNat)
  | 7 => decide (a.toNat ≤ b.toNat)
  | 8 => decide (a.toNat > b.toNat)
  | 9 => decide (a.toNat ≥ b.toNat)
  | _ => false
/-- The condition of an FCMP code on two words (15 R272). -/
def fcmpHolds (cc : Nat) (a b : W32) : Bool :=
  let un := flNan a || flNan b
  let rel : Bool := match cc % 8 with
    | 0 => decide (flt a = flt b)
    | 1 => decide (flt a ≠ flt b)
    | 2 => decide (flt a < flt b)
    | 3 => decide (flt a ≤ flt b)
    | 4 => decide (flt a > flt b)
    | 5 => decide (flt a ≥ flt b)
    | _ => true
  if cc = 14 then un else if cc < 8 then !un && rel else un || rel

/-- The forms that write predicates of participating lanes (05 R90; 23 R330, R341; 24 R359, R360; 25 R385). -/
def predWrite : Instr → Option PWrite
  | .cmp p a b c _ => some (toP p fun q l => cmpHolds c.toNat (q.g.vget a.toNat l) (q.g.vget b.toNat l))
  | .fcmp p a b c _ => some (toP p fun q l => fcmpHolds c.toNat (q.g.vget a.toNat l) (q.g.vget b.toNat l))
  | .vsome d a g => some (toP d fun q _ => (q.parts (.vsome d a g)).any (fun k => q.g.pget a.toNat k))
  | .vevery d a g => some (toP d fun q _ => (q.parts (.vevery d a g)).all (fun k => q.g.pget a.toNat k))
  | .pand d a _ => some (toP d fun q l => q.g.pget d.toNat l && q.g.pget a.toNat l)
  | .por d a _ => some (toP d fun q l => q.g.pget d.toNat l || q.g.pget a.toNat l)
  | .pxor d a _ => some (toP d fun q l => q.g.pget d.toNat l != q.g.pget a.toNat l)
  | .pnot d a _ => some (toP d fun q l => !q.g.pget a.toNat l)
  | .punpack a _ => some fun q n l => if 1 ≤ n ∧ n ≤ 7 then some ((q.g.vget a.toNat l).getLsbD n) else none
  | .sptest d a w _ => some (toP d fun q l =>
      let top := q.w a l / 2 ^ 56
      if top = 0xFC then w == 0 else if top = 0xFE then w == 1 else if top = 0xFD then w == 2 else w == 3)
  | _ => none

/-! ## Results of register forms -/

/-- The form completes: the next state differs in the issuing group alone, of which registers, PCs and waits alone; the lanes of
the path have left their waits and stand at the next instruction; and `P` holds of the group. -/
def Turn.Completes (q : Turn) (i : Instr) (s : State) (P : Group → Prop) : Prop :=
  ∃ h, exec i s = .next (s.setGroup q.gid h) ∧ q.g.RegsOnly h ∧ q.Leaves h ∧ q.GoesOn i h ∧ P h

/-- Vector registers of participating lanes are as the table says; no other register changes. -/
def Turn.VWritten (q : Turn) (i : Instr) (w : VWrite) (h : Group) : Prop :=
  q.g.sameS h ∧ q.g.sameP h ∧ ∀ l < 32, ∀ r, h.vget r l = if q.takes i l then (w q r l).getD (q.g.vget r l) else q.g.vget r l
/-- One scalar register holds the low 64 bits of a number, s0 apart, which reads 0; no other register changes. -/
def Turn.SWritten (q : Turn) (d : Nat) (x : Int) (h : Group) : Prop :=
  q.g.sameV h ∧ q.g.sameP h ∧ ∀ n, h.sget n = if n = d ∧ n ≠ 0 then BitVec.ofInt 64 x else q.g.sget n
/-- Predicates of participating lanes are as the table says, p0 apart, which reads 1; no other register changes. -/
def Turn.PWritten (q : Turn) (i : Instr) (w : PWrite) (h : Group) : Prop :=
  q.g.sameV h ∧ q.g.sameS h ∧
  ∀ l < 32, ∀ n, h.pget n l = if q.takes i l ∧ n ≠ 0 then (w q n l).getD (q.g.pget n l) else q.g.pget n l

/-- Nothing happens but that every lane of the path goes on. -/
def Turn.onward (q : Turn) (i : Instr) (s : State) : State :=
  s.setGroup q.gid ((q.g.unwait q.lanes).setPc q.lanes (q.pc + i.size))

/-! ## Memory as a function -/

/-- Memory as the bytes that its keys read as. -/
abbrev Bytes := Nat → Byte
/-- A key lies among the `n` bytes from a key on. -/
abbrev within (k n j : Nat) : Prop := j % 4 = k % 4 ∧ k / 4 ≤ j / 4 ∧ j / 4 < k / 4 + n
/-- The little-endian number in the `n` bytes from a key on (00 R2). -/
def Bytes.num (m : Bytes) (k n : Nat) : Nat := ((List.range n).map (fun i => (m (k + 4 * i)).toNat * 256 ^ i)).sum
/-- Memory with a little-endian number stored in the `n` bytes from a key on. -/
def Bytes.stored (m : Bytes) (k n x : Nat) : Bytes := fun j =>
  if within k n j then BitVec.ofNat 8 (x / 256 ^ (j / 4 - k / 4)) else m j
/-- Memory after lanes, in order, have each stored `n` bytes. -/
def Bytes.storedAll (m : Bytes) (n : Nat) (l : List (Nat × Nat)) : Bytes := l.foldl (fun m q => m.stored q.1 n q.2) m
/-- Memory after lanes, in order, have each changed the number at a key by a function. -/
def Bytes.changedAll (m : Bytes) (n : Nat) (f : Nat → Nat → Nat) (l : List (Nat × Nat)) : Bytes :=
  l.foldl (fun m q => m.stored q.2 n (f q.1 (m.num q.2 n))) m

/-- The numbers that those lanes, in order, have found. -/
def Bytes.found (m : Bytes) (n : Nat) (f : Nat → Nat → Nat) : List (Nat × Nat) → List Nat
  | [] => []
  | q :: t => m.num q.2 n :: Bytes.found (m.stored q.2 n (f q.1 (m.num q.2 n))) n f t

/-- The counters that an access may raise (05 R103; 06 R111; 07 R143; 14 R264). -/
def CtlReg.tally : CtlReg → Bool
  | .tlbDieMisses | .tlbWalkNs | .tlbRunBroken | .memFamilyMismatch | .cohRedCombine | .cohLeaseRenew | .fabTxFlits | .fabDroppedWrites => true
  | _ => false

/-- Of the whole state, only the issuing group, memory and what serves it (TLBs, request queues, counters, the model's numbers)
may differ; no byte of memory differs where `keep` says so. -/
structure State.SameBut (s t : State) (gid : Nat) : Prop where
  groups : ∀ j, j ≠ gid → t.groups.get? j = s.groups.get? j
  teams : t.teams = s.teams
  grids : t.grids = s.grids
  eng : t.eng = s.eng
  spire : t.spire = s.spire
  ctrl : t.ctrl = s.ctrl
  fw : t.fw = s.fw
  disp : t.disp = s.disp
  regs : ∀ r u, r.tally = false → t.ctlGet r u = s.ctlGet r u
/-- Bytes that the T9 writes for itself at once: no engine pins them, and no earlier write of its own waits for them (04 R75; log 108). -/
def State.openTo (s : State) (k n : Nat) : Prop := s.pinned k n = false ∧ ∀ e ∈ s.msys.late, overlaps k n e.key e.n = false
/-- Every byte of memory reads as before. -/
def State.sameBytes (s t : State) : Prop := ∀ j, t.byte j = s.byte j

/-! ## Forms of memory access (24 R346, R347; 25 R379, R380; 22 R309 to R312; 25 R365, R366) -/

/-- The loads: D, A, OFF7, bytes, and whether the value is sign-extended. -/
def loadForm : Instr → Option (BitVec 7 × BitVec 7 × BitVec 7 × Nat × Bool)
  | .ldU8 d a o _ => some (d, a, o, 1, false)
  | .ldS8 d a o _ => some (d, a, o, 1, true)
  | .ldU16 d a o _ => some (d, a, o, 2, false)
  | .ldS16 d a o _ => some (d, a, o, 2, true)
  | .ld32 d a o _ => some (d, a, o, 4, false)
  | .ld64 d a o _ => some (d, a, o, 8, false)
  | .ld128 d a o _ => some (d, a, o, 16, false)
  | _ => none
/-- The stores: D, A, OFF7, bytes. -/
def storeForm : Instr → Option (BitVec 7 × BitVec 7 × BitVec 7 × Nat)
  | .st8 d a o _ => some (d, a, o, 1)
  | .st16 d a o _ => some (d, a, o, 2)
  | .st32 d a o _ => some (d, a, o, 4)
  | .st64 d a o _ => some (d, a, o, 8)
  | .st128 d a o _ => some (d, a, o, 16)
  | _ => none

/-- A number of `n` bytes as a signed one. -/
def asSigned (n x : Nat) : Int := if x < 2 ^ (8 * n - 1) then x else (x : Int) - 2 ^ (8 * n)
/-- The new value of an atomic or a reduction from the old value and the operand, on `n` bytes (22 R309). -/
def opAdd (n o x : Nat) : Nat := (o + x) % 2 ^ (8 * n)
/-- The smaller, as signed. -/
def opMinS (n o x : Nat) : Nat := if asSigned n x < asSigned n o then x else o
/-- The larger, as signed. -/
def opMaxS (n o x : Nat) : Nat := if asSigned n o < asSigned n x then x else o
/-- The atomics of R309: D, A, and the operation. -/
def atomTable : Instr → Option (BitVec 7 × BitVec 7 × BitVec 1 × (Nat → Nat → Nat → Nat))
  | .atomAdd d a w _ => some (d, a, w, opAdd)
  | .atomMinS d a w _ => some (d, a, w, opMinS)
  | .atomMaxS d a w _ => some (d, a, w, opMaxS)
  | .atomMinU d a w _ => some (d, a, w, fun _ o x => min o x)
  | .atomMaxU d a w _ => some (d, a, w, fun _ o x => max o x)
  | .atomAnd d a w _ => some (d, a, w, fun _ o x => o &&& x)
  | .atomOr d a w _ => some (d, a, w, fun _ o x => o ||| x)
  | .atomXor d a w _ => some (d, a, w, fun _ o x => o ^^^ x)
  | .atomExch d a w _ => some (d, a, w, fun _ _ x => x)
  | _ => none
/-- The reductions whose order does not matter: D, A, bytes and the operation (25 R365, R366). -/
def redTable : Instr → Option (BitVec 7 × BitVec 7 × Nat × (Nat → Nat → Nat))
  | .redAdd32 d a _ => some (d, a, 4, opAdd 4)
  | .redAdd64 d a _ => some (d, a, 8, opAdd 8)
  | .redMaxU64 d a _ => some (d, a, 8, max)
  | .redMinS32 d a _ => some (d, a, 4, opMinS 4)
  | .redMaxS32 d a _ => some (d, a, 4, opMaxS 4)
  | .redOr32 d a _ => some (d, a, 4, fun o x => o ||| x)
  | .redRzadd d a _ => some (d, a, 8, fun o x => (rzAdd (BitVec.ofNat 64 o) (BitVec.ofNat 64 x)).toNat)
  | _ => none

/-- The address of an access of a lane: a pair, plus a scaled offset, modulo 2^64 (15 R269). -/
def Turn.at (q : Turn) (a : BitVec 7) (o : BitVec 7) (n l : Nat) : Nat := ((q.w a l + o.toInt * n) % 2 ^ 64).toNat
/-- The data that a lane stores: the low `n` bytes of the registers from vD on. -/
def Turn.data (q : Turn) (d : BitVec 7) (n l : Nat) : Nat :=
  (((List.range 4).map (fun j => if 4 * j < n then (q.g.vget (d.toNat + j) l).toNat * 2 ^ (32 * j) else 0)).sum) % 2 ^ (8 * n)
/-- The number in the `n` bytes that a lane's load has found; what another part holds comes later. -/
def State.numAt (s : State) (n : Nat) : Found → Nat
  | .ok (.here k) => Bytes.num s.byte k n
  | _ => 0
/-- The registers that `n` bytes fill from vD on. -/
def fills (d : BitVec 7) (n : Nat) : List Nat := (List.range 4).filterMap (fun j => if 4 * j < n then some (d.toNat + j) else none)
/-- What a lane's load writes: for each register it fills, 32 bits of the value, extended (24 R347). -/
def loaded (d : BitVec 7) (n : Nat) (signed : Bool) (l x : Nat) : List (Nat × Nat × W32) :=
  (List.range 4).filterMap (fun j => if 4 * j < n then
    some (d.toNat + j, l, word ((if signed then asSigned n x else (x : Int)) / 2 ^ (32 * j))) else none)

/-- What 02 R29 makes pending: the PC, the lanes, the registers, what they become, and the scalar register. -/
def Pend.seen (p : Pend) : Nat × Mask × List Nat × List (Nat × Nat × W32) × Option Nat := (p.pc, p.lanes, p.regs, p.writes, p.sreg)

/-- The lanes' results are pending and the path goes on; no register has changed yet. -/
def Turn.Pending (q : Turn) (i : Instr) (h : Group) (items : List Pend) : Prop :=
  h.pend = q.g.pend ++ items ∧ q.Leaves h ∧ q.GoesOn i h ∧ q.g.sameV h ∧ q.g.sameS h ∧ q.g.sameP h ∧ h.live = q.g.live

/-- FMIN and FMAX in both lengths: D, the two operands, and whether the larger is wanted (23 R338). -/
def minMaxForm : Instr → Option (BitVec 7 × BitVec 7 × BitVec 7 × Bool)
  | .fmin d a b _ => some (d, a, b, false)
  | .fmax d a b _ => some (d, a, b, true)
  | .fmin16 d b => some (wide d, wide d, wide b, false)
  | .fmax16 d b => some (wide d, wide d, wide b, true)
  | _ => none

/-- Nothing of a group changes but that the path goes on. -/
def Turn.gone (q : Turn) (i : Instr) : Group := (q.g.unwait q.lanes).setPc q.lanes (q.pc + i.size)

/-- Some lanes of the path wait at the instruction for a reason, the others go on, and no register changes (02 R24). The wait keeps the
instruction and the scalar registers as they were read, for the rest of it to act on (15 R279). -/
def Turn.Stays (q : Turn) (i : Instr) (h : Group) (why : Why) (who : Nat → Bool) : Prop :=
  (∃ w, h.waits = (q.g.unwait q.lanes).waits ++ [w] ∧ w.pc = q.pc ∧ w.why = why ∧ w.i = i ∧ w.snap = q.g.s ∧
    ∀ l < 32, w.lanes.getLsbD l = who l) ∧
  (∀ l < 32, h.pcOf l = if q.lanes.getLsbD l ∧ who l = false then q.next i else q.g.pcOf l) ∧
  q.g.sameV h ∧ q.g.sameS h ∧ q.g.sameP h ∧ h.live = q.g.live
/-- The lanes that take part wait, the others go on (02 R24). -/
def Turn.Waits (q : Turn) (i : Instr) (h : Group) (why : Why) : Prop := q.Stays i h why (q.takes i)
/-- Every lane of the path waits: the instruction acts once for all of them (22 R315, R319). -/
def Turn.WaitsAll (q : Turn) (i : Instr) (h : Group) (why : Why) : Prop := q.Stays i h why (fun l => q.lanes.getLsbD l)

/-- Every live lane of the group is in the path. -/
def Turn.Whole (q : Turn) : Prop := q.lanes = q.g.live

/-- The forms that branch to an offset in a register, the register, and whether they leave a link in v8 (22 R324; 23 R326; 25 R369). -/
def indirectForm : Instr → Option (Nat × Bool)
  | .brx a _ => some (a.toNat, false)
  | .callx a _ => some (a.toNat, true)
  | .ret _ => some (8, false)
  | _ => none

/-- Lanes that wait for a reason, and for no other, have left that wait and stand after its 32-bit instruction. -/
def Group.Released (g h : Group) (why : Why) : Prop :=
  h.waits = g.waits.filter (fun w => decide (w.why ≠ why)) ∧
  ∀ w ∈ g.waits, w.why = why → ∀ l < 32, w.lanes.getLsbD l = true → (∀ x ∈ g.waits, x.lanes.getLsbD l = true → x = w) →
    h.pcOf l = (w.pc + 4) % 2 ^ 32

/-- The lanes of a store that write: of those that take part and name one location, the highest alone (25 R380). -/
def Turn.writers {α : Type} [DecidableEq α] (q : Turn) (i : Instr) (key : Nat → α) : List Nat :=
  (q.parts i).filter (fun l => !(q.parts i).any (fun m => decide (l < m) && key m == key l))

/-- Bytes that an atomic or reduction of width `w` reaches. -/
def atomSize (w : BitVec 1) : Nat := if w = 0 then 4 else 8

/-- No access of a participating lane is still to be performed: no remote load or atomic has to land, and for scope POD no write to
another part is unacknowledged (07 R131). -/
def Turn.Performed (q : Turn) (i : Instr) (pod : Prop) : Prop :=
  (∀ p ∈ q.g.pend, (∃ a b c d, p.src = .remote a b c d) → ∀ l < 32, q.takes i l = true → p.lanes.getLsbD l = false) ∧
  (pod → ∀ u ∈ q.g.unacked, q.takes i u.1 = false)

/-! ## Copies and the matrix engine -/

/-- No store of the group waits at a pin or a GO word. -/
def Group.noStores (g : Group) : Prop := ∀ w ∈ g.waits, (∀ b, w.why ≠ .pin b) ∧ ∀ e, w.why ≠ .go e
/-- An earlier store of another path of the group waits so: what reads memory as it issues comes after it (04 R70; 07 R138; 22 R316). -/
def State.storeHeld (s : State) (q : Turn) : Prop :=
  ∃ w ∈ (q.g.unwait q.lanes).waits, w.seq < s.env.fresh ∧ ((∃ b, w.why = .pin b) ∨ ∃ e, w.why = .go e)

/-- A block of `n` bytes that an instruction of a lane reads as it issues lies whole at a key of this part, aligned, readable and not
poisoned (04 R70; 22 R316). -/
structure State.Block (s : State) (g : Group) (lane a n k : Nat) : Prop where
  scr : windowOf a ≠ .prv
  own : windowOf a ≠ .clu
  aligned : a % n = 0
  ok : s.checkRange g lane a n .load = .ok [(.here k, n)]
  clean : s.mem.poisonAt k n = none

/-- The copies that a form has accepted: each with its destination and the key of its bitmap; all of `n` bytes, all still to be made, in
the open batch, with one source (07 R138; 22 R316 to R318). -/
def Turn.Copied (q : Turn) (ks : List Copy) (n : Nat) (src : List (Loc × Nat)) (tos : List (List (Loc × Nat) × Option Nat)) : Prop :=
  ks.length = tos.length ∧ ∀ (j : Nat) (k : Copy), ks[j]? = some k → ∃ into salt, tos[j]? = some into ∧
    k.gid = q.gid ∧ k.core = q.g.core ∧ k.n = n ∧ k.left = List.range ((n + 511) / 512) ∧ k.sent = [] ∧ k.bits = [] ∧ k.batch = q.g.sealSeq ∧
    k.src = segsOf salt src ∧ k.dst = segsOf salt into.1 ∧ k.bitmap = into.2

/-- A copy form of `n` bytes is accepted: its copies are listed, the path goes on, and no byte has changed yet. -/
def Turn.Accepted (q : Turn) (i : Instr) (s u : State) (n : Nat) (src : List (Loc × Nat)) (tos : List (List (Loc × Nat) × Option Nat)) : Prop :=
  (∃ ks, u.eng.copies = s.eng.copies ++ ks ∧ q.Copied ks n src tos) ∧ u.groups = (q.onward i s).groups ∧ u.eng.ops = s.eng.ops ∧
  u.grids = s.grids ∧ s.sameBytes u

/-- A copy form of `n` bytes waits: for a free entry among the 32 of its core, or then for a grant when it moves more than 64 KiB. -/
def Turn.Held (q : Turn) (i : Instr) (s u : State) (n : Nat) : Prop :=
  u.eng.copies = s.eng.copies ∧ s.sameBytes u ∧ u.grids = s.grids ∧ ∃ h, u.groups.get? q.gid = some h ∧
    ((s.copyRoom q.g.core = false ∧ q.WaitsAll i h .room ∧ u.eng = s.eng) ∨
     (s.copyRoom q.g.core = true ∧ 65536 < n ∧ q.WaitsAll i h .grant ∧ ∃ x ∈ u.eng.asking, x.1 = q.g.core / 48 ∧ x.2.1 = .copy q.gid q.pc))

/-- A copy form that passed its checks: accepted, or held. -/
def Turn.Copies (q : Turn) (i : Instr) (s u : State) (n : Nat) (src : List (Loc × Nat)) (tos : List (List (Loc × Nat) × Option Nat)) : Prop :=
  if s.copyRoom q.g.core = true ∧ (n ≤ 65536 ∨ (q.g.core / 48, Holder.copy q.gid q.pc) ∈ s.eng.grants)
  then q.Accepted i s u n src tos else q.Held i s u n

/-- The path holds its team's baton, the engine takes that team's work, and no instruction of the group waits for acceptance
(02 R38; 04 R68). -/
structure State.Feeds (s : State) (q : Turn) (i : Instr) (t : Team) : Prop extends State.Issues s q i where
  acts : q.acts i
  kind : q.g.kind = .team
  team : s.teams.get? q.g.team = some t
  baton : t.holder = some q.gid
  fed : t.fed = true ∨ ((s.teams.filter (fun e => e.2.core == t.core && e.2.fed && !e.2.saved && s.current (s.teamGrid e.2))).length < 2)
  first : ∀ w ∈ q.g.waits, ∀ j, w.why ≠ .mxAccept j

/-- The instruction at the head of a team's queue at the engine is one that takes time: an issue, a drain, or one whose output has still to be acknowledged (04 R69). -/
def State.engineWorks (s : State) (team : Nat) : Prop :=
  ∃ o l, s.mxQueue team = o :: l ∧ ((∃ fa fb facc tile k wipe n sa sb ea eb done, o.kind = .issue fa fb facc tile k wipe n sa sb ea eb done) ∨
    (∃ facc tile prog data out, o.kind = .drain facc tile prog data out) ∨ ∃ parts, o.kind = .sent parts)

/-- The engine has taken an instruction behind the work of its team: no byte of memory changes. -/
def Turn.Queued (q : Turn) (s u : State) (t : Team) (kind : MxKind) : Prop :=
  (∃ o, u.eng.ops = s.eng.ops ++ [o] ∧ o.kind = kind ∧ o.team = q.g.team ∧ o.gid = q.gid ∧ o.seq = t.mxSeq ∧ o.tainted = false) ∧
  (∃ t', u.teams.get? q.g.team = some t' ∧ t'.mxSeq = t.mxSeq + 1 ∧ t'.fed = true ∧ t'.holder = t.holder ∧ t'.chain = t.chain) ∧
  s.sameBytes u ∧ u.grids = s.grids

/-- What a valid leaf at a level, of pages of `size` bytes, gives an access (05 R92, R94 to R96): malformed, refused, foreign, remote, or the
page's bytes. That the refusals of W and X, and a malformed entry, come before R95's faults is the model's (log 33). -/
def State.leafGives (s : State) (a : Acc) (k : AKind) (va e level size : Nat) : Except FaultInfo Loc :=
  let frame := e / 2 ^ 12 % 2 ^ 40 * 2 ^ 12
  let part := e / 2 ^ 52 % 2 ^ 12
  let cohF := e / 2 ^ 5 % 4
  let home := e / 2 ^ 7 % 4
  let remote : Prop := cohF ≠ 2 ∧ part ≠ 0xFFF
  let mapped : Prop := frame + size ≤ 0x8000000000 ∨ 0x010000000000 ≤ frame ∧ frame + size ≤ 0x028000000000 ∨
    0x030000000000 ≤ frame ∧ frame + size ≤ 0x030018000000
  let bad (reason : Nat) : Except FaultInfo Loc := .error { code := 0x07, addr := va, detail := reason + 256 * level }
  let dest := (s.self + part + 1) % 4096
  if cohF = 3 then bad 2
  else if home = 3 ∧ cohF ≠ 2 ∨ frame % size ≠ 0 ∨ remote ∧ ¬ mapped ∨ ¬ remote ∧ s.mayMap a.part frame size = false then bad 3
  else if k = .store ∧ e / 2 % 2 = 0 then .error { code := 0x08, addr := va, detail := 256 * level }
  else if k = .fetch ∧ e / 4 % 2 = 0 then .error { code := 0x09, addr := va, detail := 256 * level }
  else if cohF = 2 ∧ part ≠ a.core then .error { code := 0x05, addr := va, detail := a.core }
  else if ¬ remote then .ok (.here (physKey (frame + va % size)))
  else if cohF ≠ 1 ∨ 1 < home then .error { code := 0x11, addr := va, detail := part }
  else if s.fab.unreachable.contains dest = true ∧ k ≠ .store then .error { code := 0x07, addr := va, detail := 6 }
  else .ok (.away dest (frame + va % size))

/-- The page-table entry that indexes an address at a level, in a table (05 R91). -/
def State.entryAt (s : State) (table va level : Nat) : Nat := Bytes.num s.byte (4 * (table + 8 * (va / 2 ^ (48 - 9 * level) % 512))) 8
/-- The frame of an entry as an address (05 R92). -/
def pteFrame (e : Nat) : Nat := e / 2 ^ 12 % 2 ^ 40 * 2 ^ 12
/-- A valid entry that names the next table (05 R91, R92), the table lying where tables may. -/
def State.goesDown (s : State) (p e : Nat) : Prop := e % 2 = 1 ∧ e / 8 % 2 = 0 ∧ s.tableOk p (pteFrame e) = true

/-! ## Commands of queues and system requests (13 R236, R242, R243) -/

/-- Queue `n` is served by its slot's Turret, is not FAULTED, no more commands than its ring holds are to come, and the next has this opcode:
`w` is the 32 bytes of the entry, no reserved bit is set, and with BARRIER every earlier command has completed (13 R233, R242, R243). -/
structure State.Commands (s : State) (n op : Nat) (x : Queue) (w : Nat) : Prop where
  queue : s.ctrl.queues.get? n = some x
  mapped : x.mapped = true
  served : s.served n x = true
  state : x.state ≤ 1
  more : x.head < x.seen
  room : x.seen ≤ x.head + x.size
  entry : s.readVa x.acc ((x.base + 32 * (x.head % x.size)) % 2 ^ 64) 32 32 = .ok w
  op : w % 2 ^ 8 = op
  clear : w / 2 ^ 9 % 2 ^ 23 = 0 ∧ w / 2 ^ 192 = 0
  barrier : w / 2 ^ 8 % 2 = 1 → ∀ c ∈ x.run, s.cmdDone c = true

/-- The Turret has read the next command's entry: its requests stand at the memory system (12 R387, 06 R116). -/
def State.sawEntry (s : State) (x : Queue) : State := s.sawAll x.acc [((x.base + 32 * (x.head % x.size)) % 2 ^ 64, 32)]

/-- A command is accepted, `v` being the state with its effect and `made` the grids it launched: the head count passes it, the queue
runs, its head block is written, and the Turret looks at the command that follows (13 R242, R243). -/
def State.Accepts (s : State) (i : Instr) (n : Nat) (x : Queue) (v : State) (made : List Nat) : Prop :=
  exec i s = .next ((v.putQueue n { x with
    head := x.head + 1
    state := 0
    waitSince := none
    run := x.run.filter (fun c => !s.cmdDone c) ++ (if made = [] then [] else [{ n := x.head, grids := made }]) }).examine n)

/-- The grid that a command's record `r`, at address `a`, launches: accepted, without holds or co-residence, it runs, with its tickets dealt
to the dies of the partition `p` (08 R145, R149). `sh` are the shading groups of a CLASSIFY. -/
structure State.Launched (v s : State) (x : Queue) (n p id : Nat) (r : LaunchRec) (h : Hdr) (cs : Sched) (sh : List Shade) : Prop where
  grid : ∃ g, v.grids.get? id = some g ∧ g.state = .runs ∧ g.r = r ∧ g.h = h ∧ g.cs = cs ∧ g.shades = sh ∧ g.asid = x.asid ∧ g.part = p ∧
    g.ctx = x.ctx ∧ g.child = false ∧ g.status = 0 ∧ g.retired = 0 ∧ g.cmd = some (n, x.head) ∧
    g.tickets = s.dealDies p (0, (r.x * r.y * r.z + r.cset - 1) / r.cset)
  others : ∀ j, j ≠ id → v.grids.get? j = s.grids.get? j
  groups : v.groups = s.groups
  queues : v.ctrl.queues = s.ctrl.queues
  seq : v.disp.seq = s.disp.seq + 1

end Sys2Proof.Machine
end

