-- ==== Sys2Proof/Certificates/Slice0/Obligations.lean ====
section
/-! DEFINITION. The statements for the provers, from the numbered rules of the spec. Each docstring names the rules. -/
open Sys2Proof Sys2Proof.Machine

/-! ## Encoding, decoding and the step (15 R265 to R281; 02 R25, R26) -/

/-- The bytes of a well-formed instruction decode to it (15 R266 to R278). -/
def Obligations.RoundTrip : Prop := ∀ i : Instr, Laws.RoundTrip.Statement i

/-- What the decoder accepts is well formed, and the bytes it read are its encoding: every other pattern is refused (15 R281). -/
def Obligations.OnlyEncodingsDecode : Prop :=
  ∀ (bs rest : List Byte) (i : Instr), decode bs = .ok (i, rest) →
    i.wf = true ∧ ∃ w, encode i = some w ∧ bs = leBytes i.size w ++ rest

/-- Words that the spec writes out: ADD v5, v6, v7; ?p2 TRAP 9; TWAIT p1, s9; BCOPY s9; SPTEST.SCR p2, w4; REPACK v20, s12; BRX v12; NOP;
and a word of the unassigned major opcode 0x17 is none (15 R270; 12 R222; 22 R318, R324; 05 R89; 25 R368, R384). -/
def Obligations.SpecWordsDecode : Prop :=
  decodeTableWord 32 0x0E182803 = some (.add 5 6 7 0) ∧ decodeTableWord 32 0x3E00497D = some (.trap 9 2) ∧
  decodeTableWord 32 0x0624087F = some (.twait 1 9 0) ∧ decodeTableWord 32 0x5024007D = some (.bcopy 9 0) ∧
  decodeTableWord 32 0x2210107B = some (.sptest 2 4 1 0) ∧ decodeTableWord 32 0x1430A07F = some (.repack 20 12) ∧
  decodeTableWord 32 0x3430007D = some (.brx 12 0) ∧ decodeTableWord 16 0 = some .nop ∧ decodeTableWord 32 0x2F = none

/-- A path that waits to issue: the halfwords at its PC decode to an instruction, and the step is that instruction's (15 R265). -/
def Obligations.StepIssuesTheDecodedInstruction : Prop :=
  ∀ (s : State) (p : Issue) (g : Group) (i : Instr) (w : Nat), s.pendB = some p →
    let s0 := { s.settled with pendB := none }
    s0.groups.get? p.gid = some g →
    s0.mayIssue g = true → s0.issueLanes p g ≠ 0 → i.wf = true → encode i = some w →
    s0.codeHalf g p.pc = .ok (w % 65536) →
    (i.size = 4 → p.pc % 2 ^ 32 ≠ 0xFFFFFFFE ∧ s0.codeHalf g (p.pc + 2) = .ok (w / 65536)) →
    step s = exec i { (s0.fetchedAt g p.pc i.size) with cur := some { gid := p.gid, pc := p.pc, lanes := s0.issueLanes p g, wait := 0 } }

/-- What issues: path A of a group has the most lanes, ties going to the lower PC, and path B is an aged one or the next; a quarter's
group is one that has gone 48 cycles without issuing, or else has the highest priority and then the longest wait (02 R25, R26). A path
whose bytes are no instruction, or whose fetch faults, ends its group (15 R265, R281 step 1 and 2). An input that is due comes before
anything that the part does by itself, unless bytes that it writes are pinned or, of a round, its data is held: then it waits (04 R75;
that order is the model's: log 7). -/
def Obligations.StepChoosesAndFetches : Prop :=
  (∀ (s s' : State) (gid : Nat) (g : Group) (paths : List (Nat × Mask)) (a : Issue), (∀ p ∈ paths, p.1 < 2 ^ 32) →
     s.choosePaths gid g paths = (s', some a) →
     a.gid = gid ∧ (a.pc, a.lanes) ∈ paths ∧
     (∀ p ∈ paths, laneCount p.2 < laneCount a.lanes ∨ laneCount p.2 = laneCount a.lanes ∧ a.pc ≤ p.1) ∧
     (∀ b, s'.pendB = some b → b.gid = gid ∧ (b.pc, b.lanes) ∈ paths ∧ b.pc ≠ a.pc ∧
       ((∀ p ∈ paths, p.1 ≠ a.pc → g.passedOver p.1 < 2) →
         ∀ p ∈ paths, p.1 ≠ a.pc → laneCount p.2 < laneCount b.lanes ∨ laneCount p.2 = laneCount b.lanes ∧ b.pc ≤ p.1) ∧
       ((∃ p ∈ paths, p.1 ≠ a.pc ∧ 2 ≤ g.passedOver p.1) → 2 ≤ g.passedOver b.pc ∧
         ∀ p ∈ paths, p.1 ≠ a.pc → 2 ≤ g.passedOver p.1 →
           g.lastIssued b.lanes < g.lastIssued p.2 ∨ g.lastIssued b.lanes = g.lastIssued p.2 ∧ b.pc ≤ p.1)) ∧
     (s'.pendB = none → ∀ p ∈ paths, p.1 = a.pc)) ∧
  (∀ (now : Nat) (l : List Cand) (c : Cand), (∀ d ∈ l, d.prio < 2 ^ 16 ∧ d.g.yielded = none ∧ d.g.lastIssue < 2 ^ 64) →
     chooseGroup now l = some c → c ∈ l ∧
     ((∃ d ∈ l, 48 ≤ now - d.g.lastIssue) → 48 ≤ now - c.g.lastIssue ∧
       ∀ d ∈ l, 48 ≤ now - d.g.lastIssue → c.g.lastIssue ≤ d.g.lastIssue) ∧
     ((∀ d ∈ l, now - d.g.lastIssue < 48) → ∀ d ∈ l, d.prio < c.prio ∨ d.prio = c.prio ∧ c.g.lastIssue ≤ d.g.lastIssue)) ∧
  (∀ (s : State) (p : Issue) (g : Group), s.pendB = some p →
     let s0 := { s.settled with pendB := none }
     s0.groups.get? p.gid = some g → s0.mayIssue g = true → s0.issueLanes p g ≠ 0 →
     (∀ f, s0.codeHalf g p.pc = .error f →
       step s = .next ((s0.fetchedHalf g p.pc).takeFault p.gid (lowest fun l => (s0.issueLanes p g).getLsbD l) p.pc f)) ∧
     (∀ h h2, s0.codeHalf g p.pc = .ok h → h < 65536 → h % 2 = 1 → p.pc % 2 ^ 32 ≠ 0xFFFFFFFE → s0.codeHalf g (p.pc + 2) = .ok h2 →
       h2 < 65536 → (∀ i w, i.wf = true → encode i = some w → i.size = 4 → w ≠ h + 65536 * h2) →
       ∃ lane, step s = .next ((s0.fetchedHalf g p.pc).takeFault p.gid lane p.pc
         { code := 0x01, addr := 0, detail := h + 65536 * h2 }))) ∧
  (∀ (s : State) (i : Instr) (t : List (Nat × Instr)), s.settled.pendB = none → s.settled.env.agenda = (0, i) :: t →
     let s0 := { s.settled with cur := none }
     (s0.inputHeld i = false → step s = exec i { s0 with env := { s0.env with agenda := t } }) ∧
     (s0.inputHeld i = true → step s = s0.act) ∧
     (s0.inputHeld i = true → (∃ p o a z d c m, i = .fabricIngressRequest p o a z d c m) ∨ ∃ e x y, i = .roundDelivery e x y))

/-- Every step that goes on keeps memory in its one canonical form: addresses strictly rising, and no entry equal to what an unlisted
address reads as (the form is the model's: log 1; 06 R388 gives none). -/
def Obligations.StepKeepsMemoryCanonical : Prop :=
  ∀ s t : State, s.mem.wf = true → step s = .next t → t.mem.wf = true

/-- After module reset: memory is in canonical form and lists nothing; no group, team or grid is there; the part runs in whole mode from
firmware slot 0; and the control registers hold, and read as, the reset values of their tables (06 R105, R111, R114, R122; 08 R149; 10
R202; 12 R223, R232; 13 R249; the whole mode and the slot are the model's: log 2). -/
def Obligations.ResetState : Prop :=
  let s := State.reset
  s.mem.wf = true ∧ s.mem.cells = [] ∧ s.groups = [] ∧ s.teams = [] ∧ s.grids = [] ∧ s.log = [] ∧
  s.disp.whole = true ∧ s.fw.running = 0 ∧
  ∀ u, s.ctlGet .memClassDeadline u = 0xFFF0FFF001000040 ∧ s.ctlGet .memBlockFamily u = 1 ∧
    s.ctlGet .memRemapThresh u = 0x00100000 ∧ s.ctlGet .memRemapWindow u = 1000000 ∧ s.ctlGet .memHotEpoch u = 10000 ∧
    s.ctlGet .dispChildMax u = 16 ∧ s.ctlGet .stepBudget u = 4096 ∧ s.ctlGet .dbgCtl u = 0 ∧ s.ctlGet .faultRecords u = 0 ∧
    s.ctlGet .preemptTaken u = 0 ∧ s.ctlGet .lateWriteDropped u = 0 ∧ s.ctlGet .fabDomain u = 0 ∧ s.ctlGet .pwrGrants u = 48 ∧ s.ctlShown .pwrDieMw u = 0

/-! ## The checks of an issue, and taking a fault (15 R280, R281; 02 R32; 12 R216 to R221, R231) -/

/-- The checks before an instruction's effect: a field that breaks a rule of its form ends the group with ILLEGAL_INSTRUCTION (code 1),
whatever the guard (15 R281 step 2); a register at or above the limit, an odd pair, a quad that is no multiple of 4 or a tile that the
team does not have with ILLEGAL_REGISTER (code 2), which names the first field that fails (02 R32); a guard that is a poisoned predicate,
or a poisoned register that it reads in a lane that takes part, with ECC_UNCORRECTABLE (code 0x12; 12 R217, R231), MXISSUE, MXWR and
MXDRAIN looking for the baton first (04 R68); and an encoded instruction in which no lane of its path takes part does nothing but go on
(15 R280, R281 step 4). -/
def Obligations.ChecksBeforeTheEffect : Prop :=
  (∀ (s : State) (q : Turn) (i : Instr) (w : Nat), s.Path q → i.wf = false → encode i = some w →
     exec i s = .next (q.ends s (q.pathLane i) { code := 0x01, addr := 0, detail := w })) ∧
  ((∀ (s : State) (q : Turn) (i : Instr) (u : RegUse), s.Path q → i.wf = true →
     regsFail q.g.budget (s.tilesFor q) (regsOf i) = some u →
     exec i s = .next (q.ends s (q.pathLane i) { code := 0x02, addr := 0, detail := u.detail })) ∧
   ∀ (b n : Nat) (d a x o : BitVec 7) (t g : BitVec 4),
     (regsFail b (some n) (regsOf (.add d a x g))).map RegUse.detail =
       (if b ≤ d.toNat then some d.toNat else if b ≤ a.toNat then some a.toNat else if b ≤ x.toNat then some x.toNat else none) ∧
     (regsFail b (some n) (regsOf (.ld64 d a o g))).map RegUse.detail =
       (if d.toNat % 2 = 1 ∨ b ≤ d.toNat + 1 then some d.toNat
         else if a.toNat % 2 = 1 ∨ b ≤ a.toNat + 1 then some a.toNat else none) ∧
     (regsFail b (some n) (regsOf (.ld128 d a o g))).map RegUse.detail =
       (if d.toNat % 4 ≠ 0 ∨ b ≤ d.toNat + 3 then some d.toNat
         else if a.toNat % 2 = 1 ∨ b ≤ a.toNat + 1 then some a.toNat else none) ∧
     (regsFail b (some n) (regsOf (.mxzero t g))).map RegUse.detail = (if n ≤ t.toNat then some (0x300 + t.toNat) else none) ∧
     regsFail b none (regsOf (.mxzero t g)) = none) ∧
  (∀ (s : State) (q : Turn) (i : Instr), s.Path q → i.wf = true → (encode i).isSome → regsFail q.g.budget (s.tilesFor q) (regsOf i) = none →
     (poisonP ((guardOf i).toNat % 8) ∈ q.g.poison ∨ q.acts i ∧ wantsBaton i = false ∧ ∃ r ∈ readCodes i, r ∈ q.g.poison) →
     exec i s = .next (q.ends s (q.pathLane i) { code := 0x12, addr := 0, detail := 4 })) ∧
  (∀ (s : State) (q : Turn) (i : Instr), (encode i).isSome → s.Issues q i → ¬ q.acts i → exec i s = .next (q.onward i s))

/-- TAKING A FAULT in a group of a team: it stops at once, with no live lane, no pending result, no wait and no monitor, its open batch
sealed. While work that it started goes on, its atomics at other parts among it, it is only marked as ended, with its record; otherwise it
leaves its slot, its record is logged and counted, its team counts it, and its baton is free. Every other group stays as it is (12 R216,
R218, R219, R221). -/
def Obligations.FaultEndsTheGroup : Prop :=
  ∀ (s : State) (gid : Nat) (g : Group) (gr : Grid) (t : Team) (lane pc : Nat) (f : FaultInfo), s.groups.get? gid = some g →
    g.kind = .team → s.grids.get? g.grid = some gr → s.teams.get? g.team = some t →
    let r : FRec := { code := f.code, kind := 0, lane := lane, group := g.index, team := t.index, launch := g.grid, addr := f.addr,
                      pc := pc, detail := f.detail }
    let s' := s.takeFault gid lane pc f
    let busy : Prop := s.busyUnit gid true = true ∨ g.unacked ≠ [] ∨ ∃ p ∈ g.pend, p.atHome = true
    (∀ j, j ≠ gid → s'.groups.get? j = s.groups.get? j) ∧
    (∃ t', s'.teams.get? g.team = some t' ∧ t'.holder ≠ some gid ∧ gid ∉ t'.batonQ ∧
      (¬ busy → (g.index, 4) ∈ t'.gone)) ∧
    (busy → s'.log = s.log ∧
      ∃ h, s'.groups.get? gid = some h ∧ h.live = 0 ∧ h.pend = g.pend.filter Pend.atHome ∧ h.waits = [] ∧ h.monitor = none ∧ h.sealSeq = g.sealSeq + 1 ∧
        h.place = .ending (some r)) ∧
    (¬ busy → s'.groups.get? gid = none ∧
      s'.log = (if s.log.length < 64 then s.log ++ [r] else s.log) ∧
      s'.ctlGet .faultRecords gr.part = s.ctlGet .faultRecords gr.part + 1)

/-- The integer vector forms write their results in the lanes that take part, and nothing else (22 R307, R308; 24 R351, R352, R355, R356;
25 R375; 23 R329). -/
def Obligations.IntegerVectorResults : Prop :=
  ∀ (s : State) (q : Turn) (i : Instr) (w : VWrite), intWrite i = some w → s.Issues q i → q.Completes i s (q.VWritten i w)

/-- SEL, SHFL, MATES, PPACK and SPCAST: results that depend on other lanes, on predicates and on address windows (05 R90; 24 R353, R360;
25 R376, R377). RDLANE: every lane that takes part will hold the register of the lowest of them; the result is pending (25 R363; 02 R29).
-/
def Obligations.CrossLaneResults : Prop :=
  (∀ (s : State) (q : Turn) (i : Instr) (w : VWrite), laneWrite i = some w → s.Issues q i → q.g.core < 256 →
     q.Completes i s (q.VWritten i w)) ∧
  (∀ (s : State) (q : Turn) (d a : BitVec 7) (g : BitVec 4), s.Issues q (.rdlane d a g) → q.acts (.rdlane d a g) →
     ∃ t h p, exec (.rdlane d a g) s = .next t ∧ t.groups.get? q.gid = some h ∧ q.Pending (.rdlane d a g) h [p] ∧
       p.seen = (q.pc, maskOf (q.takes (.rdlane d a g)), [d.toNat], (q.parts (.rdlane d a g)).map (fun l =>
         (d.toNat, l, q.g.vget a.toNat (lowest (q.takes (.rdlane d a g))))), none) ∧
       p.bad = [] ∧ p.src = .ready ∧ s.SameBut t q.gid ∧ t.mem = s.mem)

/-- The floating-point, packed and residue forms write what the number formats of chapter 3 give (03 R54, R56 to R62; 23 R332, R336, R337,
R339, R340, R343). RZADD adds the integers that its elements denote: exactly while the sum is in the range, and modulo the product of the
moduli outside it (03 R60, R61). -/
def Obligations.FloatVectorResults : Prop :=
  (∀ (s : State) (q : Turn) (i : Instr) (w : VWrite), floatWrite i = some w → s.Issues q i → q.Completes i s (q.VWritten i w)) ∧
  (∀ (s : State) (q : Turn) (d a : BitVec 7) (g : BitVec 4), s.Issues q (.rzadd d a g) →
     ∃ h, exec (.rzadd d a g) s = .next (s.setGroup q.gid h) ∧ ∀ l < 32, q.takes (.rzadd d a g) l = true →
       let sum := rzInt (q.g.wget d.toNat l) + rzInt (q.g.wget a.toNat l)
       let r := h.wget d.toNat l
       r.toNat / 2 ^ 49 = 0 ∧ (rzInt r - sum) % (65535 * 65536 * 65537) = 0 ∧
       (-(2 ^ 47 - 2 ^ 15) ≤ sum → sum ≤ 2 ^ 47 - 2 ^ 15 - 1 → rzInt r = sum))

/-- FMIN and FMAX treat −0 as less than +0; of a number and a NaN they return the number, of two NaNs the canonical NaN; of two numbers
the smaller or the larger (03 R48). -/
def Obligations.MinMaxOrderZerosAndDropNaNs : Prop :=
  ∀ (s : State) (q : Turn) (i : Instr) (d a b : BitVec 7) (isMax : Bool), minMaxForm i = some (d, a, b, isMax) → s.Issues q i →
    ∃ h, exec i s = .next (s.setGroup q.gid h) ∧ ∀ l < 32, q.takes i l = true →
      let x := q.g.vget a.toNat l
      let y := q.g.vget b.toNat l
      let r := h.vget d.toNat l
      (flNan x = true → flNan y = false → r = y) ∧ (flNan x = false → flNan y = true → r = x) ∧
      (flNan x = true → flNan y = true → r = 0x7FC00000) ∧
      (flNan x = false → flNan y = false → (r = x ∨ r = y) ∧
        (isMax = false → flt r ≤ flt x ∧ flt r ≤ flt y ∧ (flt x = 0 → flt y = 0 → (x = 0x80000000 ∨ y = 0x80000000) → r = 0x80000000)) ∧
        (isMax = true → flt x ≤ flt r ∧ flt y ≤ flt r ∧ (flt x = 0 → flt y = 0 → (x = 0 ∨ y = 0) → r = 0)))

/-- The integer that an RZ element denotes is the one number of the range with the element's residues, and the element of an integer holds
its remainders (03 R59). -/
def Obligations.ResidueElementsDenoteIntegers : Prop :=
  (∀ x : W64, -(2 ^ 47 - 2 ^ 15) ≤ rzInt x ∧ rzInt x ≤ 2 ^ 47 - 2 ^ 15 - 1 ∧
    rzInt x % 65535 = (x.toNat % 2 ^ 16 % 65535 : Nat) ∧ rzInt x % 65536 = (x.toNat / 2 ^ 16 % 2 ^ 16 : Nat) ∧
    rzInt x % 65537 = (x.toNat / 2 ^ 32 % 2 ^ 17 % 65537 : Nat) ∧
    ∀ z : Int, -(2 ^ 47 - 2 ^ 15) ≤ z → z ≤ 2 ^ 47 - 2 ^ 15 - 1 → z % 65535 = (x.toNat % 2 ^ 16 % 65535 : Nat) →
      z % 65536 = (x.toNat / 2 ^ 16 % 2 ^ 16 : Nat) → z % 65537 = (x.toNat / 2 ^ 32 % 2 ^ 17 % 65537 : Nat) → z = rzInt x) ∧
  (∀ y : Int, ((rzOf y).toNat : Int) = y % 65535 + y % 65536 * 2 ^ 16 + y % 65537 * 2 ^ 32) ∧
  rzOf (-3) = 0x0000FFFEFFFDFFFC

/-- s0 and p0 are constants: they read 0 and 1, and what is written to them is discarded (02 R31). The scalar forms write one register, s0
apart, once for their path (15 R273, R280; 22 R313; 25 R367, R372, R373, R378); a write to s62 outside the stack's range is refused, and
the group ends with STACK_LIMIT (code 0x0B) and the refused value (02 R34). -/
def Obligations.ScalarResults : Prop :=
  (∀ (g : Group) (x : W64) (m y : Mask), g.sget 0 = 0 ∧ (g.sset 0 x).sget 0 = 0 ∧ g.sset 0 x = g ∧
     (∀ l < 32, g.pget 0 l = true ∧ (g.pset 0 m y).pget 0 l = true) ∧ g.pset 0 m y = g) ∧
  (∀ (s : State) (q : Turn) (i : Instr) (d : BitVec 6) (x : Int), scalWrite q i = some (d, x) → s.Issues q i → q.acts i →
     (d = 62 → q.g.inStack (BitVec.ofInt 64 x).toNat) → q.Completes i s (q.SWritten d.toNat x)) ∧
  (∀ (s : State) (q : Turn) (i : Instr) (x : Int), scalWrite q i = some (62, x) → s.Issues q i → q.acts i →
     ¬ q.g.inStack (BitVec.ofInt 64 x).toNat →
     exec i s = .next (q.ends s (q.pathLane i) { code := 0x0B, addr := (BitVec.ofInt 64 x).toNat, detail := 0 }))

/-- The predicate forms write predicates of the lanes that take part, p0 apart; SPSET writes every lane (05 R90; 15 R271 to R273; 23 R330,
R341; 24 R359, R360; 25 R385). -/
def Obligations.PredicateResults : Prop :=
  (∀ (s : State) (q : Turn) (i : Instr) (w : PWrite), predWrite i = some w → s.Issues q i → q.Completes i s (q.PWritten i w)) ∧
  ∀ (s : State) (q : Turn) (p : BitVec 3) (a : BitVec 6), s.Issues q (.spset p a) →
    q.Completes (.spset p a) s (fun h => q.g.sameV h ∧ q.g.sameS h ∧
      ∀ l < 32, ∀ n, h.pget n l = if n = p.toNat ∧ n ≠ 0 then decide (q.g.sget a.toNat ≠ 0) else q.g.pget n l)

/-- Of finite operands, the sums, products, quotients, roots, conversions and integral values that these forms write are the exact real
numbers, rounded in the mode of the form: to the nearest value, a tie going to the even one, towards zero, upwards or downwards; an
infinity stands for a number beyond every finite value (03 R53, R54, R56, R57; 23 R337). -/
def Obligations.ExactResultsAreRounded : Prop :=
  ∀ (s : State) (q : Turn) (i : Instr) (w : VWrite), floatWrite i = some w → s.Issues q i →
    ∃ h, exec i s = .next (s.setGroup q.gid h) ∧ ∀ l < 32, q.takes i l = true → ∀ r ∈ q.exacts i l,
      r.format.Rounds r.mode r.exact ((h.vget r.reg l).toNat / 2 ^ r.low % 2 ^ r.width)

/-! ## Memory (00 R2; 05 R86, R91 to R96; 07 R129 to R136; 14 R252, R253; 22 R309 to R312; 24 R346 to R349; 25 R365, R366, R379, R380) -/

/-- The checks of an address, in their order: a private address in the private size, a scratchpad address in the issuing team's allocation
on its own core, a cluster address in that of the one team of the caller's set on the named core, a global address canonical; then
alignment (05 R85 to R88). A walk of the page table, for a canonical address of either half that no hold and no TLB entry covers: a table
outside the part's memory stops it with NOT_PRESENT (code 7), reason 4, an entry that is not valid with reason 1, a leaf at level 0 or 1
with reason 2, each with its level; otherwise the leaf of a page of 1 GiB, 2 MiB or 4 KiB decides: malformed, with reason 2 or 3, refused
for a store (WRITE_PROTECT, code 8) or a fetch (EXEC_PROTECT, code 9), foreign, of another part, or the page's bytes, in a run as alone
(05 R91 to R96; the level of reason 4 below the root, and the order of a leaf's faults, are the model's: log 33). -/
def Obligations.AddressesAndPages : Prop :=
  (∀ (s : State) (g : Group) (lane a n : Nat) (k : AKind), a < 2 ^ 64 → 0 < n →
     (a / 2 ^ 56 = 0xFC → s.checkAddr g lane a n n k =
       if a / 2 ^ 24 % 2 ^ 32 ≠ 0 ∨ g.priv < a % 2 ^ 24 + n then .error { code := 0x06, addr := a, detail := 0 }
       else if a % n ≠ 0 then .error { code := 0x03, addr := a, detail := n }
       else .ok (.here (prvKey g.win g.stride lane (a % 2 ^ 24)))) ∧
     (a / 2 ^ 56 = 0xFE → s.checkAddr g lane a n n k =
       if a / 2 ^ 32 % 2 ^ 24 ≠ 0 then .error { code := 0x06, addr := a, detail := 0 }
       else if a / 2 ^ 24 % 2 ^ 8 ≠ g.core then .error { code := 0x05, addr := a, detail := g.core }
       else if (s.teamOf g).scr < a % 2 ^ 24 + n then .error { code := 0x06, addr := a, detail := 0 }
       else if a % n ≠ 0 then .error { code := 0x03, addr := a, detail := n }
       else .ok (.here (scrKey (s.teamOf g).scrId (a % 2 ^ 24)))) ∧
     (a / 2 ^ 56 < 0xFC ∨ a / 2 ^ 56 = 0xFF → s.checkAddr g lane a n n k =
       if a / 2 ^ 56 ≠ 0 ∧ a / 2 ^ 56 ≠ 0xFF then .error { code := 0x04, addr := a, detail := 0 }
       else if a % n ≠ 0 then .error { code := 0x03, addr := a, detail := n }
       else s.translate (s.accOf g) k a) ∧
     (a / 2 ^ 56 = 0xFD →
       let foreign : Except FaultInfo Loc := .error { code := 0x05, addr := a, detail := g.core }
       let c := (s.gridOf g).r.cset
       let mate (x : Team) : Prop := x.grid = g.grid ∧ x.index / ((s.grids.get? g.grid).getD noGrid).r.cset = (s.teamOf g).index / c ∧
         x.core = g.core / 4 * 4 + a / 2 ^ 24 % 4 ∧ x.saved = false
       (a / 2 ^ 26 % 2 ^ 30 ≠ 0 → s.checkAddr g lane a n n k = .error { code := 0x06, addr := a, detail := 0 }) ∧
       (a / 2 ^ 26 % 2 ^ 30 = 0 → g.kind ≠ .team ∨ (∀ e ∈ s.teams, ¬ mate e.2) → s.checkAddr g lane a n n k = foreign) ∧
       (a / 2 ^ 26 % 2 ^ 30 = 0 → g.kind = .team → ∀ u x, s.teams.get? u = some x → mate x → (∀ e ∈ s.teams, mate e.2 → e.1 = u) →
         s.checkAddr g lane a n n k =
           if x.scr < a % 2 ^ 24 + n then .error { code := 0x06, addr := a, detail := 0 }
           else if a % n ≠ 0 then .error { code := 0x03, addr := a, detail := n }
           else .ok (.here (scrKey x.scrId (a % 2 ^ 24)))))) ∧
  (∀ (s : State) (a : Acc) (k : AKind) (va : Nat), va < 2 ^ 64 → s.heldLeaf a va = none → s.tlbFind a va = none → a.strict = false →
     let e0 := s.entryAt a.root va 0
     let e1 := s.entryAt (pteFrame e0) va 1
     let e2 := s.entryAt (pteFrame e1) va 2
     let e3 := s.entryAt (pteFrame e2) va 3
     let e4 := s.entryAt (pteFrame e3) va 4
     let stops (reason level : Nat) : Prop := s.translate a k va = .error { code := 0x07, addr := va, detail := reason + 256 * level }
     let here (table level : Nat) : Prop := s.tableOk a.part table = false → stops 4 level
     let leaf (e level size : Nat) : Prop := e % 2 = 1 → s.translate a k va = s.leafGives a k va e level size
     here a.root 0 ∧
     (s.tableOk a.part a.root = true → (e0 % 2 = 0 → stops 1 0) ∧ (e0 % 2 = 1 → e0 / 8 % 2 = 1 → stops 2 0) ∧
       (e0 % 2 = 1 → e0 / 8 % 2 = 0 → here (pteFrame e0) 1)) ∧
     (s.tableOk a.part a.root = true → s.goesDown a.part e0 →
       (e1 % 2 = 0 → stops 1 1) ∧ (e1 % 2 = 1 → e1 / 8 % 2 = 1 → stops 2 1) ∧ (e1 % 2 = 1 → e1 / 8 % 2 = 0 → here (pteFrame e1) 2) ∧
       (s.goesDown a.part e1 → (e2 % 2 = 0 → stops 1 2) ∧ (e2 / 8 % 2 = 1 → leaf e2 2 (2 ^ 30)) ∧
         (e2 % 2 = 1 → e2 / 8 % 2 = 0 → here (pteFrame e2) 3) ∧
         (s.goesDown a.part e2 → (e3 % 2 = 0 → stops 1 3) ∧ (e3 / 8 % 2 = 1 → leaf e3 3 (2 ^ 21)) ∧
           (e3 % 2 = 1 → e3 / 8 % 2 = 0 → here (pteFrame e3) 4) ∧
           (s.goesDown a.part e3 → (e4 % 2 = 0 → stops 1 4) ∧ leaf e4 4 4096)))))

/-- Loads: each lane that takes part has its value pending, extended to the registers it fills, and the path goes on; no byte of memory
changes (24 R346, R347; 02 R29). LDRO: the same, but at a global address a lane may be given bytes that its core's read-only cache holds,
then all from the one unit of 16 bytes that holds them (07 R125, R134; 24 R349). -/
def Obligations.LoadsArePending : Prop :=
  (∀ (s : State) (q : Turn) (i : Instr) (d a o : BitVec 7) (n : Nat) (sg : Bool) (found : Nat → Found),
     loadForm i = some (d, a, o, n, sg) → s.Issues q i →
     (∀ l < 32, q.takes i l = true → s.checkLoad q.g l (q.at a o n l) n = .ok (found l)) →
     ∃ t h items, exec i s = .next t ∧ t.groups.get? q.gid = some h ∧ q.Pending i h items ∧
       items.map Pend.seen = (q.parts i).map (fun l => (q.pc, laneBit l, fills d n, loaded d n sg l (s.numAt n (found l)), none)) ∧
       ((∀ l < 32, q.takes i l = true → s.badLoad (q.at a o n l) n (found l) = none) → ∀ p ∈ items, p.bad = []) ∧
       s.SameBut t q.gid ∧ s.sameBytes t) ∧
  (∀ (s : State) (q : Turn) (d a o : BitVec 7) (g : BitVec 4) (n : Nat) (i : Instr) (key : Nat → Nat),
     (i = .ldro32 d a o g ∧ n = 4 ∨ i = .ldro128 d a o g ∧ n = 16) → s.Issues q i →
     (∀ l < 32, q.takes i l = true → s.checkLoad q.g l (q.at a o n l) n = .ok (.ok (.here (key l))) ∧
       (windowOf (q.at a o n l) = .glb → key l % 4 = 0)) →
     ∃ (t : State) (h : Group) (items : List Pend) (x : Nat → Nat), exec i s = .next t ∧ t.groups.get? q.gid = some h ∧
       q.Pending i h items ∧
       items.map Pend.seen = (q.parts i).map (fun l => (q.pc, laneBit l, fills d n, loaded d n false l (x l), none)) ∧
       (∀ l ∈ q.parts i, ∀ j < n, BitVec.ofNat 8 (x l / 256 ^ j) = s.byte (key l + 4 * j) ∨
         windowOf (q.at a o n l) = .glb ∧
           ∃ unit, s.mmu.ro.get? (q.g.core * 2 ^ 52 + key l / 4 / 16) = some unit ∧
             ∀ i < n, unit.getD (key l / 4 % 16 + i) 0 = BitVec.ofNat 8 (x l / 256 ^ i)) ∧
       s.SameBut t q.gid ∧ s.sameBytes t)

/-- LOAD_DATA_LANDS: a result whose data is at hand is written in its registers in lanes that are still live, is pending no longer, and
changes nothing else but that requests whose data comes after their deadline are counted for their requesters, and that a unit which has
ended leaves once nothing keeps it; one that brings faults ends its group instead by the first of them whose lane is live, and a scalar
register's by its first in any case (02 R29; 06 R108; 12 R221; 23 R334; 24 R348; 25 R373). The first lane, in rising order, whose address
fails a check ends the group of a load or store, and no lane accesses memory (05 R86; 12 R218). -/
def Obligations.PendingResultsLand : Prop :=
  (∀ (s : State) (gid data : Nat) (g : Group) (p : Pend), s.groups.get? gid = some g → g.pend.find? (fun x => x.id == p.id) = some p →
     p.src = .ready → s.hasLeft p.msg = true →
     let late (t : State) : State := (p.due.filter (fun x => decide (x.2 < s.podTime ∧ x.1 < 506))).foldl (fun t x => t.count .memMissed x.1 1) t
     let sound : Prop := g.live = 0 ∨ p.bad = [] ∨ p.regs ≠ [] ∧ ∀ b ∈ p.bad, g.live.getLsbD b.2 = false
     let gives (h : Group) : Prop := exec (.loadDataLands gid p.id data) s = .next ((late (s.setGroup gid h)).settleUnit gid) ∧
       (g.place = .resident → exec (.loadDataLands gid p.id data) s = .next (late (s.setGroup gid h)))
     (∀ f l, g.live ≠ 0 → (p.regs = [] ∧ p.bad.head? = some (f, l) ∨
         p.regs ≠ [] ∧ p.bad.find? (fun b => g.live.getLsbD b.2) = some (f, l)) →
       exec (.loadDataLands gid p.id data) s = .next ((late s).takeFault gid l p.pc f)) ∧
     (sound → p.sreg = none → (∀ w ∈ p.writes, w.2.1 < 32) → (p.writes.map (fun w => (w.1, w.2.1))).Nodup →
       ∃ h, gives h ∧ h.pend = g.pend.filter (fun x => x.id != p.id) ∧
         g.sameS h ∧ g.sameP h ∧ h.pcs = g.pcs ∧ h.live = g.live ∧ h.waits = g.waits ∧
         (∀ w ∈ p.writes, g.live.getLsbD w.2.1 = true → h.vget w.1 w.2.1 = w.2.2) ∧
         ∀ r, ∀ l < 32, (∀ x, (r, l, x) ∈ p.writes → g.live.getLsbD l = false) → h.vget r l = g.vget r l) ∧
     (sound → p.writes = [] → ∀ n, p.sreg = some n → (n = 62 → g.inStack p.swrite.toNat) →
       ∃ h, gives h ∧ h.pend = g.pend.filter (fun x => x.id != p.id) ∧
         g.sameV h ∧ g.sameP h ∧ h.pcs = g.pcs ∧ h.live = g.live ∧
         ∀ m, h.sget m = if m = n ∧ m ≠ 0 then p.swrite else g.sget m)) ∧
  (∀ (s : State) (q : Turn) (i : Instr) (d a o : BitVec 7) (n l : Nat) (f : FaultInfo), s.Issues q i → l < 32 → q.takes i l = true →
     (∀ sg, loadForm i = some (d, a, o, n, sg) → s.checkLoad q.g l (q.at a o n l) n = .error f →
       (∀ m < l, q.takes i m = true → ∃ x, s.checkLoad q.g m (q.at a o n m) n = .ok x) → exec i s = .next (q.ends s l f)) ∧
     (storeForm i = some (d, a, o, n) → s.checkAddr q.g l (q.at a o n l) n n .store = .error f →
       (∀ m < l, q.takes i m = true → ∃ x, s.checkAddr q.g m (q.at a o n m) n n .store = .ok x) → exec i s = .next (q.ends s l f)))

/-- Memory is little-endian: a read is the number of its bytes, the lowest address first, and a write stores it so (00 R2). Stores: each
lane that takes part, in rising order, stores its bytes at the address it computes, of lanes that name one location the highest alone, and
every other byte of memory stays (25 R379, R380). SLD and SST are accesses of the path's lowest live lane at sA plus 8 times the offset:
SLD's value is pending for the whole group, SST stores the 8 bytes of a register (25 R373; 15 R269). -/
def Obligations.StoresWriteTheirBytes : Prop :=
  (∀ (s : State) (k n x : Nat), s.readMem k n = Bytes.num s.byte k n ∧ (s.writeMem k n x).byte = Bytes.stored s.byte k n x ∧
     (s.writeMem k n x).readMem k n = x % 256 ^ n) ∧
  (∀ (s : State) (q : Turn) (i : Instr) (d a o : BitVec 7) (n : Nat) (key : Nat → Nat),
     storeForm i = some (d, a, o, n) → s.Issues q i →
     (∀ l < 32, q.takes i l = true → s.checkAddr q.g l (q.at a o n l) n n .store = .ok (.here (key l)) ∧
       s.pinned (key l) n = false ∧ s.goEntry (.here (key l)) n = none) →
     ∃ t, exec i s = .next t ∧ t.groups.get? q.gid = some ((q.g.unwait q.lanes).setPc q.lanes (q.pc + i.size)) ∧
       t.byte = Bytes.storedAll s.byte n ((q.writers i key).map (fun l => (key l, q.data d n l))) ∧ s.SameBut t q.gid ∧ t.fab = s.fab) ∧
  (∀ (s : State) (q : Turn) (d a : BitVec 6) (o : BitVec 9) (k : Nat),
     let va := ((q.su a + 8 * o.toInt) % 2 ^ 64).toNat
     let lane := lowest (fun l => q.lanes.getLsbD l)
     (s.Issues q (.sld d a o) → s.checkLoad q.g lane va 8 = .ok (.ok (.here k)) → s.mem.poisonAt k 8 = none →
       ∃ t h p, exec (.sld d a o) s = .next t ∧ t.groups.get? q.gid = some h ∧ q.Pending (.sld d a o) h [p] ∧
         p.lanes = BitVec.allOnes 32 ∧ p.sreg = (if d = 0 then none else some d.toNat) ∧
         p.swrite = BitVec.ofNat 64 (Bytes.num s.byte k 8) ∧ p.src = .ready ∧ p.bad = [] ∧ s.SameBut t q.gid ∧ s.sameBytes t) ∧
     (s.Issues q (.sst d a o) → s.checkAddr q.g lane va 8 8 .store = .ok (.here k) → s.pinned k 8 = false → s.goEntry (.here k) 8 = none →
       ∃ t, exec (.sst d a o) s = .next t ∧ t.groups.get? q.gid = some ((q.g.unwait q.lanes).setPc q.lanes (q.pc + 4)) ∧
         t.byte = Bytes.stored s.byte k 8 (q.g.sget d.toNat).toNat ∧ s.SameBut t q.gid ∧ t.fab = s.fab))

/-- ATOM: each lane in turn replaces the number at its address, and the number it found is pending; ATOMCAS replaces it by the high part
of the operand where it equals the low part (22 R309 to R312). RED: each lane combines its operand into the number at its address and
nothing comes back; RED.FADD.F32 with one lane adds it by the format's rules, and no reduction touches any other byte (25 R365, R366; 07
R133). -/
def Obligations.AtomicsAndReductions : Prop :=
  (∀ (s : State) (q : Turn) (i : Instr) (d a : BitVec 7) (w : BitVec 1) (n : Nat) (f : Nat → Nat → Nat → Nat) (key : Nat → Nat),
     atomTable i = some (d, a, w, f) → n = atomSize w → s.Issues q i →
     (∀ l < 32, q.takes i l = true → s.checkAtom q.g l (q.w a l).toNat n = .ok (.here (key l)) ∧ s.pinned (key l) n = false) →
     ∃ t h items, exec i s = .next t ∧ t.groups.get? q.gid = some h ∧ q.Pending i h items ∧
       t.byte = Bytes.changedAll s.byte n (fun l x => f n x (q.data d n l)) ((q.parts i).map (fun l => (l, key l))) ∧
       items.map Pend.seen = ((q.parts i).zip (Bytes.found s.byte n (fun l x => f n x (q.data d n l))
         ((q.parts i).map (fun l => (l, key l))))).map (fun p => (q.pc, laneBit p.1, fills d n, loaded d n false p.1 p.2, none)) ∧
       (∀ p ∈ items, p.bad = []) ∧ s.SameBut t q.gid ∧ t.fab = s.fab) ∧
  (∀ (s : State) (q : Turn) (d a : BitVec 7) (w : BitVec 1) (g : BitVec 4) (n : Nat) (key : Nat → Nat), n = atomSize w →
     s.Issues q (.atomcas d a w g) →
     (∀ l < 32, q.takes (.atomcas d a w g) l = true →
       s.checkAtom q.g l (q.w a l).toNat n = .ok (.here (key l)) ∧ s.pinned (key l) n = false) →
     ∃ t h items f, exec (.atomcas d a w g) s = .next t ∧ t.groups.get? q.gid = some h ∧ q.Pending (.atomcas d a w g) h items ∧
       (∀ l x, f l x = if x = q.data d (2 * n) l % 2 ^ (8 * n) then q.data d (2 * n) l / 2 ^ (8 * n) else x) ∧
       t.byte = Bytes.changedAll s.byte n f ((q.parts (.atomcas d a w g)).map (fun l => (l, key l))) ∧
       items.map Pend.seen = ((q.parts (.atomcas d a w g)).zip
         (Bytes.found s.byte n f ((q.parts (.atomcas d a w g)).map (fun l => (l, key l))))).map
           (fun p => (q.pc, laneBit p.1, fills d n, loaded d n false p.1 p.2, none)) ∧
       (∀ p ∈ items, p.bad = []) ∧ s.SameBut t q.gid ∧ t.fab = s.fab) ∧
  ((∀ (s : State) (q : Turn) (i : Instr) (d a : BitVec 7) (n : Nat) (f : Nat → Nat → Nat) (key : Nat → Nat),
     redTable i = some (d, a, n, f) → s.Issues q i →
     (∀ l < 32, q.takes i l = true → s.checkAddr q.g l (q.w a l).toNat n n .store = .ok (.here (key l)) ∧ s.pinned (key l) n = false) →
     ∃ t, exec i s = .next t ∧ t.groups.get? q.gid = some ((q.g.unwait q.lanes).setPc q.lanes (q.pc + i.size)) ∧
       t.byte = Bytes.changedAll s.byte n (fun l x => f x (q.data d n l)) ((q.parts i).map (fun l => (l, key l))) ∧
       s.SameBut t q.gid ∧ t.fab = s.fab) ∧
   (∀ (s : State) (q : Turn) (d a : BitVec 7) (g : BitVec 4) (key : Nat → Nat), s.Issues q (.redFaddF32 d a g) →
     (∀ l < 32, q.takes (.redFaddF32 d a g) l = true →
       s.checkAddr q.g l (q.w a l).toNat 4 4 .store = .ok (.here (key l)) ∧ s.pinned (key l) 4 = false) →
     ∃ t, exec (.redFaddF32 d a g) s = .next t ∧
       t.groups.get? q.gid = some ((q.g.unwait q.lanes).setPc q.lanes (q.pc + 4)) ∧ s.SameBut t q.gid ∧ t.fab = s.fab ∧
       (∀ j, (∀ l ∈ q.parts (.redFaddF32 d a g), ¬ within (key l) 4 j) → t.byte j = s.byte j) ∧
       (∀ l, q.parts (.redFaddF32 d a g) = [l] → s.mem.red.get? (key l) = none → Bytes.num t.byte (key l) 4 =
         (fadd32 .rne (BitVec.ofNat 32 (Bytes.num s.byte (key l) 4)) (q.g.vget d.toNat l)).toNat)))

/-- Stores to pages of other parts leave as messages on virtual channel 0, are unacknowledged until ACKNOWLEDGED_AT_HOME, and change no
byte here; each carries the class and deadline stamp of its grid; of lanes that name one location the highest alone writes (25 R380);
those to an unreachable part are discarded and counted (14 R250, R252, R253; 07 R131; the message's words, and the port at which an
acknowledgement counts, are the model's: log 34). FENCE goes on once the accesses of its lanes are performed, and else waits there with
its lanes; FENCE.POD raises NOT_PRESENT (code 7, reason 6) for a discarded write of its lanes; INVRO drops the core's read-only cache;
PREF, CFLUSH and CINV change no register and no byte of memory, and CFLUSH waits while a line that it writes back is pinned (04 R75; 07
R129, R131, R135, R136; 14 R253; 24 R361; the lines that a core has still to write back are the model's: log 105). -/
def Obligations.RemoteStoresAndFences : Prop :=
  ((∀ (s : State) (q : Turn) (i : Instr) (d a o : BitVec 7) (n : Nat) (part pa : Nat → Nat),
     storeForm i = some (d, a, o, n) → s.Issues q i →
     (∀ l < 32, q.takes i l = true → s.checkAddr q.g l (q.at a o n l) n n .store = .ok (.away (part l) (pa l))) →
     let ls := q.writers i (fun l => (part l, pa l))
     let near := ls.filter (fun l => !s.fab.unreachable.contains (part l))
     let far := ls.filter (fun l => s.fab.unreachable.contains (part l))
     let cls := (s.gridOf q.g).r.cls
     ∃ t h, exec i s = .next t ∧ t.groups.get? q.gid = some h ∧ q.Leaves h ∧ q.GoesOn i h ∧ q.g.sameV h ∧ q.g.sameS h ∧ q.g.sameP h ∧
       s.sameBytes t ∧ s.SameBut t q.gid ∧
       t.fab.sent = s.fab.sent ++ near.map (fun l => { dest := part l, vc := 0, op := 1, words := [pa l, n, q.data d n l], data := some n, cls := cls,
                                                         stamp := s.stampOf (s.gridOf q.g).part cls, src := s.self,
                                                         owner := some (q.gid, l) }) ∧
       h.unacked = q.g.unacked ++ near.map (fun l => (l, q.at a o n l, part l)) ∧
       h.dropped = q.g.dropped ++ far.map (fun l => (l, q.at a o n l)) ∧
       t.ctlGet .fabDroppedWrites 0 = s.ctlGet .fabDroppedWrites 0 + BitVec.ofNat 64 far.length) ∧
   ∀ (s : State) (gid n : Nat) (g : Group), s.groups.get? gid = some g → g.place = .resident → n < g.unacked.length → s.fab.stalled.getD 0 0 = 0 →
     ∃ port, exec (.acknowledgedAtHome gid n) s = .next ((s.setGroup gid { g with unacked := g.unacked.eraseIdx n }).count .fabRxFlits port 1)) ∧
  ((∀ (s : State) (q : Turn) (sc : BitVec 3) (g : BitVec 4), s.Issues q (.fence sc g) → q.acts (.fence sc g) →
     (q.Performed (.fence sc g) (sc = 6) → (sc = 6 → ∀ u ∈ q.g.dropped, q.takes (.fence sc g) u.1 = false) →
       ∃ d, exec (.fence sc g) s = .next { q.onward (.fence sc g) s with mmu := { s.mmu with dirty := d } } ∧
         ∀ e, e ∈ d ↔ e ∈ s.mmu.dirty ∧ ¬ (4 ≤ sc.toNat ∧ e.1 = q.g.core)) ∧
     (q.Performed (.fence sc g) True → sc = 6 → (∃ u ∈ q.g.dropped, q.takes (.fence sc g) u.1 = true) →
       ∃ u ∈ q.g.dropped, q.takes (.fence sc g) u.1 = true ∧ ∃ lane d, exec (.fence sc g) s =
         .next ((s.setGroup q.gid { q.g.unwait q.lanes with dropped := d }).takeFault q.gid lane q.pc { code := 0x07, addr := u.2, detail := 6 })) ∧
     (¬ q.Performed (.fence sc g) (sc = 6) → ∃ h, exec (.fence sc g) s = .next ((s.setGroup q.gid h).useIds 1) ∧
       q.Waits (.fence sc g) h (.fence (sc == 6)))) ∧
   (∀ (s : State) (q : Turn) (g : BitVec 4), s.Issues q (.invro g) → q.acts (.invro g) →
     ∃ ro, exec (.invro g) s = .next { (q.onward (.invro g) s) with mmu := { s.mmu with ro := ro } } ∧
       ∀ k, Store.get? ro k = if k / 2 ^ 52 = q.g.core then none else s.mmu.ro.get? k) ∧
   (∀ (s : State) (q : Turn) (a : BitVec 7) (g : BitVec 4), s.Issues q (.pref a g) → exec (.pref a g) s = .next (q.onward (.pref a g) s)) ∧
   (∀ (s : State) (q : Turn) (i : Instr) (a : BitVec 7) (g : BitVec 4) (key : Nat → Nat), i = .cflush a g ∨ i = .cinv a g → s.Issues q i →
     (∀ l < 32, q.takes i l = true → windowOf (q.w a l).toNat = .glb ∧
       s.checkAddr q.g l (q.w a l).toNat 1 1 .load = .ok (.here (key l))) →
     let dirty (l : Nat) : Prop := (q.g.core, key l / 4 / 128) ∈ s.mmu.dirty ∧ s.pinned (physKey (key l / 4 / 128 * 128)) 128 = true
     (i = .cinv a g ∨ (∀ l < 32, q.takes i l = true → ¬ dirty l) →
       ∃ t, exec i s = .next t ∧ t.groups.get? q.gid = some ((q.g.unwait q.lanes).setPc q.lanes (q.pc + 4)) ∧ s.SameBut t q.gid ∧
         s.sameBytes t ∧ t.fab = s.fab ∧
         (i = .cflush a g → ∀ l < 32, q.takes i l = true → (q.g.core, key l / 4 / 128) ∉ t.mmu.dirty)) ∧
     (i = .cflush a g → (∃ l < 32, q.takes i l = true ∧ dirty l) →
       ∃ t h ks, exec i s = .next t ∧ t.groups.get? q.gid = some h ∧ q.Waits i h (.pin ks) ∧ s.SameBut t q.gid ∧ s.sameBytes t)))

/-! ## Control, barriers, waits (02 R36 to R38; 07 R139, R141; 08 R154, R160, R161; 09 R178; 12 R222, R223; 15 R278; 22 R314, R322, R324;
23 R331, R333; 25 R364, R386) -/

/-- BRA and CALL send the lanes that take part to their target and the others to the next instruction; BRX, CALLX and RET send each to the
offset it holds, and an odd one ends the group with MISALIGNED (code 3). CALL and CALLX leave the next offset in v8 (22 R322, R324; 23
R325, R326; 25 R369). -/
def Obligations.BranchesDivideThePath : Prop :=
  (∀ (s : State) (q : Turn) (i : Instr) (o : BitVec 21) (g : BitVec 4), i = .bra o g ∨ i = .call o g → s.Issues q i →
    ∃ h, exec i s = .next (s.setGroup q.gid h) ∧ q.g.RegsOnly h ∧ q.Leaves h ∧ q.g.sameS h ∧ q.g.sameP h ∧
      (∀ l < 32, h.pcOf l = if q.takes i l then ((q.pc + 2 * o.toInt) % 2 ^ 32).toNat
        else if q.lanes.getLsbD l then q.next i else q.g.pcOf l) ∧
      ∀ l < 32, ∀ r, h.vget r l = if i = .call o g ∧ q.takes i l ∧ r = 8 then word (q.pc + 4) else q.g.vget r l) ∧
  ∀ (s : State) (q : Turn) (i : Instr) (r : Nat) (link : Bool), indirectForm i = some (r, link) → s.Issues q i →
    ((∀ l < 32, q.takes i l = true → (q.g.vget r l).toNat % 2 = 0) →
      ∃ h, exec i s = .next (s.setGroup q.gid h) ∧ q.g.RegsOnly h ∧ q.Leaves h ∧ q.g.sameS h ∧ q.g.sameP h ∧
        (∀ l < 32, h.pcOf l = if q.takes i l then (q.g.vget r l).toNat else if q.lanes.getLsbD l then q.next i else q.g.pcOf l) ∧
        ∀ l < 32, ∀ k, h.vget k l = if link ∧ q.takes i l ∧ k = 8 then word (q.pc + 4) else q.g.vget k l) ∧
    (∀ l < 32, q.takes i l = true → (q.g.vget r l).toNat % 2 = 1 → (∀ m < l, q.takes i m = true → (q.g.vget r m).toNat % 2 = 0) →
      exec i s = .next (q.ends s l { code := 0x03, addr := ((s.gridOf q.g).r.codeBase + (q.g.vget r l).toNat) % 2 ^ 64, detail := 2 }))

/-- EXIT: lanes that take part are live no longer and the others go on. When no lane is left the group ends: it leaves its slot, which its
team keeps, its team counts it, and no fault is recorded; while work that it started goes on, its atomics at other parts among it, it is
only marked as ended (23 R333, R334; 02 R40). NOP does nothing but go on; YIELD marks its group as passed over; SAFEPT ends the group of a
killed grid, waits under a pre-emption request, and otherwise does nothing; CONV holds its lanes until every live lane waits for the
others, and then lets the lanes at every CONV go together (02 R37, R44; 08 R158; 23 R331; 24 R358; 25 R386). TRAP ends its group with its
number; BRK does nothing while BRK_EN is 0, and otherwise halts its group, which keeps everything it has, and posts the event BREAK, on
ring 0, which is the model's (12 R222, R223; log 91). -/
def Obligations.LanesEndAndWait : Prop :=
  (∀ (s : State) (q : Turn) (g : BitVec 4), s.Issues q (.exit g) → q.acts (.exit g) →
     ((∃ l < 32, q.g.live.getLsbD l = true ∧ q.takes (.exit g) l = false) →
       ∃ u h, exec (.exit g) s = .next u ∧ u.groups.get? q.gid = some h ∧ (q.g.kind ≠ .callout → u = s.setGroup q.gid h) ∧
         s.SameBut { u with spire := s.spire } q.gid ∧ u.mem = s.mem ∧ q.Leaves h ∧ q.g.sameV h ∧ q.g.sameS h ∧ q.g.sameP h ∧
         ∀ l < 32, h.live.getLsbD l = (q.g.live.getLsbD l && !q.takes (.exit g) l) ∧
           h.pcOf l = if q.lanes.getLsbD l ∧ q.takes (.exit g) l = false then q.next (.exit g) else q.g.pcOf l) ∧
     (∀ t : Team, (∀ l < 32, q.g.live.getLsbD l = true → q.takes (.exit g) l = true) → q.g.kind = .team → q.g.place = .resident →
       s.teams.get? q.g.team = some t →
       let busy : Prop := s.busyUnit q.gid false = true ∨ q.g.unacked ≠ [] ∨ ∃ p ∈ q.g.pend, p.atHome = true
       ∃ u, exec (.exit g) s = .next u ∧ u.log = s.log ∧ (∀ j, j ≠ q.gid → u.groups.get? j = s.groups.get? j) ∧
         (∃ t', u.teams.get? q.g.team = some t' ∧ t'.holder ≠ some q.gid ∧ (¬ busy → (q.g.index, q.g.quarter) ∈ t'.gone)) ∧
         (¬ busy → u.groups.get? q.gid = none) ∧
         (busy → ∃ h, u.groups.get? q.gid = some h ∧ h.live = 0 ∧ h.pend = q.g.pend.filter Pend.atHome ∧ h.place = .ending none))) ∧
  ((∀ (s : State) (q : Turn), s.Issues q .nop → exec .nop s = .next (q.onward .nop s)) ∧
   (∀ (s : State) (q : Turn) (g : BitVec 4), s.Issues q (.yield g) → q.acts (.yield g) →
     exec (.yield g) s = .next (s.setGroup q.gid { (q.gone (.yield g)) with yielded := some s.env.cycle })) ∧
   (∀ (s : State) (q : Turn) (n : BitVec 7), s.Issues q (.safept n) →
     ((s.gridOf q.g).killed = true → exec (.safept n) s = .next ((s.setGroup q.gid (q.g.unwait q.lanes)).endUnit q.gid none)) ∧
     ((s.gridOf q.g).killed = false → (s.gridOf q.g).pre = .pending → q.g.place = .resident →
       ∃ h, exec (.safept n) s = .next ((s.setGroup q.gid h).useIds 1) ∧ q.Waits (.safept n) h .site) ∧
     ((s.gridOf q.g).killed = false → ((s.gridOf q.g).pre ≠ .pending ∨ q.g.place ≠ .resident) →
       exec (.safept n) s = .next (q.onward (.safept n) s))) ∧
   ∀ (s : State) (q : Turn) (g : BitVec 4), s.Issues q (.conv g) → q.acts (.conv g) →
     ((∀ l < 32, q.g.live.getLsbD l = true → q.takes (.conv g) l = true) →
       ∃ h, exec (.conv g) s = .next ((s.setGroup q.gid h).useIds 1) ∧ q.g.sameV h ∧ q.g.sameS h ∧ q.g.sameP h ∧ h.live = q.g.live ∧
         ∀ l < 32, q.g.live.getLsbD l = true → h.pcOf l = q.next (.conv g) ∧ ∀ w ∈ h.waits, w.lanes.getLsbD l = false) ∧
     ((∀ l < 32, q.g.live.getLsbD l = true → q.takes (.conv g) l = true ∨ q.lanes.getLsbD l = false ∧
         ∃ w ∈ q.g.waits, w.lanes.getLsbD l = true ∧ (w.why = .conv ∨ w.why = .gather ∨ w.why = .site ∨ ∃ d a, w.why = .repack d a)) →
       ∃ h, exec (.conv g) s = .next ((s.setGroup q.gid h).useIds 1) ∧ q.g.sameV h ∧ q.g.sameS h ∧ q.g.sameP h ∧ h.live = q.g.live ∧
         (∀ w ∈ h.waits, w.why ≠ .conv) ∧
         (∀ l < 32, q.takes (.conv g) l = true → h.pcOf l = q.next (.conv g)) ∧
         ∀ w ∈ q.g.waits, w.why = .conv → ∀ l < 32, w.lanes.getLsbD l = true → q.lanes.getLsbD l = false →
           (∀ x ∈ q.g.waits, x.lanes.getLsbD l = true → x = w) → h.pcOf l = (w.pc + 4) % 2 ^ 32) ∧
     ((∃ l < 32, q.g.live.getLsbD l = true ∧ q.takes (.conv g) l = false ∧
         ∀ w ∈ q.g.waits, w.lanes.getLsbD l = true → q.lanes.getLsbD l = true ∨
           w.why ≠ .gather ∧ w.why ≠ .conv ∧ w.why ≠ .site ∧ (∀ d a, w.why ≠ .repack d a) ∧
           (s.preempting q.g = true → w.why ≠ .launch ∧ ∀ k x o, w.why ≠ .twait k x o)) →
       ∃ h, exec (.conv g) s = .next ((s.setGroup q.gid h).useIds 1) ∧ q.Waits (.conv g) h .conv)) ∧
  ((∀ (s : State) (q : Turn) (n : BitVec 7) (g : BitVec 4), s.Issues q (.trap n g) → q.acts (.trap n g) →
     exec (.trap n g) s = .next (q.ends s (lowest (q.takes (.trap n g))) { code := 0x0E, addr := 0, detail := n.toNat })) ∧
   ∀ (s : State) (q : Turn) (n : BitVec 7) (g : BitVec 4), s.Issues q (.brk n g) → q.acts (.brk n g) →
     ((s.ctlGet .dbgCtl (s.gridOf q.g).part).getLsbD 0 = false → exec (.brk n g) s = .next (q.onward (.brk n g) s)) ∧
     ((s.ctlGet .dbgCtl (s.gridOf q.g).part).getLsbD 0 = true →
       let e : Event := { ring := 0, code := 3, part := (s.gridOf q.g).part, w := q.pc, x := q.g.grid, y := (s.teamOf q.g).index,
                          z := q.g.index + 256 * n.toNat }
       ∃ h, exec (.brk n g) s = .next ((s.setGroup q.gid h).post e) ∧
         h.halted = true ∧ h.live = q.g.live ∧ h.place = q.g.place ∧ q.g.sameV h ∧ q.g.sameS h ∧ q.g.sameP h ∧
         ∀ l < 32, q.lanes.getLsbD l = true → h.pcOf l = q.next (.brk n g)))

/-- SYSR reads the issuing group's system registers into a scalar register or, in each lane that takes part, a vector register: of a
team's group, of a task or call-out and of both; SYSW writes FPMODE and SCENE, and a value they cannot hold is ILLEGAL_INSTRUCTION, as are
the forms at registers that they may not name; RDTIME reads pod time; TICKET draws a work ticket from the die's counter (02 R34; 08 R154;
09 R172; 15 R278; 25 R364, R381). -/
def Obligations.SystemRegisters : Prop :=
  (∀ (s : State) (g : Group), g.kind = .team →
    let r := (s.gridOf g).r
    let n := (s.teamOf g).index
    s.sysReg g 0x01 = some (BitVec.ofNat 64 g.index) ∧ s.sysReg g 0x02 = some (BitVec.ofNat 64 n) ∧
    (∀ x y z, n = x + r.x * (y + r.y * z) → x < r.x → y < r.y → s.sysReg g 0x03 = some (BitVec.ofNat 64 x) ∧
      s.sysReg g 0x04 = some (BitVec.ofNat 64 y) ∧ s.sysReg g 0x05 = some (BitVec.ofNat 64 z)) ∧
    s.sysReg g 0x0B = some (match g.role with | .loader => 1 | .compute => 2 | .storer => 3)) ∧
  (∀ (s : State) (g : Group), g.kind ≠ .team → s.sysReg g 0x01 = some 0 ∧ ∀ n ∈ [2, 3, 4, 5, 0x0B], s.sysReg g n = some (BitVec.allOnes 64)) ∧
  (∀ (s : State) (g : Group),
    s.sysReg g 0x06 = some (BitVec.ofNat 64 g.core) ∧ s.sysReg g 0x07 = some (BitVec.ofNat 64 (g.core / 4)) ∧
    s.sysReg g 0x08 = some (BitVec.ofNat 64 (g.core / 48)) ∧ s.sysReg g 0x09 = some (if (s.ctlGet .fabDomain 0).getLsbD 63
      then BitVec.ofNat 64 ((s.ctlGet .fabDomain 0).toNat % 2 ^ 12) else 0) ∧
    s.sysReg g 0x0A = some (BitVec.ofNat 64 g.grid) ∧
    s.sysReg g 0x0C = some (BitVec.ofNat 64 g.budget) ∧ s.sysReg g 0x0D = some (BitVec.ofNat 64 s.podTime) ∧
    s.sysReg g 0x0E = some (BitVec.ofNat 64 (s.env.cycle - s.env.resetAt)) ∧
    s.sysReg g 0x0F = some g.fpmode ∧ s.sysReg g 0x10 = some (s.ctlGet .stepBudget (s.gridOf g).part) ∧
    s.sysReg g 0x11 = some (BitVec.ofNat 64 (0xFC00000000000000 + g.floor)) ∧ s.sysReg g 0x12 = some g.scene) ∧
  (∀ (s : State) (q : Turn) (i : Instr) (d : BitVec 6) (n : BitVec 7) (g : BitVec 4), s.Path q →
    (i = .sysr d n g ∧ (n = 0 ∨ 0x14 ≤ n.toNat) ∨ i = .sysrV d n g ∧ 0x13 ≤ n.toNat ∨ i = .sysw d n g ∧ n ≠ 0x0F ∧ n ≠ 0x12) →
    exec i s = .next (q.ends s (q.pathLane i) { code := 0x01, addr := 0, detail := (encode i).getD 0 })) ∧
  (∀ (s : State) (q : Turn) (d : BitVec 6) (n : BitVec 7) (g : BitVec 4) (x : W64), s.sysReg q.g n.toNat = some x →
    (s.Issues q (.sysr d n g) → q.acts (.sysr d n g) → (d = 62 → q.g.inStack x.toNat) →
      q.Completes (.sysr d n g) s (q.SWritten d.toNat x.toInt)) ∧
    (s.Issues q (.sysrV d n g) → n ≠ 0 →
      q.Completes (.sysrV d n g) s (q.VWritten (.sysrV d n g) (toV6 d fun _ _ => x.setWidth 32)))) ∧
  (∀ (s : State) (q : Turn) (d : BitVec 6) (g : BitVec 4), s.Issues q (.sysrV d 0 g) →
    q.Completes (.sysrV d 0 g) s (q.VWritten (.sysrV d 0 g) (toV6 d fun _ l => BitVec.ofNat 32 l))) ∧
  (∀ (s : State) (q : Turn) (d : BitVec 6) (g : BitVec 4), s.Issues q (.rdtime d g) → q.acts (.rdtime d g) →
    (d = 62 → q.g.inStack (BitVec.ofNat 64 s.podTime).toNat) → q.Completes (.rdtime d g) s (q.SWritten d.toNat s.podTime)) ∧
  (∀ (s : State) (q : Turn) (d : BitVec 6) (g : BitVec 4),
    (s.Issues q (.sysw d 0x0F g) → q.acts (.sysw d 0x0F g) →
      exec (.sysw d 0x0F g) s = .next (if q.g.sget d.toNat &&& 0xFFFFFFFFFFFFFFCC = 0
        then s.setGroup q.gid { (q.gone (.sysw d 0x0F g)) with fpmode := q.g.sget d.toNat }
        else q.ends s (q.pathLane (.sysw d 0x0F g)) { code := 0x01, addr := 0, detail := (encode (.sysw d 0x0F g)).getD 0 })) ∧
    (s.Issues q (.sysw d 0x12 g) → q.acts (.sysw d 0x12 g) →
      exec (.sysw d 0x12 g) s = .next (if (q.g.sget d.toNat).toNat % 64 = 0
        then s.setGroup q.gid { (q.gone (.sysw d 0x12 g)) with scene := q.g.sget d.toNat }
        else q.ends s (q.pathLane (.sysw d 0x12 g)) { code := 0x01, addr := 0, detail := (encode (.sysw d 0x12 g)).getD 0 }))) ∧
  ∀ (s : State) (q : Turn) (d : BitVec 6) (g : BitVec 4) (gr : Grid), s.Issues q (.sysr d 0x13 g) → q.acts (.sysr d 0x13 g) →
    s.grids.get? q.g.grid = some gr → gr.r.m ≠ 0 → gr.cancelled = false →
    let c := gr.work.getD (q.g.core / 48) (0, 0)
    c.1 < c.2 → ∃ t h p, exec (.sysr d 0x13 g) s = .next t ∧ t.groups.get? q.gid = some h ∧ q.Pending (.sysr d 0x13 g) h [p] ∧
      p.sreg = (if d = 0 then none else some d.toNat) ∧ p.swrite = BitVec.ofNat 64 c.1 ∧ p.bad = [] ∧
      t.grids.get? q.g.grid = some { gr with work := gr.work.set (q.g.core / 48) (c.1 + 1, c.2) } ∧ s.sameBytes t

/-- Barrier arrivals of a whole group of a team whose accesses are performed: BAR arrives in the current phase and waits for it, BARARR
arrives and goes on unless its last phase is still open, BARWT waits for the phase of its last arrival (07 R130; 08 R160, R161; 22 R314).
A PART or GRID barrier in a grid that is not co-resident ends the group with GRID_BAR_NOT_RESIDENT (code 0x0C), which names the level and
the number; in a task or call-out group the other levels are ILLEGAL_INSTRUCTION and BAR.TEAM completes at once (22 R314; 12 R217). -/
def Obligations.BarrierArrivals : Prop :=
  (∀ (s : State) (q : Turn) (l : BitVec 2) (n : BitVec 3), (∀ gr, s.grids.get? q.g.grid = some gr → 2 ≤ l.toNat → gr.r.coRes = true) →
     s.grids.get? q.g.grid ≠ none → s.teams.get? q.g.team ≠ none → q.g.kind = .team →
     let o := s.barOwner q.g l.toNat
     let b := s.getBar l.toNat q.g.grid o n.toNat
     let arrived (t : State) : Prop :=
       let b' := t.getBar l.toNat q.g.grid o n.toNat
       b'.phase = b.phase ∧ if b.arr.any (fun a => a.1 == q.gid) then b'.arr = b.arr
         else b'.came = true ∧ b'.arr = b.arr ++ [(q.gid, q.g.core / 48, s.podTime)]
     let pod : Bool := l == 3 && (s.gridOf q.g).r.pod
     (s.Issues q (.bar l n) → q.Whole → ¬ q.Performed (.bar l n) (pod = true) →
       ∃ h, exec (.bar l n) s = .next ((s.setGroup q.gid h).useIds 1) ∧ q.Waits (.bar l n) h (.fence pod)) ∧
     (s.Issues q (.bar l n) → q.Whole → q.Performed (.bar l n) (pod = true) → ∃ t h, exec (.bar l n) s = .next t ∧ t.groups.get? q.gid = some h ∧
       q.Waits (.bar l n) h (.barDepart l.toNat n.toNat b.phase) ∧ (l.toNat, n.toNat, b.phase) ∈ h.arrivals ∧ arrived t ∧ s.sameBytes t) ∧
     (s.Issues q (.bararr l n) → q.Whole → q.Performed (.bararr l n) (pod = true) → (∀ a ∈ q.g.arrivals, a.1 = l.toNat → a.2.1 = n.toNat → a.2.2 < b.phase) →
       ∃ t h, exec (.bararr l n) s = .next t ∧ t.groups.get? q.gid = some h ∧ q.Leaves h ∧ q.GoesOn (.bararr l n) h ∧
         q.g.sameV h ∧ q.g.sameS h ∧ q.g.sameP h ∧ (l.toNat, n.toNat, b.phase) ∈ h.arrivals ∧ arrived t ∧ s.sameBytes t) ∧
     (s.Issues q (.barwt l n) → (∀ a ∈ q.g.arrivals, a.1 = l.toNat → a.2.1 = n.toNat → a.2.2 < b.phase) →
       exec (.barwt l n) s = .next (q.onward (.barwt l n) s)) ∧
     (∀ p, s.Issues q (.barwt l n) → q.g.arrivals.find? (fun a => a.1 == l.toNat && a.2.1 == n.toNat) = some (l.toNat, n.toNat, p) →
       b.phase ≤ p → ∃ h, exec (.barwt l n) s = .next ((s.setGroup q.gid h).useIds 1) ∧ q.Waits (.barwt l n) h (.barwt l.toNat n.toNat p))) ∧
  (∀ (s : State) (q : Turn) (i : Instr) (l : BitVec 2) (n : BitVec 3), i = .bar l n ∨ i = .bararr l n ∨ i = .barwt l n → s.Issues q i →
     (q.g.kind = .team → 2 ≤ l.toNat → (s.gridOf q.g).r.coRes = false →
       exec i s = .next (q.ends s (q.pathLane i) { code := 0x0C, addr := 0, detail := l.toNat + 4 * n.toNat })) ∧
     (q.g.kind ≠ .team → l ≠ 0 →
       exec i s = .next (q.ends s (q.pathLane i) { code := 0x01, addr := 0, detail := (encode i).getD 0 })) ∧
     (q.g.kind ≠ .team → l = 0 → q.Whole → q.g.arrivals = [] → q.Performed i False → exec i s = .next (q.onward i s)))

/-- BARRIER_PHASE_COMPLETE: once every member group has arrived, the next phase begins without arrivals and the groups that waited in BAR
depart; nothing happens while a member is missing. BARRIER_TOKEN adds to a GRID phase the parts that a token of the switches counts, with
the times at which they arrived (08 R160, R161; 14 R261; the token's form is the model's: log 96). RARRIVE, once the accesses of its lanes
are performed, raises a remote count of the team of the caller's set on a core of the cluster, or waits while it is full, or ends its
group with SPACE_FOREIGN (code 5) when there is none; BARWT.REMOTE takes one arrival of each other team of the set, or waits (07 R130; 08
R161; 25 R362). -/
def Obligations.BarrierPhases : Prop :=
  ((∀ (s : State) (team grid n : Nat) (t : Team), s.teams.get? team = some t →
     let b := s.getBar 0 grid team n
     let member (e : Nat × Group) : Prop := e.2.kind = .team ∧ e.2.grid = grid ∧ e.2.team = team
     let here (e : Nat × Group) : Prop := ∃ a ∈ b.arr, a.1 = e.1
     (b.came = true → (∀ e ∈ s.groups, member e → here e) →
       ∃ u, exec (.barrierPhaseComplete 0 grid team n) s = .next u ∧
         (u.getBar 0 grid team n).phase = b.phase + 1 ∧ (u.getBar 0 grid team n).arr = [] ∧ (u.getBar 0 grid team n).came = false ∧
         u.mem = s.mem ∧ u.grids = s.grids ∧
         ∀ j g, s.groups.get? j = some g → ∃ h, u.groups.get? j = some h ∧ g.sameV h ∧ g.sameS h ∧ g.sameP h ∧
           (member (j, g) → g.Released h (.barDepart 0 n b.phase)) ∧ (¬ member (j, g) → h = g)) ∧
     ((∃ e ∈ s.groups, member e ∧ ¬ here e) → exec (.barrierPhaseComplete 0 grid team n) s = .next s)) ∧
   (∀ (s : State) (level grid owner n : Nat), level < 4 → s.barDone level grid owner n = true →
     (level = 0 → s.teams.get? owner ≠ none) → (level ≠ 0 → s.grids.get? grid ≠ none) →
     ∃ u, exec (.barrierPhaseComplete level grid owner n) s = .next u ∧
       (u.getBar level grid owner n).phase = (s.getBar level grid owner n).phase + 1) ∧
   ∀ (s : State) (id n phase count : Nat) (times : List (Nat × Nat)) (gr : Grid), n < 4 → s.grids.get? id = some gr → gr.r.pod = true →
     let b := s.getBar 3 id 0 n
     b.phase ≤ phase → 0 < count →
     ∃ u, exec (.barrierToken id 3 n phase count times) s = .next u ∧ (u.getBar 3 id 0 n).got = b.got ++ [(phase, count)] ∧
       (∀ x ∈ times, (x.1, phase, x.2) ∈ (u.getBar 3 id 0 n).tokens) ∧
       (u.getBar 3 id 0 n).phase = b.phase ∧ (u.getBar 3 id 0 n).arr = b.arr ∧ u.groups = s.groups ∧ u.mem = s.mem) ∧
  ((∀ (s : State) (q : Turn) (c n : BitVec 2), s.Issues q (.rarrive c n) → q.g.kind = .team →
     let at' := s.setTeamOn q.g.grid (s.barOwner q.g 1) (q.g.core / 4 * 4 + c.toNat)
     (at' = none → exec (.rarrive c n) s = .next (q.ends s (q.pathLane (.rarrive c n)) { code := 0x05, addr := 0, detail := q.g.core })) ∧
     ∀ u t, at' = some u → s.teams.get? u = some t →
       (t.remote.getD n.toNat 0 ≠ 65535 → ¬ q.Performed (.rarrive c n) False →
         ∃ h, exec (.rarrive c n) s = .next ((s.setGroup q.gid h).useIds 1) ∧ q.Waits (.rarrive c n) h (.fence false)) ∧
       (t.remote.getD n.toNat 0 ≠ 65535 → q.Performed (.rarrive c n) False → exec (.rarrive c n) s = .next ((q.onward (.rarrive c n) s).setTeam u
         { t with remote := t.remote.set n.toNat (t.remote.getD n.toNat 0 + 1) })) ∧
       (t.remote.getD n.toNat 0 = 65535 →
         ∃ h, exec (.rarrive c n) s = .next ((s.setGroup q.gid h).useIds 1) ∧ q.Waits (.rarrive c n) h (.full u n.toNat))) ∧
   ∀ (s : State) (q : Turn) (n : BitVec 2) (t : Team), s.Issues q (.barwtRemote n) → q.g.kind = .team → s.teams.get? q.g.team = some t →
     let k := (s.gridOf q.g).setSize t.index - 1
     (k ≤ t.remote.getD n.toNat 0 → exec (.barwtRemote n) s = .next ((q.onward (.barwtRemote n) s).setTeam q.g.team
       { t with remote := t.remote.set n.toNat (t.remote.getD n.toNat 0 - k) })) ∧
     (t.remote.getD n.toNat 0 < k →
       ∃ h, exec (.barwtRemote n) s = .next ((s.setGroup q.gid h).useIds 1) ∧ q.Waits (.barwtRemote n) h (.remote n.toNat)))

/-- MONITOR remembers a word and what it holds; MWAIT goes on when no monitor is set or the word meets its condition, and otherwise waits;
MWAIT_RETURN releases lanes whose condition has come to hold; CHWAIT waits for bits of a scratchpad word (07 R141; 24 R354). BATSEAL
closes the open batch and gives it the next number, or waits while 16 sealed batches are open; BATWAIT goes on when the batches that it
names are complete, and otherwise waits; both wait with every lane of their path (07 R138, R139; 22 R315). -/
def Obligations.MonitorsAndBatches : Prop :=
  ((∀ (s : State) (q : Turn) (a : BitVec 6) (g : BitVec 4) (k : Nat), s.Issues q (.monitor a g) → q.acts (.monitor a g) →
     windowOf (q.g.sget a.toNat).toNat = .scr →
     s.checkAddr q.g (lowest (q.takes (.monitor a g))) (q.g.sget a.toNat).toNat 8 8 .load = .ok (.here k) → s.mem.poisonAt k 8 = none →
     ∃ t, exec (.monitor a g) s = .next t ∧ t.groups.get? q.gid = some { (q.gone (.monitor a g)) with
         monitor := some ((q.g.sget a.toNat).toNat, k, BitVec.ofNat 64 (Bytes.num s.byte k 8)) } ∧
       s.SameBut t q.gid ∧ s.sameBytes t) ∧
   (∀ (s : State) (q : Turn) (d : BitVec 6) (g : BitVec 4), s.Issues q (.mwait d g) → q.acts (.mwait d g) →
     (q.g.monitor = none → exec (.mwait d g) s = .next (q.onward (.mwait d g) s)) ∧
     ∀ va k x, q.g.monitor = some (va, k, x) →
       let now := Bytes.num s.byte k 8
       let m := (q.g.sget d.toNat).toNat
       ((m = 0 ∧ now ≠ x.toNat ∨ m ≠ 0 ∧ now &&& m = m) → ∃ t, exec (.mwait d g) s = .next t ∧
         t.groups.get? q.gid = some (q.gone (.mwait d g)) ∧ s.SameBut t q.gid ∧ s.sameBytes t) ∧
       (¬ (m = 0 ∧ now ≠ x.toNat ∨ m ≠ 0 ∧ now &&& m = m) → (s.gridOf q.g).pre ≠ .pending →
         ∃ t h, exec (.mwait d g) s = .next t ∧ t.groups.get? q.gid = some h ∧ q.Waits (.mwait d g) h (.mwait m) ∧ s.SameBut t q.gid ∧
           s.sameBytes t)) ∧
   (∀ (s : State) (gid : Nat) (g : Group) (w : Wait) (m va k : Nat) (x : W64), s.groups.get? gid = some g → g.place = .resident →
     g.waits = [w] → w.why = .mwait m → g.monitor = some (va, k, x) →
     (m = 0 ∧ Bytes.num s.byte k 8 ≠ x.toNat ∨ m ≠ 0 ∧ Bytes.num s.byte k 8 &&& m = m) →
     ∃ h, exec (.mwaitReturn gid) s = .next (s.setGroup gid h) ∧ h.waits = [] ∧ h.monitor = g.monitor ∧ g.sameV h ∧ g.sameS h ∧
       g.sameP h ∧ ∀ l < 32, h.pcOf l = if w.lanes.getLsbD l then (w.pc + 4) % 2 ^ 32 else g.pcOf l) ∧
   ∀ (s : State) (q : Turn) (d a : BitVec 6) (g : BitVec 4) (k : Nat), s.Issues q (.chwait d a g) → q.acts (.chwait d a g) →
     windowOf (q.g.sget a.toNat).toNat = .scr →
     s.checkAddr q.g (lowest (q.takes (.chwait d a g))) (q.g.sget a.toNat).toNat 8 8 .load = .ok (.here k) → s.mem.poisonAt k 8 = none →
     let m := (q.g.sget d.toNat).toNat
     (Bytes.num s.byte k 8 &&& m = m → ∃ t, exec (.chwait d a g) s = .next t ∧ t.groups.get? q.gid = some (q.gone (.chwait d a g)) ∧
       s.SameBut t q.gid ∧ s.sameBytes t) ∧
     (Bytes.num s.byte k 8 &&& m ≠ m →
       ∃ t h, exec (.chwait d a g) s = .next t ∧ t.groups.get? q.gid = some h ∧ q.Waits (.chwait d a g) h (.words k m) ∧ s.SameBut t q.gid ∧
         s.sameBytes t)) ∧
  ((∀ (s : State) (q : Turn) (d : BitVec 6) (g : BitVec 4), s.Issues q (.batseal d g) → q.acts (.batseal d g) →
     (s.openBatches q.gid q.g).length < 16 →
     let n := if q.g.lastBatch + 1 = 2 ^ 32 then 1 else q.g.lastBatch + 1
     (d = 62 → q.g.inStack (BitVec.ofNat 64 n).toNat) →
     ∃ h, exec (.batseal d g) s = .next (s.setGroup q.gid h) ∧ h.lastBatch = n ∧ h.sealSeq = q.g.sealSeq + 1 ∧ q.Leaves h ∧
       q.GoesOn (.batseal d g) h ∧ q.SWritten d.toNat n h) ∧
   (∀ (s : State) (q : Turn) (d : BitVec 6) (g : BitVec 4), s.Issues q (.batseal d g) → q.acts (.batseal d g) →
     16 ≤ (s.openBatches q.gid q.g).length →
     ∃ t h, exec (.batseal d g) s = .next t ∧ t.groups.get? q.gid = some h ∧ q.WaitsAll (.batseal d g) h (.batch 0) ∧ t.eng = s.eng) ∧
   ∀ (s : State) (q : Turn) (a : BitVec 6) (g : BitVec 4), s.Issues q (.batwait a g) → q.acts (.batwait a g) →
     let n : Nat := (q.g.sget a.toNat).toNat % 2 ^ 32
     let k : Nat := (((q.g.lastBatch : Int) - (n : Int)) % (2 ^ 32 - 1)).toNat
     let upTo := q.g.sealSeq - (if 2 ^ 31 ≤ k then 0 else k)
     ((n = 0 ∨ q.g.lastBatch = 0 ∨ ∀ c ∈ s.eng.copies, c.gid = q.gid → upTo ≤ c.batch ∨ c.left = [] ∧ c.sent = []) →
       exec (.batwait a g) s = .next (q.onward (.batwait a g) s)) ∧
     (n ≠ 0 → q.g.lastBatch ≠ 0 → (∃ c ∈ s.eng.copies, c.gid = q.gid ∧ c.batch < upTo ∧ (c.left ≠ [] ∨ c.sent ≠ [])) →
       ∃ h, exec (.batwait a g) s = .next ((s.setGroup q.gid h).useIds 1) ∧ q.WaitsAll (.batwait a g) h (.batch upTo)))

/-- BTAKE takes the baton when it is free and no group waits, and otherwise joins the team's order; BGIVE frees it; BATON_HANDOVER gives
it to the group that has waited longest; BGIVE without it ends the group with BATON_NOT_HELD (code 0x10) (02 R37, R38). ROLE and
ROLE.OFFER of a whole group without pending results: a change keeps v0 to v7, every scalar register and the baton, clears the other vector
registers and p1 to p7, sets the role's budget and sends every live lane to the role's entry; the same role, or no posted change, only
goes on; a role that the team does not have is ILLEGAL_INSTRUCTION (02 R35 to R37; 25 R371). RINGPUT, once the accesses of its lanes are
performed (07 R130), puts an entry, a word for each lane and 0 where a lane takes no part, and raises the count of puts; RINGGET takes the
oldest and raises the count of takes; both set their predicate to 1, mirror the counts in the descriptor, and wait while the ring is full
or empty (09 R177, R178). -/
def Obligations.BatonRolesAndRings : Prop :=
  ((∀ (s : State) (q : Turn) (t : Team), s.Issues q .btake → q.g.kind = .team → s.teams.get? q.g.team = some t →
     (t.holder = some q.gid → exec .btake s = .next (q.onward .btake s)) ∧
     (t.holder = none → t.batonQ = [] →
       exec .btake s = .next ((q.onward .btake s).setTeam q.g.team { t with holder := some q.gid })) ∧
     (t.holder ≠ some q.gid → (t.holder ≠ none ∨ t.batonQ ≠ []) → q.gid ∉ t.batonQ →
       ∃ h, exec .btake s = .next (((s.setGroup q.gid h).useIds 1).setTeam q.g.team { t with batonQ := t.batonQ ++ [q.gid] }) ∧
         q.Waits .btake h .btake)) ∧
   (∀ (s : State) (q : Turn) (t : Team), s.Issues q .bgive → q.g.kind = .team → s.teams.get? q.g.team = some t →
     (t.holder ≠ some q.gid → exec .bgive s = .next (q.ends s (q.pathLane .bgive) { code := 0x10, addr := 0, detail := 0x3C })) ∧
     (t.holder = some q.gid → (∀ w ∈ q.g.waits, ∀ i, w.why ≠ .mxAccept i) →
       exec .bgive s = .next ((q.onward .bgive s).setTeam q.g.team { t with holder := none, fed := false }))) ∧
   ∀ (s : State) (team j : Nat) (t : Team) (rest : List Nat) (g : Group), s.teams.get? team = some t → t.holder = none →
     t.batonQ = j :: rest → s.groups.get? j = some g →
     ∃ h, exec (.batonHandover team) s = .next ((s.setTeam team { t with holder := some j, batonQ := rest }).setGroup j h) ∧
       g.Released h .btake ∧ g.sameV h ∧ g.sameS h ∧ g.sameP h) ∧
  ((∀ (s : State) (q : Turn), s.Issues q .roleOffer → q.Whole → q.g.kind = .team → q.g.pend = [] → q.g.posted = none →
     exec .roleOffer s = .next (q.onward .roleOffer s)) ∧
   ∀ (s : State) (q : Turn) (i : Instr) (r : Role) (gr : Grid) (t : Team), s.Issues q i → q.Whole → q.g.kind = .team → q.g.pend = [] →
     s.grids.get? q.g.grid = some gr → s.teams.get? q.g.team = some t →
     (i = .role 1 ∧ r = .loader ∨ i = .role 2 ∧ r = .compute ∨ i = .role 3 ∧ r = .storer ∨ i = .roleOffer ∧ q.g.posted = some r) →
     (i = .roleOffer ∨ i = .role 2 ∨ gr.h.roles = true) →
     (q.g.role ≠ r → ∃ u h, exec i s = .next u ∧ u.groups.get? q.gid = some h ∧ h.role = r ∧ h.budget = gr.budget r ∧ q.g.sameS h ∧
       q.Leaves h ∧ h.live = q.g.live ∧ (i = .roleOffer → h.posted = none) ∧
       (∀ k l, l < 32 → h.vget k l = if k < 8 then q.g.vget k l else 0) ∧ (∀ n l, l < 32 → h.pget n l = decide (n = 0)) ∧
       (∀ l < 32, q.g.live.getLsbD l = true → h.pcOf l = gr.h.entry r % 2 ^ 32) ∧
       (∃ t', u.teams.get? q.g.team = some t' ∧ t'.holder = t.holder) ∧ u.mem = s.mem) ∧
     (q.g.role = r → i ≠ .roleOffer → exec i s = .next (q.onward i s)) ∧
     (∀ n : BitVec 2, gr.h.roles = false → n ≠ 2 → s.Issues q (.role n) →
       exec (.role n) s = .next (q.ends s (q.pathLane (.role n)) { code := 0x01, addr := 0, detail := (encode (.role n)).getD 0 }))) ∧
  (∀ (s : State) (q : Turn) (d : BitVec 7) (p n : BitVec 3) (g : BitVec 4) (t : Team), q.g.kind = .team → s.teams.get? q.g.team = some t →
     let desc := scrKey t.scrId (16 * n.toNat)
     let base := Bytes.num s.byte desc 4
     let cnt := Bytes.num s.byte (desc + 16) 2
     let r := t.rings.getD n.toNat { put := 0, get := 0 }
     let occ := (r.put + 2 ^ 32 - r.get) % 2 ^ 32
     let entry (k : Nat) := scrKey t.scrId (base + 128 * (k % cnt))
     let mirrored (m : Bytes) (put get : Nat) : Bytes := (m.stored (desc + 32) 4 put).stored (desc + 48) 4 get
     2 ≤ cnt → cnt ≤ 1024 → base % 128 = 0 → base + 128 * cnt ≤ t.scr → s.mem.poisonAt desc 8 = none →
     (s.Issues q (.ringput d p n g) → q.acts (.ringput d p n g) → occ < cnt → s.pinned (entry r.put) 128 = false → q.Performed (.ringput d p n g) False →
       let put := (r.put + 1) % 2 ^ 32
       ∃ u h, exec (.ringput d p n g) s = .next u ∧ u.groups.get? q.gid = some h ∧ q.g.RegsOnly h ∧ q.Leaves h ∧
         q.GoesOn (.ringput d p n g) h ∧ q.PWritten (.ringput d p n g) (toP p fun _ _ => true) h ∧
         (∃ t', u.teams.get? q.g.team = some t' ∧ t'.rings.getD n.toNat r = { put := put, get := r.get } ∧ t'.holder = t.holder) ∧
         u.byte = mirrored (Bytes.storedAll s.byte 4 ((List.range 32).map (fun l =>
           (entry r.put + 16 * l, if q.takes (.ringput d p n g) l then (q.g.vget d.toNat l).toNat else 0)))) put r.get) ∧
     (s.Issues q (.ringget d p n g) → q.acts (.ringget d p n g) → 0 < occ →
       (∀ l < 32, q.takes (.ringget d p n g) l = true → s.mem.poisonAt (entry r.get + 16 * l) 4 = none) →
       let get := (r.get + 1) % 2 ^ 32
       ∃ u h, exec (.ringget d p n g) s = .next u ∧ u.groups.get? q.gid = some h ∧ q.g.RegsOnly h ∧ q.Leaves h ∧
         q.GoesOn (.ringget d p n g) h ∧ q.g.sameS h ∧
         (∀ l < 32, ∀ k, h.vget k l = if q.takes (.ringget d p n g) l ∧ k = d.toNat
           then BitVec.ofNat 32 (Bytes.num s.byte (entry r.get + 16 * l) 4) else q.g.vget k l) ∧
         (∀ l < 32, ∀ k, h.pget k l = if q.takes (.ringget d p n g) l ∧ k = p.toNat ∧ k ≠ 0 then true else q.g.pget k l) ∧
         (∃ t', u.teams.get? q.g.team = some t' ∧ t'.rings.getD n.toNat r = { put := r.put, get := get } ∧ t'.holder = t.holder) ∧
         u.byte = mirrored s.byte r.put get) ∧
     (s.Issues q (.ringput d p n g) → q.acts (.ringput d p n g) → cnt ≤ occ → q.g.posted = none → (s.gridOf q.g).pre ≠ .pending →
       ∃ u h, exec (.ringput d p n g) s = .next u ∧ u.groups.get? q.gid = some h ∧ q.Waits (.ringput d p n g) h (.ring n.toNat true) ∧
         s.SameBut u q.gid ∧ s.sameBytes u) ∧
     (s.Issues q (.ringget d p n g) → q.acts (.ringget d p n g) → occ = 0 → q.g.posted = none → (s.gridOf q.g).pre ≠ .pending →
       ∃ u h, exec (.ringget d p n g) s = .next u ∧ u.groups.get? q.gid = some h ∧ q.Waits (.ringget d p n g) h (.ring n.toNat false) ∧
         s.SameBut u q.gid ∧ s.sameBytes u))

/-! ## Copies, the matrix engine and power (04 R67 to R83; 07 R138, R140; 09 R180, R181; 13 R249; 22 R316 to R320; 24 R350) -/

/-- BCOPY, BCAST and STAGE read their descriptor, and when it passes its checks their copies join the group's open batch: one to an
address, one for each team of the set at an offset of its scratchpad, one that the schedule names for the team's next turn. No free entry
among 32, and no grant above 64 KiB, hold the whole path back, as does an earlier store of the group that waits at a pin or a GO word (09
R180, R181; 22 R316 to R319). -/
def Obligations.CopiesAreAccepted : Prop :=
  (∀ (s : State) (q : Turn) (a : BitVec 6) (g : BitVec 4) (k : Nat) (ps pd : List (Loc × Nat)) (b : Option Nat),
    s.Issues q (.bcopy a g) → q.acts (.bcopy a g) → q.g.noStores →
    let lane := lowest (q.takes (.bcopy a g))
    s.Block q.g lane (q.g.sget a.toNat).toNat 32 k →
    let src := Bytes.num s.byte k 8
    let dst := Bytes.num s.byte (k + 32) 8
    let n := Bytes.num s.byte (k + 64) 4
    Bytes.num s.byte (k + 96) 8 = 0 → n ≠ 0 → n % 16 = 0 → n ≤ 2 ^ 30 → src % 16 = 0 → dst % 16 = 0 →
    windowOf src ≠ .prv → windowOf src ≠ .clu → windowOf dst ≠ .prv →
    s.checkRangeBy (s.copyAcc q.g) q.g lane src n .load = .ok ps → s.checkRangeBy (s.copyAcc q.g) q.g lane dst n .store = .ok pd →
    checkBitmap (s.copyOwner q.g dst) n (Bytes.num s.byte (k + 80) 4) = .ok b →
    ∃ u, exec (.bcopy a g) s = .next u ∧ u.teams = s.teams ∧ q.Copies (.bcopy a g) s u n ps [(pd, b)]) ∧
  (∀ (s : State) (q : Turn) (a : BitVec 6) (g : BitVec 4) (k : Nat) (ps : List (Loc × Nat)) (b : Option Nat),
    s.Issues q (.bcast a g) → q.acts (.bcast a g) → q.g.kind = .team → q.g.noStores →
    let lane := lowest (q.takes (.bcast a g))
    s.Block q.g lane (q.g.sget a.toNat).toNat 32 k →
    let src := Bytes.num s.byte k 8
    let off := Bytes.num s.byte (k + 32) 8
    let n := Bytes.num s.byte (k + 64) 4
    let bm := Bytes.num s.byte (k + 80) 4
    Bytes.num s.byte (k + 96) 8 = 0 → n ≠ 0 → n % 16 = 0 → n ≤ 2 ^ 30 → src % 16 = 0 → off % 16 = 0 → off < 2 ^ 24 →
    windowOf src ≠ .prv → windowOf src ≠ .clu → s.checkRangeBy (s.copyAcc q.g) q.g lane src n .load = .ok ps →
    off + n ≤ (s.teamOf q.g).scr → checkBitmap (s.teamOf q.g) n bm = .ok b →
    ∃ u, exec (.bcast a g) s = .next u ∧ u.teams = s.teams ∧ q.Copies (.bcast a g) s u n ps
      ((s.setTeams q.g).map (fun t => ([(.here (scrKey t.scrId off), n)], b.map (fun _ => scrKey t.scrId bm))))) ∧
  (∀ (s : State) (q : Turn) (i : Instr) (a : BitVec 6) (g : BitVec 4) (k : Nat), i = .bcopy a g ∨ i = .bcast a g → s.Issues q i → q.acts i →
    s.Block q.g (lowest (q.takes i)) (q.g.sget a.toNat).toNat 32 k → s.storeHeld q →
    ∃ u h, exec i s = .next u ∧ u.groups.get? q.gid = some h ∧ q.WaitsAll i h (.pin []) ∧ u.eng = s.eng ∧ s.sameBytes u) ∧
  ∀ (s : State) (q : Turn) (g : BitVec 4) (k : Nat) (ps pd : List (Loc × Nat)) (b : Option Nat) (t : Team),
    s.Issues q (.stage g) → q.acts (.stage g) → q.g.noStores → q.g.kind = .team → s.teams.get? q.g.team = some t →
    let gr := s.gridOf q.g
    let lane := lowest (q.takes (.stage g))
    gr.r.schedp ≠ 0 →
    s.Block q.g lane ((gr.r.schedp + 0x20 + 32 * (t.cursor % gr.cs.n)) % 2 ^ 64) 32 k →
    let src := (Bytes.num s.byte k 8 + t.index * gr.cs.teamStride + t.cursor / gr.cs.n * gr.cs.roundStride) % 2 ^ 64
    let off := Bytes.num s.byte (k + 32) 4
    let n := Bytes.num s.byte (k + 48) 4
    let dst := 0xFE00000000000000 + q.g.core * 2 ^ 24 + off
    Bytes.num s.byte (k + 80) 12 = 0 → n ≠ 0 → n % 16 = 0 → n ≤ 786432 → src % 16 = 0 → dst % 16 = 0 →
    windowOf src ≠ .prv → windowOf src ≠ .clu → windowOf dst = .scr → off + n ≤ t.scr →
    s.checkRangeBy (s.copyAcc q.g) q.g lane src n .load = .ok ps → s.checkRangeBy (s.copyAcc q.g) q.g lane dst n .store = .ok pd →
    checkBitmap t n (Bytes.num s.byte (k + 64) 4) = .ok b →
    ∃ u, exec (.stage g) s = .next u ∧ u.teams.get? q.g.team = some { t with cursor := t.cursor + 1 } ∧
      q.Copies (.stage g) s u n ps [(pd, b)]

/-- LDA makes one copy of 16 bytes for each lane that takes part; COPY_CHUNK_WRITTEN writes one chunk of up to 512 bytes of a copy, sets
its bit of the bitmap, and writes nothing else; a chunk whose destination is pinned stays as it is, and a bit whose word is pinned is set
later (04 R75; 07 R138, R140; 24 R350). POWER_GRANT gives a die's oldest request its grant within the limit that PWR_GRANTS sets, 0 read
as 1; POWER_GRANT_RETURN takes back that of an engine idle for 2 us (04 R83; 13 R249; that the limit never exceeds the 48 of 13 R249, and
when an engine is idle, are the model's: log 15, log 107). -/
def Obligations.CopiesWriteTheirChunks : Prop :=
  ((∀ (s : State) (q : Turn) (d a : BitVec 7) (g : BitVec 4) (src dst : Nat → Loc), s.Issues q (.lda d a g) →
     (∀ l < 32, q.takes (.lda d a g) l = true →
       windowOf (q.w d l).toNat ≠ .prv ∧ windowOf (q.w a l).toNat ≠ .prv ∧ windowOf (q.w a l).toNat ≠ .clu ∧
       s.checkAddrBy (s.copyAcc q.g) q.g l (q.w a l).toNat 16 16 .load = .ok (src l) ∧
       s.checkAddrBy (s.copyAcc q.g) q.g l (q.w d l).toNat 16 16 .store = .ok (dst l)) →
     ∃ u ks, exec (.lda d a g) s = .next u ∧ u.groups = (q.onward (.lda d a g) s).groups ∧ s.sameBytes u ∧
       u.eng.copies = s.eng.copies ++ ks ∧ ks.length = (q.parts (.lda d a g)).length ∧
       ∀ (j l : Nat) (k : Copy), (q.parts (.lda d a g))[j]? = some l → ks[j]? = some k →
         k.gid = q.gid ∧ k.n = 16 ∧ k.cap = none ∧ k.left = [0] ∧ k.sent = [] ∧ k.bits = [] ∧ k.batch = q.g.sealSeq ∧ k.bitmap = none ∧
         ∃ salt, k.src = [{ key := (src l).key salt, len := 16 }] ∧ k.dst = [{ key := (dst l).key salt, len := 16 }]) ∧
   ∀ (s : State) (c : Copy) (chunk a b : Nat) (g : Group), s.eng.copies.find? (fun x => x.id == c.id) = some c → chunk ∈ c.left →
     c.left.Nodup → c.cap = none → c.src = [{ key := a, len := c.n }] → c.dst = [{ key := b, len := c.n }] →
     s.groups.get? c.gid = some g → g.place = .resident → s.active (s.gridOf g) = true → chunk ∉ c.bits → s.storesBefore c.gid c.id = false →
     let held : Prop := ∃ k, c.bitmap = some k ∧ s.pinned (k + 32 * (chunk / 64)) 8 = true
     let off := 512 * chunk
     let n := min 512 (c.n - off)
     off < c.n → isAway (b + 4 * off) = false → (isAway (a + 4 * off) = true → s.channelOpen 0 = true ∧ s.stalledBy c.id 32 = false) →
     (s.pinned (b + 4 * off) n = true → exec (.copyChunkWritten c.id chunk) s = .next s) ∧
     (s.pinned (b + 4 * off) n = false →
       let copied : Bytes := fun j => if within (b + 4 * off) n j then s.byte (a + (j - b)) else s.byte j
       ∃ u, exec (.copyChunkWritten c.id chunk) s = .next u ∧
         (held ∨ c.bitmap = none → u.byte = copied) ∧
         (∀ k, c.bitmap = some k → ¬ held → u.byte =
           copied.stored (k + 32 * (chunk / 64)) 8 (copied.num (k + 32 * (chunk / 64)) 8 ||| 2 ^ (chunk % 64))) ∧
         (∀ x ∈ u.eng.copies, x.id = c.id → x.left = c.left.erase chunk ∧ x.sent = c.sent ∧ (chunk ∈ x.bits ↔ held)) ∧
         (c.left = [chunk] → c.sent = [] → c.bits = [] → ¬ held → ∀ x ∈ u.eng.copies, x.id ≠ c.id) ∧
         (∀ x, x.id ≠ c.id → (x ∈ u.eng.copies ↔ x ∈ s.eng.copies)) ∧ u.groups = s.groups ∧ u.teams = s.teams ∧ u.grids = s.grids)) ∧
  ((∀ (s : State) (die : Nat) (x : Nat × Holder × Nat), s.eng.asking.find? (fun y => y.1 == die) = some x →
     let limit := max 1 (min 48 ((s.ctlGet .pwrGrants die).toNat % 256))
     let held := (s.eng.grants.filter (fun y => y.1 == die)).length
     (held < limit → ∃ e gs, exec (.powerGrant die) s = .next { s with
         eng := e
         groups := gs } ∧ e.grants = s.eng.grants ++ [(die, x.2.1)] ∧ e.asking = s.eng.asking.erase x ∧ e.ops = s.eng.ops ∧
       e.copies = s.eng.copies ∧
       ∀ (gid : Nat), ((gs : Store Group).get? gid).map (fun (g : Group) => { g with waits := g.waits.map (fun (w : Wait) => { w with tried := [] }) }) =
         (s.groups.get? gid).map (fun (g : Group) => { g with waits := g.waits.map (fun (w : Wait) => { w with tried := [] }) })) ∧
     (limit ≤ held → exec (.powerGrant die) s = .next s)) ∧
   ∀ (s : State) (core : Nat), (core / 48, Holder.engine core) ∈ s.eng.grants → (∀ o ∈ s.eng.ops, o.core = core → o.complete = true) →
     (∀ e ∈ s.groups, e.2.core = core → ∀ w ∈ e.2.waits, ∀ i, w.why ≠ .mxAccept i) → ∀ since, s.eng.idle.get? core = some since →
     (since + 4800 ≤ s.env.cycle → ∃ e, exec (.powerGrantReturn core) s = .next { s with eng := e } ∧
       e.grants = s.eng.grants.filter (fun x => x.2 != .engine core) ∧ e.ops = s.eng.ops ∧ e.copies = s.eng.copies) ∧
     (s.env.cycle < since + 4800 → exec (.powerGrantReturn core) s = .next s))

/-- MXISSUE that passes its checks joins its team's queue and captures its operands: A and B element by element, plain or transposed, the
scale words, and the fields of its block. It waits while the engine holds no grant, eight issues stand before it, or an earlier store of
the group waits, and without the baton it ends its group with BATON_NOT_HELD (code 0x10). MX_ACCEPT accepts one that has waited, with the
block's address as it was read when it issued (02 R38; 04 R68 to R74, R83). -/
def Obligations.IssuesAreCaptured : Prop :=
  (∀ (s : State) (q : Turn) (d : BitVec 7) (a : BitVec 6) (n : BitVec 2) (g : BitVec 4) (t : Team) (kind : MxKind)
      (rows : List (Bool × List (List Seg))) (flag : Bool) (blk : Nat), s.Feeds q (.mxissue d a n g) t → q.g.noStores →
    let i : Instr := .mxissue d a n g
    let lane := lowest (q.takes i)
    let w := Bytes.num s.byte blk 8
    let pa := Bytes.num s.byte (blk + 32) 8
    let sa := Bytes.num s.byte (blk + 64) 4
    let sb := Bytes.num s.byte (blk + 80) 4
    let pb := Bytes.num s.byte (blk + 96) 8
    let k := w / 2 ^ 32 % 2 ^ 16
    let mode (bit : Nat) : Bool := w / 2 ^ bit % 2 == 1
    s.Block q.g lane (q.g.sget a.toNat).toNat 64 blk →
    s.mxIssueCheck q.g lane d.toNat (q.g.sget a.toNat).toNat n.toNat = .ok (kind, rows, flag) →
    (∃ ea eb za zb, kind = .issue (w % 16) (w / 16 % 16) (w / 256 % 16) (Bytes.num s.byte (blk + 128) 8 % 16) k (!mode 14) n.toNat za zb ea eb 0 ∧
      flag = mode 17 ∧ (za = if mode 15 then some ((List.range 32).map (fun l => q.g.vget d.toNat l)) else none) ∧
      (zb = if mode 16 then some ((List.range 32).map (fun l => q.g.vget (d.toNat + 1) l)) else none) ∧
      (∀ (row : Nat → Nat) (rows len : Nat), rows = (if mode 12 then k else 32) → len = (if mode 12 then 32 else k) * elemBits (w % 16) / 8 →
        (∀ r < rows, s.checkRange q.g lane ((pa + r * sa) % 2 ^ 64) len .load = .ok [(.here (row r), len)]) →
        ∀ r < 32, ∀ x < k, ea.getD (r * k + x) 0 = Bytes.num s.byte (if mode 12 then row x else row r) len /
          2 ^ (elemBits (w % 16) * (if mode 12 then r else x)) % 2 ^ elemBits (w % 16)) ∧
      (∀ (row : Nat → Nat) (rows len : Nat), rows = (if mode 13 then 32 else k) → len = (if mode 13 then k else 32) * elemBits (w / 16 % 16) / 8 →
        (∀ r < rows, s.checkRange q.g lane ((pb + r * sb) % 2 ^ 64) len .load = .ok [(.here (row r), len)]) →
        ∀ r < 32, ∀ x < k, eb.getD (r * k + x) 0 = Bytes.num s.byte (if mode 13 then row r else row x) len /
          2 ^ (elemBits (w / 16 % 16) * (if mode 13 then x else r)) % 2 ^ elemBits (w / 16 % 16))) ∧
    let room := (q.g.core / 48, Holder.engine q.g.core) ∈ s.eng.grants ∧
      ((s.mxQueue q.g.team).filter (fun o => match o.kind with | .issue .. => true | _ => false)).length < 8
    (room → ∃ u, exec i s = .next u ∧ q.Queued s u t kind ∧ u.groups = (q.onward i s).groups) ∧
    (¬ room → ∃ u h, exec i s = .next u ∧ u.groups.get? q.gid = some h ∧ q.Waits i h (.mxAccept i) ∧ u.eng.ops = s.eng.ops ∧
      u.eng.grants = s.eng.grants ∧ u.teams = s.teams ∧ u.mem = s.mem)) ∧
  (∀ (s : State) (q : Turn) (d : BitVec 7) (a : BitVec 6) (n : BitVec 2) (g : BitVec 4) (t : Team), s.Feeds q (.mxissue d a n g) t →
    s.storeHeld q → ∃ u h, exec (.mxissue d a n g) s = .next u ∧ u.groups.get? q.gid = some h ∧
      q.Waits (.mxissue d a n g) h (.mxAccept (.mxissue d a n g)) ∧ u.eng.ops = s.eng.ops ∧ u.teams = s.teams ∧ u.mem = s.mem) ∧
  (∀ (s : State) (q : Turn) (d : BitVec 7) (a : BitVec 6) (n : BitVec 2) (g : BitVec 4) (t : Team), s.Issues q (.mxissue d a n g) →
    q.acts (.mxissue d a n g) → q.g.kind = .team → s.teams.get? q.g.team = some t → t.holder ≠ some q.gid →
    exec (.mxissue d a n g) s = .next (q.ends s (lowest (q.takes (.mxissue d a n g))) { code := 0x10, addr := 0, detail := 0x30 + n.toNat })) ∧
  ∀ (s : State) (gid : Nat) (h : Group) (w : Wait) (d : BitVec 7) (a : BitVec 6) (n : BitVec 2) (g : BitVec 4) (t : Team) (kind : MxKind)
      (rows : List (Bool × List (List Seg))) (flag : Bool), s.groups.get? gid = some h → h.waits = [w] → w.why = .mxAccept (.mxissue d a n g) → h.kind = .team →
    s.teams.get? h.team = some t → t.fed = true → s.active (s.gridOf h) = true →
    (h.core / 48, Holder.engine h.core) ∈ s.eng.grants →
    ((s.mxQueue h.team).filter (fun o => match o.kind with | .issue .. => true | _ => false)).length < 8 →
    (∀ r ∈ readsOf (.mxissue d a n g), r ∉ h.poison) →
    s.mxIssueCheck h (lowest (fun l => w.lanes.getLsbD l)) d.toNat (if a = 0 then 0 else (w.snap.getD a.toNat 0).toNat) n.toNat =
      .ok (kind, rows, flag) → w.lanes ≠ 0 →
    ∃ u h', exec (.mxAccept gid) s = .next u ∧ u.groups.get? gid = some h' ∧ h'.waits = [] ∧ h.sameV h' ∧ h.sameS h' ∧ h.sameP h' ∧
      (∀ l < 32, h'.pcOf l = if w.lanes.getLsbD l then (w.pc + 4) % 2 ^ 32 else h.pcOf l) ∧
      (∃ o, u.eng.ops = s.eng.ops ++ [o] ∧ o.kind = kind ∧ o.rows = rows ∧ o.seq = t.mxSeq) ∧ s.sameBytes u

/-- The other baton instructions: MXCHAIN opens a chain and MXEND closes it, and the wrong order of the two is MX_PARAM (code 0x0F);
MXZERO, MXWR and MXRD act at once when the engine has no work of their team, and otherwise stand behind it, with their tile and columns,
the lanes that take part, and for MXWR the registers as they were read; MXDRAIN that passes its checks stands in the queue; MXWAIT goes on
when all work accepted before it is done (04 R69, R76 to R79, R82). -/
def Obligations.TilesAndChains : Prop :=
  (∀ (s : State) (q : Turn) (g : BitVec 4) (t : Team), s.Feeds q (.mxchain g) t →
    (t.chain = none → ∃ u c, exec (.mxchain g) s = .next u ∧ u.groups = (q.onward (.mxchain g) s).groups ∧ u.mem = s.mem ∧ u.eng = s.eng ∧
      u.teams.get? q.g.team = some { t with chain := some c, fed := true }) ∧
    (t.chain ≠ none → exec (.mxchain g) s = .next (q.ends s (lowest (q.takes (.mxchain g))) { code := 0x0F, addr := 0, detail := 0x200 }))) ∧
  (∀ (s : State) (q : Turn) (g : BitVec 4) (t : Team), s.Feeds q (.mxend g) t →
    (t.chain ≠ none → (s.eng.ops.map (fun o => (o.team, o.seq))).Nodup → ∃ u, exec (.mxend g) s = .next u ∧ u.groups = (q.onward (.mxend g) s).groups ∧ u.mem = s.mem ∧
      u.mxQueue q.g.team = s.mxQueue q.g.team ∧ u.teams.get? q.g.team = some { t with chain := none, fed := true }) ∧
    (t.chain = none → exec (.mxend g) s = .next (q.ends s (lowest (q.takes (.mxend g))) { code := 0x0F, addr := 0, detail := 0x200 }))) ∧
  (∀ (s : State) (q : Turn) (tile g : BitVec 4) (t : Team), s.Feeds q (.mxzero tile g) t →
    (s.mxQueue q.g.team = [] → ∃ u, exec (.mxzero tile g) s = .next u ∧ u.groups = (q.onward (.mxzero tile g) s).groups ∧
      u.byte = (fun j => if within (tileKey t.tileId tile.toNat 0 0) 4096 j then 0 else s.byte j) ∧ u.mxQueue q.g.team = [] ∧
      ∃ t', u.teams.get? q.g.team = some t' ∧ t'.poisonCols = t.poisonCols.filter (fun c => c / 4 != tile.toNat)) ∧
    (s.engineWorks q.g.team → ∃ u, exec (.mxzero tile g) s = .next u ∧ q.Queued s u t (.zero tile.toNat) ∧
      u.groups = (q.onward (.mxzero tile g) s).groups)) ∧
  (∀ (s : State) (q : Turn) (d : BitVec 7) (c : BitVec 2) (tile g : BitVec 4) (t : Team), s.Feeds q (.mxwr d c tile g) t →
    (s.mxQueue q.g.team = [] → ∃ u, exec (.mxwr d c tile g) s = .next u ∧ u.groups = (q.onward (.mxwr d c tile g) s).groups ∧
      u.byte = Bytes.storedAll s.byte 4 ((List.range 256).filterMap (fun x => if q.takes (.mxwr d c tile g) (x / 8)
        then some (tileKey t.tileId tile.toNat (x / 8) (8 * c.toNat + x % 8), (q.g.vget (d.toNat + x % 8) (x / 8)).toNat) else none))) ∧
    (s.engineWorks q.g.team → ∃ u lanes, exec (.mxwr d c tile g) s = .next u ∧
      (∀ l < 32, lanes.getLsbD l = q.takes (.mxwr d c tile g) l) ∧ q.Queued s u t (.wr tile.toNat c.toNat lanes
        ((q.parts (.mxwr d c tile g)).map (fun l => (List.range 8).map (fun m => (l, m, q.g.vget (d.toNat + m) l)))).flatten) ∧ u.groups = (q.onward (.mxwr d c tile g) s).groups)) ∧
  (∀ (s : State) (q : Turn) (d : BitVec 7) (c : BitVec 2) (tile g : BitVec 4) (t : Team), s.Feeds q (.mxrd d c tile g) t →
    let i : Instr := .mxrd d c tile g
    (4 * tile.toNat + c.toNat ∈ t.poisonCols → exec i s = .next (q.ends s (lowest (q.takes i)) { code := 0x12, addr := 0, detail := 5 })) ∧
    (4 * tile.toNat + c.toNat ∉ t.poisonCols → (∀ p ∈ q.g.pend, p.id < s.env.fresh) → s.mxQueue q.g.team = [] → ∃ u h p, exec i s = .next u ∧
      u.groups.get? q.gid = some h ∧ q.Pending i h [p] ∧ p.src = .ready ∧ p.regs = (List.range 8).map (d.toNat + ·) ∧ p.sreg = none ∧
      p.writes = (List.range 256).filterMap (fun x => if q.takes i (x / 8) then some (d.toNat + x % 8, x / 8,
        BitVec.ofNat 32 (Bytes.num s.byte (tileKey t.tileId tile.toNat (x / 8) (8 * c.toNat + x % 8)) 4)) else none) ∧ s.sameBytes u) ∧
    (4 * tile.toNat + c.toNat ∉ t.poisonCols → s.engineWorks q.g.team → ∃ u h p, exec i s = .next u ∧ u.groups.get? q.gid = some h ∧
      q.Pending i h [p] ∧ p.src = .engine t.mxSeq ∧ p.regs = (List.range 8).map (d.toNat + ·) ∧ p.sreg = none ∧ p.bad = [] ∧
      (∀ l < 32, p.lanes.getLsbD l = q.takes i l) ∧ q.Queued s u t (.rd tile.toNat c.toNat d.toNat p.lanes p.id))) ∧
  (∀ (s : State) (q : Turn) (a : BitVec 6) (g : BitVec 4) (t : Team) (kind : MxKind), s.Feeds q (.mxdrain a g) t → q.g.noStores →
    s.mxDrainCheck q.g (lowest (q.takes (.mxdrain a g))) (q.g.sget a.toNat).toNat = .ok kind →
    ∃ u, exec (.mxdrain a g) s = .next u ∧ q.Queued s u t kind ∧ u.groups = (q.onward (.mxdrain a g) s).groups) ∧
  ∀ (s : State) (q : Turn) (g : BitVec 4), s.Issues q (.mxwait g) → q.acts (.mxwait g) →
    let upTo := (s.teamOf q.g).mxSeq
    (q.g.kind ≠ .team ∨ (∀ o ∈ s.mxQueue q.g.team, upTo ≤ o.seq) → exec (.mxwait g) s = .next (q.onward (.mxwait g) s)) ∧
    (q.g.kind = .team → (∃ o ∈ s.mxQueue q.g.team, o.seq < upTo) →
      ∃ h, exec (.mxwait g) s = .next ((s.setGroup q.gid h).useIds 1) ∧ q.Waits (.mxwait g) h (.engine upTo))

/-- The sum of a k-step: a NaN among the accumulator and the products, infinity times zero, a scale 0xFF, or infinities of both signs make
it the canonical NaN; otherwise an infinity makes it one of that sign; where all are finite, it is the exact real sum, rounded once to the
nearest, a scaled product below FP32's normal range being rounded first; and a sum that is exactly zero is +0 unless every term and the
accumulator are -0 (03 R63 to R66). MX_KSTEP_COMMIT adds the products of one k-step to every element of the first issue's tile: into FP32
accumulators the exact sum rounded once, into residue pairs the residue sum; the first step of an issue that overwrites starts from zero;
no other byte changes (03 R63 to R66; 04 R71, R74). MX_DRAIN_EXECUTE runs the first drain's program: STORE writes the 32 rows of a tile of
FP32 accumulators, element by element, and RELU before it makes negative elements 0 and a NaN the one NaN; a pinned output line holds the
drain back (03 R45; 04 R75, R80, R82; that STORE alone moves the bits of a NaN as they stand is the model's: log 107). A write that the T9
makes for itself stores its bytes at once where its address translates and no engine pins the line; at a pinned line, or behind an earlier
one to the same bytes, it waits and is made when the line is free; where the address does not translate it is dropped and counted (04 R75;
12 R387; that such writes wait in one order of their own is the model's: log 108). -/
def Obligations.TheEngineWorks : Prop :=
  (∀ (fa fb : Fmt) (acc : W32) (ps : List Product),
     (∀ p ∈ ps, p.a < 2 ^ (1 + fa.frac + fa.expo) ∧ p.b < 2 ^ (1 + fb.frac + fb.expo) ∧ p.sa.getD 0 < 256 ∧ p.sb.getD 0 < 256) →
     let r := mxSum (f32 acc) (ps.map (fun p => mxScale (fmulX (unpack fa p.a) (unpack fb p.b)) p.sa p.sb))
     let nan : Prop := Fmt.f32.isNan acc.toNat = true ∨ ∃ p ∈ ps, p.nan fa fb = true
     let inf (sign : Bool) : Prop := (Fmt.f32.isInf acc.toNat = true ∧ Fmt.f32.minus acc.toNat = sign) ∨ ∃ p ∈ ps, p.isInf fa fb sign = true
     let sum : Int := (ps.map (fun p => p.term fa fb)).sum + Fmt.f32.units acc.toNat * 2 ^ 403
     (nan ∨ inf false ∧ inf true → r = 0x7FC00000) ∧
     (¬ nan → inf false → ¬ inf true → r = 0x7F800000) ∧
     (¬ nan → inf true → ¬ inf false → r = 0xFF800000) ∧
     (Fmt.f32.isFinite acc.toNat = true → (∀ p ∈ ps, p.isNum fa fb = true ∧ p.tooLarge fa fb = false) →
       (floats .f32).Rounds .rne (ofRatio sum (2 ^ 403)) r.toNat ∧
       (sum = 0 → r = if acc = 0x80000000 ∧ (∀ p ∈ ps, p.term fa fb = 0 ∧ p.minus fa fb = true) then 0x80000000 else 0))) ∧
  (∀ (s : State) (team : Nat) (t : Team) (o : MxOp) (l : List MxOp) (fa fb facc tile k n done ks : Nat) (wipe : Bool) (sa sb : Option (List W32))
       (ea eb : List Nat), s.teams.get? team = some t → s.mxQueue team = o :: l →
     (s.eng.ops.map (fun o => (o.team, o.seq))).Nodup →
     o.kind = .issue fa fb facc tile k wipe n sa sb ea eb done → o.tainted = false → s.active (s.teamGrid t) = true →
     kStep fa fb facc = some ks → (l = [] ∨ done + 1 < k / ks) → (∀ e ∈ s.groups, e.2.team = team → e.2.place ≠ .saving) →
     ea.length = 32 * k → eb.length = 32 * k → (done + 1) * ks ≤ k →
     let a (i x : Nat) := ea.getD (i * k + done * ks + x) 0
     let b (j x : Nat) := eb.getD (j * k + done * ks + x) 0
     let cell (v i j : Nat) := tileKey t.tileId (tile + v) i j
     let old (v i j : Nat) : Nat := if wipe = true ∧ done = 0 then 0 else Bytes.num s.byte (cell v i j) 4
     let words (v : Nat) (f : Nat → Nat → Nat) := tileCells.map (fun p => (cell v p.1 p.2, f p.1 p.2))
     let sum (i j : Nat) : W32 := mxSum (f32 (BitVec.ofNat 32 (old 0 i j))) ((List.range ks).map (fun x =>
       mxScale (fmulX (unpack (mxFmt fa) (a i x)) (unpack (mxFmt fb) (b j x)))
         (scaleAt n sa i (done * ks + x)) (scaleAt n sb j (done * ks + x))))
     let pair (i j : Nat) : W64 := rzAdd (BitVec.ofNat 64 (old 1 i j * 2 ^ 32 + old 0 i j))
       (rzOf (((List.range ks).map (fun x => mxInt fa (a i x) * mxInt fb (b j x))).sum))
     ∃ u, exec (.mxKstepCommit team) s = .next u ∧ u.groups = s.groups ∧ u.grids = s.grids ∧
       (facc = 0 → u.byte = Bytes.storedAll s.byte 4 (words 0 (fun i j => (sum i j).toNat))) ∧
       (facc = 1 → u.byte = Bytes.storedAll s.byte 4
         (words 0 (fun i j => (pair i j).toNat % 2 ^ 32) ++ words 1 (fun i j => (pair i j).toNat / 2 ^ 32))) ∧
       ∀ o' ∈ u.mxQueue team, o'.seq = o.seq → o'.kind = .issue fa fb facc tile k wipe n sa sb ea eb (done + 1)) ∧
  (∀ (s : State) (team : Nat) (t : Team) (o : MxOp) (tile : Nat) (prog : List Nat) (data : List (Nat × List W32)) (out : List (List Seg))
       (row : Nat → Nat) (g : Group), s.teams.get? team = some t → s.mxQueue team = [o] → o.kind = .drain 0 tile prog data out →
     s.active (s.teamGrid t) = true → (∀ e ∈ s.groups, e.2.team = team → e.2.place ≠ .saving) →
     s.groups.get? o.gid = some g → g.place = .resident →
     out = (List.range 32).map (fun i => [{ key := row i, len := 128 }]) → (∀ i < 32, isAway (row i) = false) →
     (∀ c ∈ t.poisonCols, c / 4 ≠ tile) →
     ((∃ i < 32, s.pinned (row i) 128 = true) → exec (.mxDrainExecute team) s = .next s) ∧
     ((∀ i < 32, s.pinned (row i) 128 = false) → prog = [0xC000] ∨ prog = [0x7000, 0xC000] →
       let x (i j : Nat) : Nat :=
         let w := Bytes.num s.byte (tileKey t.tileId tile i j) 4
         if prog = [0xC000] then w else if 0x7F800000 < w % 2 ^ 31 then 0x7FC00000 else if 2 ^ 31 ≤ w then 0 else w
       ∃ u, exec (.mxDrainExecute team) s = .next u ∧ u.mxQueue team = [] ∧ u.groups = s.groups ∧ u.grids = s.grids ∧
         u.byte = Bytes.storedAll s.byte 4 (tileCells.map (fun p => (row p.1 + 16 * p.2, x p.1 p.2))))) ∧
  ((∀ (s : State) (a : Acc) (va n w k : Nat), s.translate a .store va = .ok (.here k) →
     let u := s.lateWrite a va n w
     (s.openTo k n → u.byte = Bytes.stored s.byte k n w ∧ u.msys.late = s.msys.late ∧ u.groups = s.groups) ∧
     (¬ s.openTo k n → s.sameBytes u ∧ u.groups = s.groups ∧
       u.msys.late = s.msys.late ++ [{ part := a.part, key := k, n := n, w := w, add := false }])) ∧
   (∀ (s : State) (a : Acc) (va n w : Nat) (f : FaultInfo), s.translate a .store va = .error f →
     (s.lateWrite a va n w).ctlGet .lateWriteDropped a.part = s.ctlGet .lateWriteDropped a.part + 1) ∧
   ∀ (s : State) (e : LateW), s.msys.late = [e] →
     (s.pinned e.key e.n = true → s.drainLate.byte = s.byte ∧ s.drainLate.msys.late = [e]) ∧
     (s.pinned e.key e.n = false → s.drainLate.msys.late = [] ∧ s.drainLate.byte = Bytes.stored s.byte e.key e.n
       (if e.add then (Bytes.num s.byte e.key e.n + e.w) % 256 ^ e.n else if e.most then max (Bytes.num s.byte e.key e.n) e.w else e.w)))

/-! ## Launches, grids, teams, tasks and parking (02 R23, R36, R39, R40, R44; 08 R144 to R165; 09 R168 to R179; 20 R300; 25 R384) -/

/-- LAUNCH and LAUNCHP, once the accesses of their lanes are performed (07 R130), put their record's address into their core's queue of
four, with a pending result, and the path goes on; a full queue holds the lanes. LAUNCH_ACCEPT takes the die's next entry: a record that
cannot be read or reported is dropped with id 0; otherwise its launch id lands, and a grid without holds or co-residence runs with its
tickets dealt to the dies (08 R145 to R149, R152; 24 R345). -/
def Obligations.LaunchesAreAccepted : Prop :=
  (∀ (s : State) (q : Turn) (d a : BitVec 6) (g : BitVec 4) (i : Instr) (pod : Bool),
    (i = .launch d a g ∧ pod = false) ∨ (i = .launchp d a g ∧ pod = true) → s.Issues q i → q.acts i → q.g.kind ≠ .callout →
    s.preempting q.g = false → (s.gridOf q.g).killed = false →
    let va := (q.g.sget a.toNat).toNat
    windowOf va = .glb → ∀ loc, s.checkAddr q.g (lowest (q.takes i)) va 128 128 .load = .ok loc →
    let mine := s.disp.lq.filter (fun e => e.core == q.g.core)
    (mine.length < 4 → q.Performed i (pod = true) → ∃ u h p, exec i s = .next u ∧ u.groups.get? q.gid = some h ∧ q.Pending i h [p] ∧
      p.sreg = (if d = 0 then none else some d.toNat) ∧ p.src = .launch ∧ p.bad = [] ∧ s.sameBytes u ∧ u.grids = s.grids ∧
      u.disp = { s.disp with lq := s.disp.lq ++ [{ core := q.g.core, addr := va, gid := q.gid, pend := p.id, pod := pod,
                                                   grid := q.g.grid, asid := (s.gridOf q.g).asid, strict := q.g.strict, task := q.g.kind == .task,
                                                   owner := if q.g.kind = .task then q.g.task else q.g.grid }] }) ∧
    (mine.length < 4 → ¬ q.Performed i (pod = true) → ∃ h, exec i s = .next ((s.setGroup q.gid h).useIds 1) ∧ q.Waits i h (.fence pod)) ∧
    (4 ≤ mine.length → ∃ h, exec i s = .next ((s.setGroup q.gid h).useIds 1) ∧ q.Waits i h .launch)) ∧
  ∀ (s : State) (die : Nat) (e : LEntry) (gr : Grid), s.nextAwaiting die = none → s.nextEntry die = some e →
    s.grids.get? e.grid = some gr →
    let acc : Acc := { gr.acc e.grid with
      asid := e.asid
      strict := e.strict
      task := e.task
      owner := e.owner }
    let own : Acc := { acc with strict := false }
    let landed (u : State) (id : Nat) : Prop := ∀ g p, s.groups.get? e.gid = some g → p ∈ g.pend → p.id = e.pend →
      ∃ h, u.groups.get? e.gid = some h ∧ { p with src := .ready, swrite := BitVec.ofNat 64 id } ∈ h.pend
    (∀ f, s.readVa acc e.addr 128 128 = .error f → ∃ u, exec (.launchAccept die) s = .next u ∧ landed u 0 ∧ u.grids = s.grids ∧
      s.sameBytes u ∧ u.ctlGet .dispLaunchDropped 0 = s.ctlGet .dispLaunchDropped 0 + 1) ∧
    ∀ w, s.readVa acc e.addr 128 128 = .ok w →
      let r := recordOf e.addr w
      let id := s.self * 2 ^ 52 + s.disp.seq % 2 ^ 52
      let s0 := (s.sawAll acc [(e.addr, 128)]).useFree 1
      let s1 := ((s0.lateWrite own r.cw 8 0).lateWrite own (e.addr + 0x70) 8 id).lateWords own r.fa (List.replicate 8 0)
      (s.writable own r.cw 8 8 = false ∨ s.writable own r.fa 2112 64 = false →
        ∃ u, exec (.launchAccept die) s = .next u ∧ landed u 0 ∧ u.grids = s.grids ∧ s.sameBytes u) ∧
      (s.writable own r.cw 8 8 = true → s.writable own r.fa 2112 64 = true → e.pod = false → r.pod = false → r.holdp = 0 →
        r.coRes = false → ∀ h cs, s1.launchCheck acc w r true = .ok (h, cs) →
        ∃ u x, exec (.launchAccept die) s = .next u ∧ landed u id ∧ u.grids.get? id = some x ∧ x.state = .runs ∧ x.r = r ∧ x.h = h ∧
          x.cs = cs ∧ x.status = 0 ∧ x.child = true ∧ x.retired = 0 ∧
          x.tickets = s.dealDies gr.part (0, (r.x * r.y * r.z + r.cset - 1) / r.cset) ∧
          u.disp.seq = s.disp.seq + 1 ∧ u.disp.lq = s.disp.lq.erase e ∧ ∀ j, j ≠ id → u.grids.get? j = s.grids.get? j)

/-- The pod-wide start: a named part that receives a record without holds or co-residence reserves and answers READY, and one that cannot
answers REFUSE and forgets it; the launching part commits when every part is ready, and rolls back when one refuses or 50 us have passed;
COMMIT starts dispatch on a named part and ROLLBACK releases it; what goes to every named part is one message, which the switches copy; a
status that the launching part writes waits while its line is pinned (04 R75; 08 R150, R151; 14 R261, R262; the messages' words are the
model's: log 34). -/
def Obligations.ThePodWideStart : Prop :=
  let sent (s u : State) (dest op : Nat) (words : List Nat) (data : Option Nat) : Prop :=
    ∃ l : List Msg, (∀ m ∈ l, m.vc = 0) ∧
      u.fab.sent = s.fab.sent ++ l ++ [{ dest := dest, vc := 4, op := op, words := words, data := data, src := s.self }]
  (∀ (s : State) (launcher id asid root : Nat) (record : List Nat) (sp : Nat × Space), s.grids.get? id = none → id / 2 ^ 52 = launcher →
    s.mmu.spaces.find? (fun e => e.1 % 65536 == asid % 65536 && e.2.root == root) = some sp → (s.ctlGet .fabDomain 0).getLsbD 63 = true →
    let w := (record.drop 1).zipIdx.foldl (fun x q => x + q.1 % 2 ^ 64 * 2 ^ (64 * q.2)) 0
    let r := recordOf (record.headD 0) w
    let acc : Acc := { place := 204, core := 4096, asid := asid, root := root, part := sp.2.part, strict := false, task := false, owner := id }
    let go := exec (.launchMulticast launcher id asid root record) s
    r.holdp = 0 → r.coRes = false →
    (∀ x, (s.useFree 1).launchCheck acc w r true = .ok x → ∃ u g, go = .next u ∧ u.grids.get? id = some g ∧ g.state = .reserved ∧ g.launcher = false ∧
      g.r = r ∧ g.h = x.1 ∧ sent s u launcher 7 [id, s.self] none ∧ s.sameBytes u ∧ u.groups = s.groups) ∧
    (∀ f, (s.useFree 1).launchCheck acc w r true = .error f → ∃ u, go = .next u ∧ u.grids.get? id = none ∧ sent s u launcher 8 [id, s.self, 0] none ∧
      s.sameBytes u ∧ u.groups = s.groups)) ∧
  (∀ (s : State) (id part : Nat) (g : Grid), s.grids.get? id = some g → g.state = .replies → g.launcher = true → part ∈ s.otherParts g →
    (∀ r ∈ g.replies, r.1 ≠ part) →
    let all := ∀ i < g.r.partCount, g.r.firstPart + i = part ∨ (g.r.firstPart + i, 1) ∈ g.replies
    ∃ u g', exec (.ready id part) s = .next u ∧ u.grids.get? id = some g' ∧ g'.replies = g.replies ++ [(part, 1)] ∧ u.groups = s.groups ∧
      (all → g'.state = .runs ∧ sent s u switches 5 [id] (some 0)) ∧ (¬ all → g'.state = .replies ∧ u.fab = s.fab)) ∧
  (∀ (s : State) (id part : Nat) (g : Grid) (i : Instr), s.grids.get? id = some g → g.state = .replies → g.launcher = true → g.gang = false →
    g.cancelled = false → (i = .refuse id part 0 ∧ part ∈ s.otherParts g ∨ i = .launchpTimeout id ∧ g.sent + 120000 ≤ s.env.cycle) →
    ∃ u g', exec i s = .next u ∧ u.grids.get? id = some g' ∧ g'.state = .done ∧ g'.status = 4 ∧ u.groups = s.groups ∧
      (s.otherParts g ≠ [] → ∃ l, u.fab.sent = s.fab.sent ++ [{ dest := switches, vc := 4, op := 6, words := [id], data := some 0, src := s.self }] ++ l) ∧
      (∀ k, s.translate (g.acc id) .store g.r.cw = .ok (.here k) → s.openTo k 8 → Bytes.num u.byte k 8 = (4 * 2 ^ 56 + g.count) % 2 ^ 64)) ∧
  (∀ (s : State) (id : Nat) (g : Grid), s.grids.get? id = some g → g.launcher = false → g.state = .reserved →
    (∃ u, exec (.commit id) s = .next u ∧ u.grids = s.grids.set id { g with state := .runs } ∧ u.mem = s.mem ∧ u.groups = s.groups) ∧
    ∃ u, exec (.rollback id) s = .next u ∧ u.grids = s.grids.erase id ∧ u.mem = s.mem ∧ u.groups = s.groups ∧
      ∀ x ∈ u.mmu.held, ¬ (x.task = false ∧ x.owner = id))

/-- TEAM_DISPATCH, where on no core of the set a task or call-out group of that priority or a higher one comes first, takes the next
ticket of a core's die, or from a reservation the places of the core's set, and counts the teams; TEAM_ADMIT makes the team: its
scratchpad's first 128 bytes are 0, and each group begins with all lanes live at its role's entry, with its budget, s63 holding the
argument pointer and s62 the end of its private memory (02 R20, R21, R23, R35; 05 R87; 08 R153, R167; 09 R172, R177). Where in the
context's private pool a team's private memory lies, the lowest place with room and in it 32 lanes' bytes for each group in order, is the
model's (log 26, log 27). -/
def Obligations.TeamsBegin : Prop :=
  (∀ (s : State) (core id : Nat) (g : Grid), s.grids.get? id = some g → s.dispatches g = true → core ∈ s.coresOf g.part →
    s.itemFirst core g.r.prio = false →
    (∀ c, g.r.coRes = false → g.r.cset = 1 → g.tickets.getD (core / 48) (0, 0) = c → c.1 < c.2 → c.1 < g.teams →
      ∀ q0, s.fit g core = some q0 → exec (.teamDispatch core id) s = .next (({ s with
        grids := s.grids.set id { g with tickets := g.tickets.set (core / 48) (c.1 + 1, c.2) }
        disp := { s.disp with admits := s.disp.admits ++ [(4 * core + q0, id, c.1)] } } : State).count .dispTeamsStarted 0 1)) ∧
    (∀ r, g.r.coRes = true → g.reserved.find? (fun x => x.2 / 4 == core) = some r →
      let set := g.reserved.filter (fun x => decide (x.1 / g.r.cset = r.1 / g.r.cset))
      (∀ x ∈ set, s.itemFirst (x.2 / 4) g.r.prio = false) → exec (.teamDispatch core id) s = .next (({ s with
        grids := s.grids.set id { g with reserved := g.reserved.filter (fun x => decide (x.1 / g.r.cset ≠ r.1 / g.r.cset)) }
        disp := { s.disp with admits := s.disp.admits ++ set.map (fun x => (x.2, id, x.1)) } } : State).count .dispTeamsStarted 0 set.length))) ∧
  ∀ (s : State) (core id index win : Nat) (g : Grid) (a : Nat × Nat × Nat), s.grids.get? id = some g → s.active g = true → g.pre = .none →
    s.disp.admits.find? (fun x => x.1 / 4 == core && x.2.1 == id && x.2.2 == index) = some a → g.shades = [] →
    let s1 : State := { s with disp := { s.disp with admits := s.disp.admits.erase a } }
    g.mates index ((s.disp.admits.filter (fun x => x.2.1 == id)).map (fun x => (x.2.2, x.1))) = [(index, a.1)] →
    s.itemFirst core g.r.prio = false → s1.privFree g g.privateBytes = some win → s1.fitsAt g core (a.1 % 4) = true →
    ∃ u t team, exec (.teamAdmit core id index) s = .next u ∧ u.teams.get? team = some t ∧ s.env.fresh ≤ team ∧ t.grid = id ∧ t.index = index ∧
      t.core = core ∧ t.scr = g.r.scr ∧ t.tiles = g.r.tiles ∧ t.groups = g.r.groups ∧ t.win = win ∧ t.holder = none ∧ t.batonQ = [] ∧ t.gone = [] ∧
      (∀ n, t.rings.getD n { put := 0, get := 0 } = { put := 0, get := 0 }) ∧ u.disp.admits = s.disp.admits.erase a ∧
      (∀ j < 128, j < g.r.scr → u.byte (scrKey t.scrId j) = 0) ∧
      (∀ i < g.r.groups, ∃ gid h, s.env.fresh ≤ gid ∧ u.groups.get? gid = some h ∧ h.kind = .team ∧ h.grid = id ∧ h.team = team ∧ h.index = i ∧
        h.core = core ∧ h.place = .resident ∧ h.live = BitVec.allOnes 32 ∧ h.role = g.h.firstRole i ∧ h.budget = g.budget h.role ∧
        h.pend = [] ∧ h.waits = [] ∧ h.fpmode = 0 ∧ h.scene = 0 ∧ h.win = win + 32 * g.r.priv * i ∧ h.stride = g.r.priv ∧ (∀ r l, h.vget r l = 0) ∧
        (∀ n, h.sget n = if n = 62 then BitVec.ofNat 64 (0xFC00000000000000 + g.r.priv) else if n = 63 then BitVec.ofNat 64 g.r.argp else 0) ∧
        (∀ l < 32, h.pcOf l = (if g.h.roles then g.h.entry h.role else g.r.entry) % 2 ^ 32)) ∧
      ∀ j h, s.groups.get? j = some h → j < s.env.fresh → u.groups.get? j = some h

/-- TEAM_RETIRE: a team whose groups are all gone and whose engine work is done leaves and is counted in the completion word; with the
last team of a grid whose tickets no other part can send more of, the grid's holds here are released. FINAL_STATUS: when nothing of a grid
is left here and every other part is done, the launching part writes status 1, 2 if it was cancelled, or 3 if it faulted; another part
reports, and keeps the grid's barriers (02 R40; 05 R101; 08 R147, R158, R160; the messages' words, and that these writes wait while their
line is pinned, are the model's: log 34, log 108). STEAL: the victim keeps the lower half of its fullest counter and sends the upper half,
or sends an empty range; STEAL_REPLY installs the range in the lowest empty counter, or keeps in mind whom it found empty. CANCEL and
CANCEL.KILL set a cancel out for a running grid of their address space, or send one to the part whose grid it is, and CANCEL_REACHES_PART
drops every ticket of such a grid that has not been dispatched, and from the launching part goes on to the others; a part whose domain
number is not in force answers no STEAL (08 R148, R158, R164; 14 R262; 23 R327; the messages' words are the model's: log 34). -/
def Obligations.GridsEnd : Prop :=
  ((∀ (s : State) (team : Nat) (t : Team) (g : Grid), s.teams.get? team = some t → s.grids.get? t.grid = some g → t.groups ≤ t.gone.length →
     s.mxQueue team = [] →
     ∃ u, exec (.teamRetire team) s = .next u ∧ u.teams = s.teams.erase team ∧ u.groups = s.groups ∧
       u.grids.get? t.grid = some { g with retired := g.retired + 1 } ∧ (∀ o ∈ u.eng.ops, o.team ≠ team) ∧
       (let v : State := { s with mem := (s.mem.drop t.owns).dropRange t.win t.len }
        ∀ k, g.launcher = true → v.translate (g.acc t.grid) .store g.r.cw = .ok (.here k) → k % 4 = 0 → s.openTo k 8 →
         Bytes.num u.byte k 8 = (g.status * 2 ^ 56 + g.count + 1) % 2 ^ 64) ∧
       (g.launcher = false → u.fab.sent = s.fab.sent ++ [{ dest := t.grid / 2 ^ 52, vc := 4, op := 13, words := [t.grid, 1, 0],
                                                                        src := s.self }]) ∧
       (g.state = .runs → (∀ c ∈ g.tickets, c.2 ≤ c.1) → (g.r.stealable = false ∨ g.r.m ≠ 0 ∨ g.r.pod = false) → g.reserved = [] →
         (∀ x ∈ s.disp.admits, x.2.1 ≠ t.grid) → (∀ e ∈ s.teams, e.2.grid = t.grid → e.1 = team) →
         ∀ x ∈ u.mmu.held, ¬ (x.task = false ∧ x.owner = t.grid))) ∧
   ∀ (s : State) (id : Nat) (g : Grid), s.grids.get? id = some g → g.state = .runs →
     (s.gridEmpty id g = false → exec (.finalStatus id) s = .next s) ∧
     (s.gridEmpty id g = true → g.launcher = true → s.othersDone g = true →
       let status := if g.faulted then 3 else if g.cancelled then 2 else 1
       ∃ u g', exec (.finalStatus id) s = .next u ∧ u.grids.get? id = some g' ∧ g'.state = .done ∧ g'.status = status ∧ g'.retired = g.retired ∧
         u.groups = s.groups ∧ (∀ x ∈ u.mmu.held, ¬ (x.task = false ∧ x.owner = id)) ∧
         ∀ k, s.translate (g.acc id) .store g.r.cw = .ok (.here k) → s.openTo k 8 → Bytes.num u.byte k 8 = (status * 2 ^ 56 + g.count) % 2 ^ 64) ∧
     (s.gridEmpty id g = true → g.launcher = false → ∃ u g', exec (.finalStatus id) s = .next u ∧ u.grids.get? id = some g' ∧ g'.state = .done ∧
       g'.bars = g.bars ∧ u.groups = s.groups ∧ u.mem = s.mem ∧
       u.fab.sent = s.fab.sent ++ [{ dest := id / 2 ^ 52, vc := 4, op := 13, words := [id, 0, 1], src := s.self }])) ∧
  ((∀ (s : State) (id thief : Nat) (g : Grid), s.grids.get? id = some g → thief ∈ s.otherParts g → g.r.m = 0 →
     let size (d : Nat) := (g.tickets.getD d (0, 0)).2 - (g.tickets.getD d (0, 0)).1
     let reply (lo hi : Nat) : Msg := { dest := thief, vc := 4, op := 10, words := [id, lo, hi], src := s.self }
     let valid := (s.ctlGet .fabDomain 0).getLsbD 63
     (valid = false → ∃ u, exec (.steal id thief) s = .next u ∧ u.grids = s.grids ∧ u.fab = s.fab ∧ u.mem = s.mem) ∧
     (valid = true → (g.cancelled = true ∨ ∀ d < g.tickets.length, size d = 0) → ∃ u, exec (.steal id thief) s = .next u ∧ u.grids = s.grids ∧
       u.fab.sent = s.fab.sent ++ [reply 0 0] ∧ s.sameBytes u) ∧
     (∀ d < g.tickets.length, valid = true → g.cancelled = false → size d ≠ 0 → (∀ e < d, size e < size d) → (∀ e < g.tickets.length, size e ≤ size d) →
       g.tickets.length = 4 → g.r.strag = 0 →
       let lo := (g.tickets.getD d (0, 0)).1
       let mid := lo + size d / 2
       ∃ u g', exec (.steal id thief) s = .next u ∧ u.grids.get? id = some g' ∧ g'.tickets = g.tickets.set d (lo, mid) ∧
         u.fab.sent = s.fab.sent ++ (if g.launcher then [] else [{ dest := id / 2 ^ 52, vc := 4, op := 19, words :=
           [id, mid, lo + size d, g.member + (thief - g.r.firstPart) * 2 ^ 16, g.strag.gridPhases, s.podTime], src := s.self }]) ++
           [reply mid (lo + size d)] ∧ s.sameBytes u ∧ u.groups = s.groups)) ∧
   (∀ (s : State) (id lo hi d : Nat) (g : Grid), s.grids.get? id = some g → g.stealOut ≠ none → g.r.m = 0 → g.cancelled = false → lo < hi →
     g.tickets.length = 4 → d < 4 → (g.tickets.getD d (0, 0)).2 ≤ (g.tickets.getD d (0, 0)).1 →
     (∀ e < d, (g.tickets.getD e (0, 0)).1 < (g.tickets.getD e (0, 0)).2) → (∀ j, s.ticketWaits j = []) →
     ∃ u, exec (.stealReply id lo hi) s = .next u ∧ u.grids = s.grids.set id { g with
         tickets := g.tickets.set d (lo, hi)
         stealOut := none
         spent := none } ∧
       u.mem = s.mem ∧ u.groups = s.groups ∧ u.ctlGet .dispStealsIn 0 = s.ctlGet .dispStealsIn 0 + 1) ∧
   (∀ (s : State) (id lo hi : Nat) (g : Grid), s.grids.get? id = some g → g.stealOut ≠ none → hi ≤ lo → (∀ j, s.ticketWaits j = []) →
     ∃ u, exec (.stealReply id lo hi) s = .next u ∧ u.mem = s.mem ∧ u.groups = s.groups ∧ u.grids = s.grids.set id { g with
       stealOut := none
       spent := g.stealOut }) ∧
   (∀ (s : State) (q : Turn) (a : BitVec 6) (g : BitVec 4) (i : Instr) (kill : Bool) (x : Grid),
     (i = .cancel a g ∧ kill = false) ∨ (i = .cancelKill a g ∧ kill = true) → s.Issues q i → q.acts i →
     let id := (q.g.sget a.toNat).toNat
     (s.grids.get? id = none → id ≠ 0 → id / 2 ^ 52 ≠ s.self → ∃ u, exec i s = .next u ∧ u.groups = (q.onward i s).groups ∧ u.mem = s.mem ∧
       u.grids = s.grids ∧ u.fab.sent = s.fab.sent ++ [{ dest := id / 2 ^ 52, vc := 4, op := 11, words :=
         [id, if kill then 1 else 0, (s.gridOf q.g).asid % 65536 + 1], src := s.self }]) ∧
     (s.grids.get? id = some x →
     (x.asid = (s.gridOf q.g).asid → x.part = (s.gridOf q.g).part → x.status = 0 → ∃ u, exec i s = .next u ∧
       u.groups = (q.onward i s).groups ∧ u.mem = s.mem ∧ u.grids = s.grids ∧
       u.disp = (if x.launcher then { s.disp with cancels := s.disp.cancels ++ [{ grid := id, kill := kill }] } else s.disp) ∧
       u.fab.sent = s.fab.sent ++ (if x.launcher then [] else
         [{ dest := id / 2 ^ 52, vc := 4, op := 11, words := [id, if kill then 1 else 0, 0], src := s.self }])) ∧
     (x.asid ≠ (s.gridOf q.g).asid ∨ x.part ≠ (s.gridOf q.g).part ∨ x.status ≠ 0 → exec i s = .next (q.onward i s)))) ∧
   ∀ (s : State) (id space : Nat) (kill : Bool) (g : Grid), s.grids.get? id = some g → g.status = 0 → g.state = .runs →
     let i : Instr := .cancelReachesPart id ((if kill then 1 else 0) + 2 * space)
     (space ≠ 0 → space ≠ g.asid % 65536 + 1 → ∃ u, exec i s = .next u ∧ u.grids = s.grids ∧
       u.groups = s.groups ∧ u.mem = s.mem) ∧
     (space = 0 ∨ space = g.asid % 65536 + 1 →
     ∃ u g', exec i s = .next u ∧ u.grids.get? id = some g' ∧ g'.cancelled = true ∧
       g'.killed = (g.killed || kill) ∧ (∀ c ∈ g'.tickets, c.1 = c.2) ∧ (∀ c ∈ g'.work, c.1 = c.2) ∧ g'.reserved = [] ∧
       u.disp.admits = s.disp.admits ∧ (g.tasks = [] → u.fab.sent = s.fab.sent ++ (if g.launcher then s.otherParts g else []).map (fun p =>
         { dest := p, vc := 4, op := 11, words := [id, if kill then 1 else 0, 0], src := s.self })) ∧ (∀ j h, s.groups.get? j = some h → ∃ h', u.groups.get? j = some h' ∧ h'.live = h.live ∧ h'.place = h.place)))

/-- TSPAWN of a valid record, once the accesses of its lanes are performed (07 R130), gives it its handle, writes it in a scalar register,
and makes the task ready when nothing is pending; TASK_DISPATCH starts the best ready task of a core's die in a free slot, with its
private memory where the pool has room: s61 holds the record's address and s63 the argument, and every lane is live at its entry (09 R168
to R172). TWAIT: a future word that is fulfilled gives 1, one that failed 0, and TWAIT.LOCK gives 1 for a word without an owner; a word
that waits for an owner which is not known holds the lanes until it changes; a word on another part is SPACE_REMOTE (code 0x11); a killed
grid's group ends (09 R174 to R176; 08 R158; 25 R384). -/
def Obligations.TasksBeginAndAreAwaited : Prop :=
  ((∀ (s : State) (q : Turn) (d a : BitVec 6) (g : BitVec 4) (k : Nat) (gr : Grid), s.Issues q (.tspawn d a g) → q.acts (.tspawn d a g) →
     s.grids.get? q.g.grid = some gr →
     let va := (q.g.sget a.toNat).toNat
     let f (o n : Nat) := Bytes.num s.byte (k + 4 * o) n
     windowOf va = .glb → canonical va = true → s.translate (s.accOf q.g) .store va = .ok (.here k) → va % 64 = 0 → 0x40 ≤ va →
     va ≤ 0xFFFFFFF80 → s.mem.poisonAt k 64 = none → f 0x20 2 = 0 → f 0x24 4 = 0 → f 0x22 2 / 64 = 0 → f 0x22 2 / 4 % 16 ≠ 15 →
     f 0x22 2 / 2 % 2 = 0 → f 0x28 8 < 2 ^ 33 → f 0x38 8 < 256 → (f 0x18 8 = 0 ∨ f 0x18 8 % 64 = 0x28) → f 0 8 % 2 = 0 →
     gr.r.codeBase ≤ f 0 8 → f 0 8 < gr.r.codeBase + 2 ^ 32 → (d = 62 → q.g.inStack (va / 64)) →
     q.Performed (.tspawn d a g) False → q.g.noStores → s.openTo k 64 →
     ∃ u h, exec (.tspawn d a g) s = .next u ∧ u.groups.get? q.gid = some h ∧ q.g.RegsOnly h ∧ q.Leaves h ∧ q.GoesOn (.tspawn d a g) h ∧
       q.SWritten d.toNat (va / 64 : Nat) h ∧ (∃ gr', u.grids.get? q.g.grid = some gr' ∧ gr'.tasks = gr.tasks ++ [va]) ∧
       (f 0x28 4 ≠ 0 → u.byte = Bytes.stored s.byte (k + 4 * 0x24) 4 (va / 64) ∧ u.disp = s.disp) ∧
       (f 0x28 4 = 0 → u.disp.pools = s.disp.pools ++ [(q.g.core / 48, .task va q.g.grid gr.r.prio s.disp.order)] ∧
         ((∀ m, ∀ o < 64, ({ s with mem := m } : State).translate (gr.taskAcc va) .store (va + o) = .ok (.here (k + 4 * o))) →
           u.byte (k + 4 * 0x20) = 1))) ∧
   ∀ (s : State) (core die addr id prio order w q0 win : Nat) (rest : List (Nat × Ready)) (g : Grid), core < 192 → s.takenFor core .task = none →
     s.takeable core = (die, .task addr id prio order) :: rest → s.grids.get? id = some g → g.cancelled = false →
     s.readVa (g.taskAcc addr) addr 64 64 = .ok w →
     let r := taskRecOf w
     s.ownRead (g.taskAcc addr) (addr + 0x20) 8 = some r.ctl → r.check g.r.codeBase = none → r.holdp = 0 →
     let budget := 16 + 8 * (r.ctl / 2 ^ 18 % 16)
     s.fitQuarter core budget = some q0 → s.privFree g (32 * g.r.priv) = some win → s.teamFirst core prio = false →
     ∃ u gid h, exec (.taskDispatch core) s = .next u ∧ s.env.fresh ≤ gid ∧ u.groups.get? gid = some h ∧ h.kind = .task ∧ h.grid = id ∧
       h.task = addr ∧ h.core = core ∧ h.quarter = q0 ∧ h.budget = budget ∧ h.place = .resident ∧ h.live = BitVec.allOnes 32 ∧
       h.win = win ∧ h.stride = g.r.priv ∧ h.strict = (r.ctl / 2 ^ 16 % 2 == 1) ∧ (∀ l < 32, h.pcOf l = (r.entry - g.r.codeBase) % 2 ^ 32) ∧
       h.sget 61 = BitVec.ofNat 64 addr ∧ h.sget 63 = BitVec.ofNat 64 r.argp ∧ h.sget 62 = BitVec.ofNat 64 (0xFC00000000000000 + g.r.priv) ∧
       (∀ x ∈ u.disp.pools, ∀ p o, x.2 ≠ .task addr id p o) ∧
       ∀ k, (∀ m, ∀ o < 64, ({ s with mem := m } : State).translate (g.taskAcc addr) .store (addr + o) = .ok (.here (k + 4 * o))) →
         k / 4 + 0x20 < win ∨ win + 32 * g.r.priv ≤ k / 4 + 0x20 → s.openTo (k + 4 * 0x20) 2 → u.byte (k + 4 * 0x20) = 2) ∧
  (∀ (s : State) (q : Turn) (p : BitVec 3) (a : BitVec 6) (g : BitVec 4) (i : Instr) (n : Nat),
     (i = .twait p a g ∧ n = 16) ∨ (i = .twaitLock p a g ∧ n = 8) → s.Issues q i → q.acts i → q.g.kind ≠ .callout →
     let va := (q.g.sget a.toNat).toNat
     let lane := lowest (q.takes i)
     ((s.gridOf q.g).killed = true → exec i s = .next ((s.setGroup q.gid (q.g.unwait q.lanes)).endUnit q.gid none)) ∧
     ((s.gridOf q.g).killed = false → s.preempting q.g = false →
       (∀ part pa, s.checkAddr q.g lane va n n .load = .ok (.away part pa) →
         ∃ x, exec i s = .next (q.ends s lane { code := 0x11, addr := va, detail := x })) ∧
       ∀ k, s.checkAddr q.g lane va n n .load = .ok (.here k) → s.mem.poisonAt k 8 = none →
         let w := Bytes.num s.byte k 8
         let owner := w / 2 ^ 32 % 2 ^ 30
         let is (b : Bool) : Prop := ∃ t h, exec i s = .next t ∧ t.groups.get? q.gid = some h ∧ q.g.RegsOnly h ∧ q.Leaves h ∧ q.GoesOn i h ∧
           q.PWritten i (toP p fun _ _ => b) h ∧ s.SameBut t q.gid ∧ s.sameBytes t
         let waits : Prop := ∃ t h, exec i s = .next t ∧ t.groups.get? q.gid = some h ∧ q.Waits i h (.twait k w none) ∧
           s.SameBut t q.gid ∧ s.sameBytes t
         (n = 16 → w / 2 ^ 62 = 1 → is true) ∧ (n = 16 → 2 ≤ w / 2 ^ 62 → is false) ∧ (n = 8 → owner = 0 → is true) ∧
         (n = 16 → w / 2 ^ 62 = 0 → (owner = 0 ∨ owner = 2 ^ 30 - 1) → waits) ∧ (n = 8 → owner = 2 ^ 30 - 1 → waits)))

/-- GROUP_PARK parks a blocked group whose slot or registers another team waits for, and PARK_AFTER_LAUNCH_WAIT one that has waited 2 us
for a launch entry, but never a call-out group; GROUP_RESTORE gives a parked group whose condition holds a free slot again;
GROUP_TAKEN_AT_SITE sends a group that stands at a site of a pre-empted grid to its save routine, with its save area in s63; ROLE_POST
posts a role change to the group of a role that has waited longest, which the model reads as the one that has issued least recently (02
R36, R39, R40, R44; 08 R149; 09 R179; 12 R225; 24 R354; log 75). -/
def Obligations.ParkingAndTaking : Prop :=
  (∀ (s : State) (gid : Nat) (g : Group) (i : Instr), s.groups.get? gid = some g → g.blocked = true → s.active (s.gridOf g) = true →
    s.parkRoom g = true → g.kind ≠ .task → (s.gridOf g).pre ≠ .pending →
    (i = .groupPark gid ∧ s.teamWaits g.core = true ∨
      i = .parkAfterLaunchWait gid ∧ ∃ w ∈ g.waits, w.why = .launch ∧ w.since + 4800 ≤ s.env.cycle) →
    exec i s = .next (s.setGroup gid { g with place := .parked, parent := none, parkT := s.env.cycle })) ∧
  (∀ (s : State) (gid : Nat) (g : Group), s.groups.get? gid = some g → g.kind = .callout →
    exec (.groupPark gid) s = .next s ∧ exec (.parkAfterLaunchWait gid) s = .next s) ∧
  (∀ (s : State) (gid q0 : Nat) (g : Group), s.groups.get? gid = some g → g.place = .parked → s.active (s.gridOf g) = true →
    ({ s with groups := s.groups.erase gid } : State).fitQuarter g.core (s.unitRegs g) = some q0 → (s.gridOf g).pre ≠ .pending → (s.gridOf g).pre ≠ .complete → g.pend = [] → g.kind ≠ .task →
    (s.awake gid g = true → exec (.groupRestore gid) s =
      .next (s.setGroup gid { g with place := .resident, quarter := q0, depth := 0, lastIssue := s.env.cycle })) ∧
    (s.awake gid g = false → exec (.groupRestore gid) s = .next s)) ∧
  (∀ (s : State) (gid save restore : Nat) (g : Group) (w : Wait), s.groups.get? gid = some g → (s.gridOf g).pre = .pending → s.active (s.gridOf g) = true →
    g.place = .resident → g.halted = false → g.live ≠ 0 → g.siteOf = some w → s.siteEntry (s.gridOf g) g.grid w.pc = some (save, restore) →
    g.parent = none → ∀ area, g.saveArea.or (s.freeArea (s.gridOf g)) = some area →
    ∃ u h, exec (.groupTakenAtSite gid) s = .next u ∧ u.groups = s.groups.set gid h ∧ h.place = .saving ∧ h.saveArea = some area ∧ (∀ p ∈ h.pend, p.sreg ≠ some 63) ∧
      h.restore = restore ∧ h.savedLive = g.live ∧ h.live = g.live ∧ h.waits = [] ∧ g.sameV h ∧ g.sameP h ∧
      (∀ n, h.sget n = if n = 63 then BitVec.ofNat 64 area else g.sget n) ∧
      (∀ l < 32, h.pcOf l = if g.live.getLsbD l then save % 2 ^ 32 else g.pcOf l) ∧ s.sameBytes u ∧ u.teams = s.teams) ∧
  ∀ (s : State) (team gid : Nat) (t : Team) (g : Group) (old new : Role), s.teams.get? team = some t → s.roleWanted team t = some (old, new) →
    (gid, g) ∈ s.groups → s.groups.get? gid = some g → g.kind = .team → g.team = team → g.role = old → g.live ≠ 0 →
    (∀ e ∈ s.groups, e.2.kind = .team → e.2.team = team → e.2.role = old → e.2.live ≠ 0 → g.lastIssue ≤ e.2.lastIssue) →
    (∀ e ∈ s.groups, e.1 = gid → e.2 = g) →
    exec (.rolePost team gid) s = .next ((s.setGroup gid { g with posted := some new }).count .ringRolePosts (g.core / 48) 1)

/-! ## Rays, call-outs, treelets, repacking and textures (10 R183 to R201; 11 R203 to R208; 25 R367, R368, R382, R383) -/

/-- TRACE, once the accesses of its lanes are performed (07 R130), casts a ray for each lane that takes part, while its stack has free
slots: the lane's status is pending, the ray is on its way to the root of the scene, and no byte of memory changes. A lane whose ray
cannot hit gets its record at once, with status 1; without a scene each lane that takes part ends, and the others go on (10 R187 to R189,
R195). The pages that several lanes read are held. -/
def Obligations.RaysAreCast : Prop :=
  ∀ (s : State) (q : Turn) (d a : BitVec 7) (g : BitVec 4) (k : Nat), s.Issues q (.trace d a g) → q.acts (.trace d a g) →
    q.g.kind ≠ .callout →
    let i : Instr := .trace d a g
    let sd := q.g.scene.toNat
    let s0 := (s.noteRead q.g sd 64).useFree 1
    let v (j l : Nat) := q.g.vget (a.toNat + j) l
    let h (l : Nat) := (q.g.wget (a.toNat + 8) l).toNat
    let table := Bytes.num s.byte k 8
    let count := Bytes.num s.byte (k + 32) 4
    let root := Bytes.num s.byte (k + 48) 4
    let calls := Bytes.num s.byte (k + 64) 8
    let hv := (table + (32 * root + 0xD)) % 2 ^ 64
    let held (l : Nat) : Prop := q.parts i = [l] ∨ ∀ va ∈ [sd, h l, hv], (s.heldLeaf (s.accOf q.g) va).isSome = true
    let may (l : Nat) : Prop := isNan (v 3 l) = false ∧ isNan (v 7 l) = false ∧ (xparam (v 3 l)).le (xparam (v 7 l)) = true ∧
      [v 0 l, v 1 l, v 2 l, v 4 l, v 5 l, v 6 l].all finite = true ∧ ∃ j ∈ [4, 5, 6], fx (v j l) ≠ 0
    (sd = 0 → (∃ l < 32, q.g.live.getLsbD l = true ∧ q.takes i l = false) → ∃ u x, exec i s = .next u ∧ u.groups.get? q.gid = some x ∧
      q.g.sameV x ∧ q.g.sameS x ∧ q.g.sameP x ∧ (∀ l < 32, x.live.getLsbD l = (q.g.live.getLsbD l && !q.takes i l)) ∧ u.spire = s.spire) ∧
    (sd ≠ 0 → windowOf sd = .glb → q.Performed i False → (∀ l < 32, q.takes i l = true → s.Block q.g l sd 64 k ∧ held l ∧ windowOf (h l) = .glb ∧
        (∃ loc, s0.checkAddr q.g l (h l) 32 32 .store = .ok loc) ∧ (v 10 l).toNat / 16 % 4096 = 0) →
      Bytes.num s.byte (k + 112) 36 = 0 → table % 32 = 0 → calls % 16 = 0 → root < count →
      (∀ stack : Nat, (∀ l < 32, q.takes i l = true → may l ∧
          (s.disp.whole = false ∧ stack = (s.gridOf q.g).part ∨ s.disp.whole = true ∧ windowOf hv = .glb ∧
            ∃ kh, (s0.touch q.g (h l)).Block q.g l hv 1 kh ∧ stack = homeStack (s.byte kh).toNat)) →
        (s.spire.rays.filter (fun e => e.1 / 2 ^ 32 == stack)).length + 32 ≤ (s.ctlGet .spireSpillSlots stack).toNat % 2 ^ 32 →
        ∃ u x items, exec i s = .next u ∧ u.groups.get? q.gid = some x ∧ q.Pending i x items ∧ items.length = (q.parts i).length ∧
          s.sameBytes u ∧ u.teams = s.teams ∧
          ∀ (j l : Nat) (p : Pend), (q.parts i)[j]? = some l → items[j]? = some p → p.lanes = laneBit l ∧ p.regs = [d.toNat] ∧ p.sreg = none ∧
            ∃ slot r, p.src = .ray slot ∧ slot / 2 ^ 32 = stack ∧ s.spire.rays.get? slot = none ∧ u.spire.rays.get? slot = some r ∧
              r.gid = q.gid ∧ r.pend = p.id ∧ r.lane = l ∧ r.pc = q.pc ∧ r.st = .flight ∧ r.treelet = root ∧ r.home = stack ∧
              r.table = table ∧ r.count = count ∧ r.calls = calls ∧ r.o = [v 0 l, v 1 l, v 2 l] ∧ r.d = [v 4 l, v 5 l, v 6 l] ∧
              r.tmin = v 3 l ∧ r.tbest = v 7 l ∧ r.hitVa = h l ∧ r.flags = (v 10 l).toNat % 2 ^ 16 ∧ r.mask = (v 10 l).toNat / 2 ^ 16 % 256 ∧
              r.coi = (v 10 l).toNat / 2 ^ 24 ∧ r.id = (v 11 l).toNat ∧ r.hit = none ∧ r.steps = 0) ∧
      (∀ l key, q.parts i = [l] → ¬ may l → s0.checkAddr q.g l (h l) 32 32 .store = .ok (.here key) → s.pinned key 32 = false →
        ∃ u x, exec i s = .next u ∧ u.groups.get? q.gid = some x ∧ q.g.RegsOnly x ∧ q.Leaves x ∧ q.GoesOn i x ∧
          q.VWritten i (toV d fun _ _ => 1) x ∧ u.spire = s.spire ∧
          u.byte = Bytes.stored s.byte key 32 ((v 7 l).toNat + 0xFFFFFFFFFFFFFFFF * 2 ^ 32 + 2 ^ 192 + (v 11 l).toNat * 2 ^ 224)))

/-- A candidate of the triangle test solves o + t d = v0 + u (v1 - v0) + v (v2 - v0) exactly, with u and v not negative and u + v at most
1; t, u and v are each rounded once; the determinant is minus the dot product of the ray's direction and the cross product of the two
edges, the face is the back one exactly when it is negative, and no culled face is a candidate (10 R193). -/
def Obligations.TrianglesAreSolvedExactly : Prop :=
  ∀ (sp : RSpace) (flags : Nat) (vs : List W32) (t u v : W32) (back : Bool), triTest sp flags vs = some (t, u, v, back) →
    let o (j : Nat) : Int := fx (sp.o.getD j 0) - fx (vs.getD j 0)
    let d (j : Nat) : Int := fx (sp.d.getD j 0)
    let e (j : Nat) : Int := fx (vs.getD (3 + j) 0) - fx (vs.getD j 0)
    let f (j : Nat) : Int := fx (vs.getD (6 + j) 0) - fx (vs.getD j 0)
    let D : Int := -(d 0 * (e 1 * f 2 - e 2 * f 1) + d 1 * (e 2 * f 0 - e 0 * f 2) + d 2 * (e 0 * f 1 - e 1 * f 0))
    (∀ j < 9, ∀ w, vs[j]? = some w → finite w = true) ∧ D ≠ 0 ∧
    ∃ T U V : Int, (∀ j < 3, o j * D + T * d j = U * e j + V * f j) ∧
      0 ≤ U * D ∧ 0 ≤ V * D ∧ (U + V) * D ≤ D * D ∧ t = roundX T D ∧ u = roundX U D ∧ v = roundX V D ∧
      back = decide (D < 0) ∧ (flags / 2 % 2 = 1 → 0 < D) ∧ (flags / 4 % 2 = 1 → D < 0)

/-- A ray's way: its message, after those of its source that were sent before it, joins its treelet's queue, or is spilled at a full unit;
a unit takes rays of one treelet; a node visit puts the children it enters on the stack, nearest first, and counts a step; a ray with
nothing left ends with a hit or a miss, and one at its limit with status 4; a locked treelet holds it; RAY_END writes the record and lands
the status; RAY_PARK and RAY_ABORT park it and end it, and spilled rays may take the place that it had in its unit; a message that waits
for its permit does not arrive (01 R16; 10 R190 to R192, R195, R201). That a held ray parks where it is, and the order of rays that join
in one cycle, are the model's (log 53, log 103). -/
def Obligations.RaysTravel : Prop :=
  (∀ (s : State) (slot : Nat) (r : Ray), s.spire.rays.get? slot = some r → r.st = .flight →
    r.o.length = 3 → r.d.length = 3 → (r.left = false → exec (.rayMessageArrival slot) s = .next s) ∧ (r.left = true → (∀ e ∈ s.spire.rays, e.2.st = .flight → e.2.src = r.src → e.2.home = r.home → r.sent ≤ e.2.sent) →
    (s.unitHolds r.unit < 16384 → exec (.rayMessageArrival slot) s = .next ((s.useIds 1).setRay slot { r with
      st := .queued
      arrived := s.env.cycle
      sent := s.env.fresh })) ∧
    (16384 ≤ s.unitHolds r.unit → ∃ u, exec (.rayMessageArrival slot) s = .next u ∧
      u.spire.rays = s.spire.rays.set slot { r with
        st := .spilled
        arrived := s.env.cycle
        sent := s.env.fresh } ∧ u.groups = s.groups ∧
      ∀ j, ¬ within (4 * (s.overflowPa slot r).1) 64 j → u.byte j = s.byte j))) ∧
  (∀ (s : State) (unit : Nat), Store.wf s.spire.rays = true → s.waiting unit ≠ [] →
    ∃ u t, exec (.spireBatchStart unit) s = .next u ∧ u.mem = s.mem ∧ u.groups = s.groups ∧
      (∃ slot r, s.spire.rays.get? slot = some r ∧ r.treelet = t ∧ (r.st = .queued ∨ r.st = .spilled) ∧ r.unit = unit ∧
        u.spire.rays.get? slot = some { r with st := .taken }) ∧
      ∀ slot r, s.spire.rays.get? slot = some r → ∃ st out, u.spire.rays.get? slot = some { r with
          st := st
          out := out } ∧
        (st = r.st ∧ out = r.out ∨ r.unit = unit ∧ (st = .taken ∧ out = r.out ∧ r.treelet = t ∧ (r.st = .queued ∨ r.st = .spilled) ∨
          out = false ∧ (st = .queued ∧ r.st = .spilled ∨ st = .held ∧ r.st = .held)))) ∧
  (∀ (s : State) (slot : Nat) (r : Ray) (x : Inside) (off w : Nat) (rest : List RItem), s.spire.rays.get? slot = some r →
    r.st = .inside → r.inn = some x → r.stack = .node off :: rest → s.rayKilled r = false → s.rayPreempt r = false → off % 128 = 0 →
    off + 128 ≤ x.size * 256 → s.rayRead r ((x.base + off) % 2 ^ 64) 128 = .ok w →
    let kids := (r.children (w32s 32 w)).map (·.2)
    let atEnd := r.limit ≠ 0 ∧ r.limit ≤ r.steps + 1
    ∃ u r', exec (.nodeVisit slot) s = .next u ∧ u.spire.rays.get? slot = some r' ∧ u.groups = s.groups ∧
      r'.steps = r.steps + 1 ∧
      ((∀ c ∈ kids, c.isNode = true) → ∀ o l, kids ++ rest = .node o :: l →
        (¬ atEnd → r'.st = .inside ∧ r'.stack = kids ++ rest ∧ s.sameBytes u ∧ r'.hit = r.hit ∧ r'.tbest = r.tbest) ∧ (atEnd → r'.st = .ended 4 0 0 0)) ∧
      (kids = [] → rest = [] → r.outer = none → r.deferred = [] →
        (¬ atEnd → r'.st = .ended (if r.hit.isSome then 0 else 1) 0 0 0) ∧ (atEnd → r'.st = .ended 4 0 0 0))) ∧
  (∀ (s : State) (slot w key : Nat) (r : Ray), s.spire.rays.get? slot = some r → r.st = .taken → r.inn = none → s.rayKilled r = false →
    s.rayPreempt r = false → r.treelet < r.count →
    s.translate (s.rayAcc r) .load ((r.table + 32 * r.treelet) % 2 ^ 64) = .ok (.here key) → s.rayRead r ((r.table + 32 * r.treelet) % 2 ^ 64) 16 = .ok w → w / 2 ^ 96 % 256 ≠ 0 →
    ∃ u, exec (.nodeVisit slot) s = .next u ∧ u.spire.rays.get? slot = some { r with
      st := .held
      budget := none
      heldAt := key
      out := decide (16384 ≤ s.unitHolds r.unit) } ∧ (s.unitHolds r.unit < 16384 → s.sameBytes u)) ∧
  (∀ (s : State) (slot status code detail addr d k : Nat) (r : Ray) (g : Group) (p : Pend) (gr : Grid), s.spire.rays.get? slot = some r →
    r.st = .ended status code detail addr → status ≠ 2 → r.outer = none → (∀ x, r.inn = some x → x.old = false) → r.lane < 32 →
    s.groups.get? r.gid = some g → g.pend.find? (fun y => y.id == r.pend) = some p → p.regs = [d] → p.sreg = none →
    s.grids.get? r.grid = some gr → gr.pre ≠ .pending →
    s.translate (if r.task then gr.taskAcc (r.team * 64) else gr.acc r.grid) .store r.hitVa = .ok (.here k) →
    s.openTo k 32 → (∀ f, g.place ≠ .ending f) → g.place ≠ .saving →
    ∃ u h, exec (.rayEnd slot) s = .next u ∧ u.spire.rays.get? slot = none ∧ u.groups.get? r.gid = some h ∧
      h.pend = g.pend.filter (fun y => y.id != r.pend) ∧ g.sameS h ∧ g.sameP h ∧ h.live = g.live ∧ h.pcs = g.pcs ∧
      (∀ l < 32, ∀ n, h.vget n l = if n = d ∧ l = r.lane ∧ g.live.getLsbD l = true then BitVec.ofNat 32 status else g.vget n l) ∧
      u.byte = Bytes.stored s.byte k 32 (r.record status code detail)) ∧
  ∀ (s : State) (slot : Nat) (r : Ray), Store.wf s.spire.rays = true → s.spire.rays.get? slot = some r →
    let others (u : State) : Prop := ∀ j x, j ≠ slot → s.spire.rays.get? j = some x → ∃ st out, u.spire.rays.get? j = some { x with
        st := st
        out := out } ∧
      (st = x.st ∧ out = x.out ∨ x.unit = r.unit ∧ out = false ∧ (x.st = .spilled ∧ st = .queued ∨ x.st = .held ∧ st = .held))
    (s.rayPreempt r = true → (r.st = .callout ∨ r.st = .held ∨ r.st = .inside ∧ r.budget = some 0) →
      ∃ u, exec (.rayPark slot) s = .next u ∧ u.spire.rays.get? slot = some { r with
        st := .parked
        out := false } ∧ others u ∧
        u.spire.parked = s.spire.parked ++ [slot] ∧ u.groups = s.groups) ∧
    (s.rayKilled r = true → r.st = .queued ∨ r.st = .held ∨ r.st = .spilled ∨ r.st = .parked ∨ r.st = .flight ∨ r.st = .callout →
      ∃ u, exec (.rayAbort slot) s = .next u ∧ u.spire.rays.get? slot = some { r with
        st := .ended 3 0 0 0
        cand := none } ∧ others u ∧
        slot ∉ u.spire.parked ∧ u.groups = s.groups ∧ u.mem = s.mem)

/-- Call-outs: 32 gathered ones of one grid, entry and budget, or those of the oldest after 2 us, enter the ready pool of the die beside
their stack; CALLOUT_GROUP_DISPATCH starts the next item that a core takes, where that is a call-out group, as a group with a lane for
each, whose registers hold the call-out; CALLRET ends its lanes, and verdict 2 for an any-hit candidate commits it and ends its ray, a
verdict above 2 ends it with CALLOUT_FAULT (code 0x13) (09 R172; 10 R197, R198). -/
def Obligations.CallOuts : Prop :=
  (∀ (s : State) (stack : Nat) (c : Callout) (i : Instr),
    (i = .calloutGroupSend stack ∧ s.spire.gather.find? (fun x => x.stack == stack && decide (32 ≤ (s.gathered stack x).length)) = some c ∨
     i = .calloutGatherTimeout stack ∧ s.spire.gather.find? (fun x => x.stack == stack && decide (4800 ≤ s.env.cycle - x.since)) = some c) →
    let cs := (s.spire.gather.filter (fun x => x.stack == stack && x.grid == c.grid && x.entry == c.entry && x.budget == c.budget)).take 32
    ∃ u, exec i s = .next u ∧ u.spire.gather = s.spire.gather.filter (fun x => !cs.contains x) ∧ u.groups = s.groups ∧ u.mem = s.mem ∧
      ∃ prio left, u.disp.pools = s.disp.pools ++ [(stack / 2, .calls (cs.map (fun x => { x with left := left })) c.grid prio s.disp.order)]) ∧
  (∀ (s : State) (core die id prio order q0 win : Nat) (cs : List Callout) (c : Callout) (g : Grid), core < 192 →
    s.takenFor core .callout = none → s.nextItem core = some (die, .calls cs id prio order) → s.teamFirst core prio = false →
    cs.head? = some c → cs.length ≤ 32 → s.grids.get? id = some g → s.fitQuarter core c.budget = some q0 → s.privFree g (32 * g.r.priv) = some win →
    ∃ u gid h, exec (.calloutGroupDispatch core) s = .next u ∧ s.env.fresh ≤ gid ∧ u.groups.get? gid = some h ∧ h.kind = .callout ∧ h.grid = id ∧
      h.core = core ∧ h.quarter = q0 ∧ h.budget = c.budget ∧ h.place = .resident ∧ h.win = win ∧ h.sget 61 = 0 ∧
      (∀ l < 32, h.live.getLsbD l = decide (l < cs.length) ∧ h.pcOf l = c.entry % 2 ^ 32) ∧
      (∀ (l : Nat) (x : Callout), cs[l]? = some x → x.regs.length = 16 → ∀ r < 16, h.vget r l = x.regs.getD r 0) ∧ u.mem = s.mem.dropRange win (32 * g.r.priv)) ∧
  ∀ (s : State) (q : Turn) (d a : BitVec 7) (g : BitVec 4) (l slot pend : Nat) (r : Ray) (c : Hit), s.Issues q (.callret d a g) →
    q.g.kind = .callout → q.parts (.callret d a g) = [l] → q.g.rays.filter (fun x => x.1 == l) = [(l, slot, pend)] →
    s.spire.rays.get? slot = some r → r.pend = pend → r.cand = some c → s.rayKilled r = false → (∃ m < 32, m ≠ l ∧ q.g.live.getLsbD m = true) →
    let k := (q.g.vget d.toNat l).toNat
    ∃ u h r', exec (.callret d a g) s = .next u ∧ u.groups.get? q.gid = some h ∧ q.g.sameV h ∧ q.g.sameS h ∧ q.g.sameP h ∧
      (∀ m < 32, h.live.getLsbD m = (q.g.live.getLsbD m && m != l)) ∧ h.rays = q.g.rays.filter (fun x => x.1 != l) ∧
      u.spire.rays.get? slot = some r' ∧ (2 < k → r'.st = .ended 2 0x13 0 0) ∧
      (k = 2 → c.proc = false → r'.st = .ended 0 0 0 0 ∧ r'.hit = some { c with verdict := true } ∧ r'.tbest = c.t) ∧
      (k = 1 → r.st = .parked → r' = { r with cand := none })

/-- TREELOCK sets the STATE of a treelet entry to 1 and gives the old one, and waits while an engine pins the entry; TREEPUB, once the
accesses of its lanes are performed (07 R130), sets BASE, raises VERSION, unlocks, and lets held rays of the treelet queue, OLD_RAYS as it
was where no ray is inside; publishing an unlocked entry is ILLEGAL_INSTRUCTION. REPACK of one group sorts its lanes by key and keeps the
registers it names; while a lane of the team is elsewhere, its lanes wait (04 R75; 10 R199, R200; 25 R368, R383). -/
def Obligations.TreeletsAndRepack : Prop :=
  (∀ (s : State) (q : Turn) (d a : BitVec 6) (g : BitVec 4) (k : Nat),
    let va := (q.g.sget a.toNat).toNat
    let ok (i : Instr) : Prop := s.Issues q i ∧ q.acts i ∧ windowOf va = .glb ∧
      s.checkAddr q.g (lowest (q.takes i)) va 32 32 .store = .ok (.here k) ∧ s.mem.poisonAt k 32 = none
    (ok (.treelock d a g) → s.pinned k 32 = true → ∃ u h x, exec (.treelock d a g) s = .next u ∧ u.groups.get? q.gid = some h ∧
      q.Waits (.treelock d a g) h (.pin x) ∧ s.sameBytes u) ∧
    (ok (.treelock d a g) → s.pinned k 32 = false → d ≠ 62 → ∃ u h, exec (.treelock d a g) s = .next u ∧ u.groups.get? q.gid = some h ∧ q.g.RegsOnly h ∧ q.Leaves h ∧
      q.GoesOn (.treelock d a g) h ∧ q.SWritten d.toNat (s.byte (k + 48)).toNat h ∧ u.byte = Bytes.stored s.byte (k + 48) 1 1 ∧
      s.SameBut u q.gid) ∧
    (ok (.treepub d a g) → s.pinned k 32 = false → q.Performed (.treepub d a g) False →
      let b := (q.g.sget d.toNat).toNat
      b % 128 = 0 → windowOf b = .glb → canonical b = true →
      (s.byte (k + 48) = 0 → exec (.treepub d a g) s =
        .next (q.ends s (lowest (q.takes (.treepub d a g))) { code := 0x01, addr := 0, detail := (encode (.treepub d a g)).getD 0 })) ∧
      (s.byte (k + 48) ≠ 0 → ∃ u, exec (.treepub d a g) s = .next u ∧ u.groups = (q.onward (.treepub d a g) s).groups ∧
        Bytes.num u.byte k 8 = b ∧ Bytes.num u.byte (k + 32) 4 = (Bytes.num s.byte (k + 32) 4 + 1) % 2 ^ 32 ∧ u.byte (k + 48) = 0 ∧
        (∀ j, ¬ within k 12 j → j ≠ k + 48 → ¬ within (k + 64) 4 j → u.byte j = s.byte j) ∧
        ((∀ e ∈ s.spire.rays, ∀ x ∈ e.2.insides, x.entry ≠ k) → Bytes.num u.byte (k + 64) 4 = Bytes.num s.byte (k + 64) 4) ∧
        (∀ e ∈ u.spire.rays, e.2.heldAt = k → e.2.st ≠ .held)))) ∧
  ∀ (s : State) (q : Turn) (d : BitVec 7) (a : BitVec 6), s.Issues q (.repack d a) →
    let keep (r : Nat) : Prop := (q.g.sget a.toNat).getLsbD (r / 2) = true
    (∀ r, keep r → r / 2 < 64 → 2 * (r / 2) < q.g.budget) →
    (Store.wf s.groups = true → q.Whole → q.g.pend = [] → (∀ w ∈ q.g.waits, ∀ x y, w.why ≠ .repack x y) →
      (∀ e ∈ s.groups, e.1 ≠ q.gid → e.2.kind = .team → e.2.team = q.g.team → e.2.holdsLanes = false) →
      ∃ (u : State) (h : Group) (order : List Nat), exec (.repack d a) s = .next u ∧ u.groups.get? q.gid = some h ∧ q.g.sameS h ∧ u.mem = s.mem ∧ u.teams = s.teams ∧
        order.Pairwise (fun x y => (q.g.vget d.toNat x).toNat < (q.g.vget d.toNat y).toNat ∨
          (q.g.vget d.toNat x).toNat = (q.g.vget d.toNat y).toNat ∧ x < y) ∧
        (∀ l, l ∈ order ↔ l < 32 ∧ q.g.live.getLsbD l = true) ∧
        (∀ l < 32, h.live.getLsbD l = decide (l < order.length)) ∧
        ∀ (l m : Nat), order[l]? = some m → h.pcOf l = (q.pc + 4) % 2 ^ 32 ∧ (∀ n, n < 8 → h.pget n l = q.g.pget n m) ∧
          ∀ r < q.g.budget, r < 128 → keep r → h.vget r l = q.g.vget r m) ∧
    (∀ j g', j ≠ q.gid → q.g.kind = .team → (j, g') ∈ s.groups → g'.kind = .team → g'.team = q.g.team → g'.live ≠ 0 →
      g'.waits = [] → ∃ h w, exec (.repack d a) s = .next ((s.setGroup q.gid h).useIds 1) ∧ h.waits = (q.g.unwait q.lanes).waits ++ [w] ∧ w.pc = q.pc ∧
        w.lanes = q.lanes ∧ w.why = .repack d.toNat a.toNat ∧ q.g.sameV h ∧ q.g.sameS h ∧ q.g.sameP h)

/-- LFETCH and HGRID: each lane that takes part has its results pending, computed from its descriptor and the texels or entries that its
coordinates name: weighted sums, rounded once for each channel, or product by product for each feature; a coordinate that is no number
gives four NaNs (11 R204 to R208; 24 R344). -/
def Obligations.TexturesAndGrids : Prop :=
  let result (s : State) (q : Turn) (i : Instr) (d : BitVec 7) (out : Nat → List W32) : Prop :=
    ∃ u h items, exec i s = .next u ∧ u.groups.get? q.gid = some h ∧ q.Pending i h items ∧ s.sameBytes u ∧ u.teams = s.teams ∧ u.grids = s.grids ∧
      items.map Pend.seen = (q.parts i).map (fun l => (q.pc, laneBit l, (List.range (out l).length).map (d.toNat + ·),
        (out l).zipIdx.map (fun x => (d.toNat + x.2, l, x.1)), none)) ∧ ∀ p ∈ items, p.bad = []
  let reads (s : State) (q : Turn) (l va n k : Nat) : Prop := windowOf va = .glb ∧
    s.checkRangeBy (s.lanternAcc q.g va) q.g l va n .load = .ok [(.here k, n)] ∧ s.mem.poisonAt k n = none
  (∀ (s : State) (q : Turn) (d a : BitVec 7) (g : BitVec 4) (i : Instr) (tri : Bool) (desc : Nat → Nat) (key : Nat → Nat → Nat),
    (i = .lfetchBil d a g ∧ tri = false) ∨ (i = .lfetchTri d a g ∧ tri = true) → s.Issues q i → q.acts i →
    let t (l : Nat) := texOf (Bytes.num s.byte (desc l) 32)
    let v (j l : Nat) := q.g.vget (a.toNat + j) l
    let lod (l : Nat) := dyClamp 0 (((t l).levels : Int) - 1) (dyOf (v 4 l))
    let part (l : Nat) := dySub (lod l) (dyFloor (lod l), 0)
    let bil (l level : Nat) (scale : Int × Int) := (t l).bil level (dyOf (v 2 l)) (dyOf (v 3 l)) scale
    let taps (l : Nat) : List ((Int × Int) × Nat) :=
      if tri then bil l (dyFloor (lod l)).toNat (dySub (1, 0) (part l)) ++
        (if (part l).1 = 0 then [] else bil l ((dyFloor (lod l)).toNat + 1) (part l))
      else bil l (min (v 4 l).toNat ((t l).levels - 1)) (1, 0)
    (∀ l < 32, q.takes i l = true → reads s q l (q.w a l).toNat 32 (desc l) ∧ (q.w a l).toNat % 32 = 0 ∧
      texBad (Bytes.num s.byte (desc l) 32) 0 = none) →
    ((∀ l < 32, q.takes i l = true → unbounded (v 2 l) = true ∨ unbounded (v 3 l) = true ∨ tri = true ∧ unbounded (v 4 l) = true) →
      result s q i d (fun _ => [0x7FC00000, 0x7FC00000, 0x7FC00000, 0x7FC00000])) ∧
    ((∀ l < 32, q.takes i l = true → unbounded (v 2 l) = false ∧ unbounded (v 3 l) = false ∧ (tri = true → unbounded (v 4 l) = false) ∧
        ∀ x ∈ taps l, reads s q l x.2 (t l).bytes (key l x.2)) →
      result s q i d (fun l => (List.range 4).map (fun c => termSum ((taps l).map (fun x =>
        term x.1 (((t l).channels (Bytes.num s.byte (key l x.2) (t l).bytes)).getD c .nan))) (if (t l).fmt = 0 then 255 else 1))))) ∧
  ∀ (s : State) (q : Turn) (d a : BitVec 7) (g : BitVec 4) (desc : Nat → Nat) (key : Nat → Nat → Nat), s.Issues q (.hgrid d a g) →
    q.acts (.hgrid d a g) →
    let h (l : Nat) := hgridOf (Bytes.num s.byte (desc l) 64)
    let at' (l : Nat) := [unitCoord (q.g.vget (a.toNat + 2) l), unitCoord (q.g.vget (a.toNat + 3) l), unitCoord (q.g.vget (a.toNat + 4) l)]
    let size (l : Nat) := 2 * (h l).feats
    (∀ l < 32, q.takes (.hgrid d a g) l = true → reads s q l (q.w a l).toNat 64 (desc l) ∧ (q.w a l).toNat % 64 = 0 ∧
      hgridBad (Bytes.num s.byte (desc l) 64) 0 d.toNat q.g.budget = none ∧
      ∀ level < (h l).levels, ∀ x ∈ (h l).corners level (at' l), reads s q l x.2 (size l) (key l x.2)) →
    result s q (.hgrid d a g) d (fun l => packHalves (((List.range (h l).levels).map (fun level => (List.range (h l).feats).map (fun f =>
      fround .f16 .rne (f32 (((h l).corners level (at' l)).foldl (fun (acc : W32) x => BitVec.ofNat 32 (ffma .f32 .rne (f32 x.1)
        (unpack .f16 (Bytes.num s.byte (key l x.2) (size l) / 2 ^ (16 * f) % 65536)) (f32 acc))) 0))))).flatten))

/-! ## Queues and their commands (11 R209 to R214; 13 R240 to R245) -/

/-- The commands that launch nothing: NOP and FENCE are accepted and change nothing, WAIT once its word has reached the value; SIGNAL
stores or adds, and TIMESTAMP writes pod time. An accepted command raises the head count, and the head block in memory says so; a queue
whose Turret has yet to be told of its slot, or waits for a permit, has no command accepted; a value written to a tail word is seen, and a
tail too far ahead stops the queue once its reporter waits for no permit; a WAIT's timeout stops its queue with WAIT_TIMEOUT; the gang
that has waited longest gives its slots up when every slot waits and its Turret has a permit; a Turret has Campanile post each of these
events through its link; SIGNAL and TIMESTAMP wait while an engine pins their word (04 R75; 13 R233, R242, R243, R245; which messages the
links carry is the model's: log 101). The commands that launch a record: DISPATCH, and DISPATCH_GANG of one partition, when the record is
accepted, make its grid, which runs with its tickets dealt (13 R243, R244; 08 R145, R149). -/
def Obligations.QueueCommandsRun : Prop :=
  ((∀ (v : State) (n : Nat) (y : Queue) (k : Nat),
     (∀ m, ({ v with mem := m } : State).translate y.acc .store y.headBlk = .ok (.here k)) →
     (∀ m, ({ v with mem := m } : State).translate y.acc .store ((y.headBlk + 8) % 2 ^ 64) = .ok (.here (k + 32))) →
     let u := v.putQueue n y
     v.openTo k 8 → v.openTo (k + 32) 8 → u.ctrl.queues = v.ctrl.queues.set n y ∧ u.groups = v.groups ∧ u.grids = v.grids ∧
     u.byte = Bytes.stored (Bytes.stored v.byte k 8 y.head) (k + 32) 8 (y.state * 2 ^ 56 + y.op % 256 * 256 + y.code % 256)) ∧
   (∀ (s : State) (n : Nat) (x : Queue) (i : Instr), s.ctrl.queues.get? n = some x → s.served n x = false →
     i ∈ [.queueNop n, .dispatch n, .dispatchGang n, .signal n, .wait n, .drawLarge n, .classify n, .queueFence n, .timestamp n] →
     exec i s = .next s) ∧
   (∀ (s : State) (n w : Nat) (x : Queue),
     let a := w / 2 ^ 64 % 2 ^ 64
     let b := w / 2 ^ 128 % 2 ^ 64
     let t := s.sawEntry x
     let all := ∀ c ∈ x.run, s.cmdDone c = true
     let at8 (k : Nat) : Prop := windowOf a = .glb ∧ canonical a = true ∧ a % 8 = 0 ∧ t.translate x.acc .store a = .ok (.here k)
     (∀ k, at8 k → ¬ s.openTo k 8 → (s.Commands n 3 x w → exec (.signal n) s = .next (s.examine n)) ∧
       (s.Commands n 8 x w → exec (.timestamp n) s = .next (s.examine n))) ∧
     (s.Commands n 0 x w → s.Accepts (.queueNop n) n x t []) ∧
     (s.Commands n 7 x w → all → s.Accepts (.queueFence n) n x t []) ∧
     (s.Commands n 4 x w → ∀ y, t.readVa x.acc a 8 8 = .ok y →
       (b ≤ y → s.Accepts (.wait n) n x ((t.sawAll x.acc [(a, 8)]).useFree 1) []) ∧ (y < b → exec (.wait n) s = .next (s.examine n))) ∧
     (s.Commands n 3 x w → all → ∀ k, at8 k → s.openTo k 8 → (w / 2 ^ 32 % 2 = 1 → t.mem.poisonAt k 8 = none) →
       ∃ m, s.Accepts (.signal n) n x { t.ownAccess x.part k 8 true with mem := m } [] ∧
         m.get = Bytes.stored s.byte k 8 (if w / 2 ^ 32 % 2 = 1 then Bytes.num s.byte k 8 + b else b)) ∧
     (s.Commands n 8 x w → all → ∀ k, at8 k → s.openTo k 8 →
       ∃ m, s.Accepts (.timestamp n) n x { t.ownAccess x.part k 8 true with mem := m } [] ∧ m.get = Bytes.stored s.byte k 8 s.podTime)) ∧
   (∀ (s : State) (n value k : Nat) (x : Queue), s.ctrl.queues.get? n = some x → x.mapped = true →
     s.translate x.acc .load x.tail = .ok (.here k) → s.openTo k 8 →
     let v := value % 2 ^ 64
     let told : Prop := ∃ u : State, exec (.tailWordUpdate n value) s = .next (u.examine n) ∧ u.byte = Bytes.stored s.byte k 8 v ∧
       u.ctrl = { s.ctrl with queues := s.ctrl.queues.set n { x with seen := v } } ∧ u.groups = s.groups ∧ u.grids = s.grids
     told ∧
     (x.head + x.size < v → x.state ≠ 2 → s.canReport n x = false → ∃ u, exec (.tailWordUpdate n value) s = .next u ∧
       u.ctrl.queues.get? n = some { x with seen := v }) ∧
     (x.head + x.size < v → x.state ≠ 2 → s.canReport n x = true → ∃ u y, exec (.tailWordUpdate n value) s = .next u ∧ u.ctrl.queues.get? n = some y ∧ y.state = 2 ∧
       y.op = 0 ∧ y.code = 0x01 ∧ y.head = x.head ∧ u.groups = s.groups)) ∧
   (∀ (s : State) (n w y t : Nat) (x : Queue), s.ctrl.queues.get? n = some x → x.mapped = true → x.state ≠ 2 → x.head < x.seen →
     (∀ k, x.slot = some k → s.turretWaits (k % 48) = false) →
     s.readVa x.acc ((x.base + 32 * (x.head % x.size)) % 2 ^ 64) 32 32 = .ok w → w % 2 ^ 8 = 4 → w / 2 ^ 32 % 2 ^ 32 ≠ 0 →
     x.waitSince = some t → t + 2400 * (w / 2 ^ 32 % 2 ^ 32) ≤ s.env.cycle → s.readVa x.acc (w / 2 ^ 64 % 2 ^ 64) 8 8 = .ok y →
     y < w / 2 ^ 128 % 2 ^ 64 → ∃ u z, exec (.waitTimeout n) s = .next u ∧ u.ctrl.queues.get? n = some z ∧ z.state = 2 ∧ z.op = 4 ∧
       z.code = 0x0D ∧ z.head = x.head ∧ z.slot = x.slot ∧ u.groups = s.groups ∧ u.grids = s.grids ∧
       ∀ k, x.slot = some k → u.ctrl.up = s.ctrl.up ++ [(k % 48, x.event 7 n (0x0D + 4 * 256)), (k % 48, x.event 5 n 0)]) ∧
   ∀ (s : State) (part n : Nat) (x : Queue), Store.wf s.ctrl.queues = true → s.slotsBlocked part = true → (n, x) ∈ s.eligible part →
     (∀ e ∈ s.eligible part, e.2.slot.isSome = true → e.1 ≠ n → x.waitSince.getD s.env.cycle < e.2.waitSince.getD s.env.cycle) →
     ∀ k, x.slot = some k → (s.turretWaits (k % 48) = true → exec (.gangUnmap part) s = .next s) ∧ (s.turretWaits (k % 48) = false →
     ∃ u, exec (.gangUnmap part) s = .next u ∧ u.groups = s.groups ∧ u.grids = s.grids ∧ (u.queue n).slot = none ∧ (u.queue n).state = 3 ∧
       (∀ e ∈ s.eligible part, x.gang ≠ 0 → e.2.gang = x.gang → (u.queue e.1).slot = none) ∧
       u.ctrl.up = s.ctrl.up ++ [(k % 48, x.event 6 x.gang 0)])) ∧
  (∀ (s : State) (n w ra rw p : Nat) (x : Queue) (h : Hdr) (cs : Sched),
     let r := recordOf ra rw
     let id := s.self * 2 ^ 52 + s.disp.seq % 2 ^ 52
     let a := w / 2 ^ 64 % 2 ^ 64
     let acc : Acc := { x.acc with part := p }
     let begun (reads : List (Nat × Nat)) : State :=
       ((((((s.sawEntry x).sawAll x.acc reads).useFree 1).lateWrite acc r.cw 8 0).lateWrite acc (ra + 0x70) 8 id).lateWords acc r.fa
         (List.replicate 8 0))
     (s.sawEntry x).readVa x.acc ra 128 128 = .ok rw → s.writable acc r.cw 8 8 = true → s.writable acc r.fa 2112 64 = true → r.pod = false →
     r.holdp = 0 → r.coRes = false → id ≠ 0 →
     (s.Commands n 1 x w → ra = a → p = x.part → (begun [(a, 128)]).launchCheck acc rw r true = .ok (h, cs) →
       ∃ v, s.Accepts (.dispatch n) n x v [id] ∧ v.Launched s x n p id r h cs []) ∧
     (s.Commands n 2 x w → p < 8 → w / 2 ^ 32 % 2 ^ 8 = 2 ^ p → (s.disp.whole = true → p = 0) →
       (s.sawEntry x).readVa x.acc ((a + 8 * p) % 2 ^ 64) 8 8 = .ok ra →
       (∀ e ∈ s.grids, e.2.gang = true → e.2.cmd = some (n, x.head) → e.2.state ≠ .presence ∧ e.2.state ≠ .reserved) →
       (begun [((a + 8 * p) % 2 ^ 64, 8), (ra, 128)]).launchCheck acc rw r true = .ok (h, cs) →
       ∃ v, s.Accepts (.dispatchGang n) n x v [id] ∧ v.Launched s x n p id r h cs []))

/-- DRAW_LARGE of one triangle of finite vertices: one of no area is dropped; one below the threshold goes to the list, or is refused for
want of room; any other is rasterised: each pixel whose centre it covers takes the larger of its word and the fragment's, and no other
pixel changes (04 R75; 11 R209 to R211). The fragment of a pixel is kept only where the exact edge functions cover its centre. CLASSIFY
bins a visibility buffer tile by tile and launches one grid of its shading groups; in a tile the groups rise by material, hold 1 to 32
pixels of one material, the earlier ones of a material 32, and together each pixel that counts once, row by row (11 R212, R213). -/
def Obligations.DrawsAndClassifies : Prop :=
  ((∀ (s : State) (n w x0 kl kv : Nat) (x : Queue) (t : List Vert), s.Commands n 5 x w → s.accepted 5 = true →
     let a := w / 2 ^ 64 % 2 ^ 64
     (s.sawEntry x).readVa x.acc a 64 64 = .ok x0 →
     let d := drawOf x0
     let y := ((s.sawEntry x).sawAll x.acc [(a, 64)]).useFree 1
     let z := (y.triSaw x.acc d 0).useFree 1
     d.count = 1 → d.soft = 0 → y.triangle x.acc d 0 = .ok t →
     (∀ v ∈ t, finite v.x = true ∧ finite v.y = true ∧ isNan v.z = false) → finite d.thresh = true →
     (∀ m, ∀ o, o = 0 ∨ o = 16 → ({ z with mem := m } : State).storeLoc x.acc ((d.list + o) % 2 ^ 64) (16 - 3 * o / 4) = .ok (.here (kl + 4 * o))) →
     (∀ m, ∀ p < d.w * d.h, ({ z with mem := m } : State).storeLoc x.acc ((d.vis + 8 * p) % 2 ^ 64) 8 = .ok (.here (kv + 32 * p))) →
     (∀ j, ¬ (within kl 20 j ∧ within kv (8 * (d.w * d.h)) j)) → kl % 4 = 0 → kv % 4 = 0 → d.list < 2 ^ 64 - 16 → d.vis < 2 ^ 64 →
     s.openTo kl 20 → s.openTo kv (8 * (d.w * d.h)) →
     let small : Prop := ((area2 t).natAbs : Int) < 2 * fx d.thresh * 2 ^ 149
     let header (y : Nat) (v : State) : Prop := Bytes.num v.byte kl 8 = y
     let pixels (f : Nat → Nat → Option Nat) (v : State) : Prop := ∀ px < d.w, ∀ py < d.h,
       Bytes.num v.byte (kv + 32 * (py * d.w + px)) 8 = match f px py with
         | none => Bytes.num s.byte (kv + 32 * (py * d.w + px)) 8
         | some key => max (Bytes.num s.byte (kv + 32 * (py * d.w + px)) 8) (key * 2 ^ 32 + d.first % 2 ^ 32)
     ∃ v, s.Accepts (.drawLarge n) n x v [] ∧ v.groups = s.groups ∧ v.grids = s.grids ∧
       (∀ j, ¬ within kl 20 j → ¬ within kv (8 * (d.w * d.h)) j → v.byte j = s.byte j) ∧
       (area2 t = 0 → header 0 v ∧ pixels (fun _ _ => none) v) ∧
       (area2 t ≠ 0 → small → (d.cap = 0 → header (2 ^ 32) v) ∧ (d.cap ≠ 0 → header 1 v ∧ Bytes.num v.byte (kl + 64) 4 = d.first % 2 ^ 32) ∧
         pixels (fun _ _ => none) v) ∧
       (area2 t ≠ 0 → ¬ small → header 0 v ∧ pixels (fragment t) v)) ∧
   ∀ (a b c : Vert) (px py key : Nat), fragment [a, b, c] px py = some key →
     key ≤ 0x3F800000 ∧ (∀ v ∈ [a, b, c], finite v.z = true) ∧
     let p := centre px py
     (0 ≤ edge a.pt b.pt p ∧ 0 ≤ edge b.pt c.pt p ∧ 0 ≤ edge c.pt a.pt p ∨ edge a.pt b.pt p ≤ 0 ∧ edge b.pt c.pt p ≤ 0 ∧ edge c.pt a.pt p ≤ 0)) ∧
  ((∀ (s : State) (n w x0 rw : Nat) (x : Queue) (b : Shaded) (h : Hdr) (cs : Sched), s.Commands n 6 x w → s.accepted 5 = true →
     let a := w / 2 ^ 64 % 2 ^ 64
     let t := s.sawEntry x
     t.readVa x.acc a 64 64 = .ok x0 →
     let c := classifyOf x0
     let tiles := (List.range ((c.h + 63) / 64)).flatMap (fun ty => (List.range ((c.w + 63) / 64)).map (fun tx => (tx, ty)))
     tiles.foldl (Shaded.tile x.acc c (t.visDie x.part)) { s := t.sawOne x.acc a 64, shades := [], bad := none } = b → b.bad = none →
     b.s.readVa x.acc c.template 128 128 = .ok rw →
     let r := (recordOf c.template rw).shading b.shades.length
     let id := s.self * 2 ^ 52 + s.disp.seq % 2 ^ 52
     let s1 := (((b.s.sawOne x.acc c.template 128).lateWrite x.acc r.cw 8 0).lateWrite x.acc (c.template + 0x70) 8 id).lateWords x.acc r.fa
       (List.replicate 8 0)
     s.writable x.acc r.cw 8 8 = true → s.writable x.acc r.fa 2112 64 = true → r.pod = false → r.holdp = 0 → r.coRes = false → id ≠ 0 →
     s1.launchCheck x.acc rw (r.shading (max 1 b.shades.length)) true = .ok (h, cs) →
     ∃ v, s.Accepts (.classify n) n x v [id] ∧ v.Launched s x n x.part id r h cs b.shades) ∧
   (∀ (a : Acc) (c : Classify) (die px py word m : Nat) (x : Binned),
     let va := (c.vis + 8 * (py * c.w + px)) % 2 ^ 64
     let y := Binned.pixel a c die x (px, py)
     x.bad = none → x.s.readVa a va 8 8 = .ok word →
     (word = 0 ∨ c.entries ≤ word % 2 ^ 32 → y.px = x.px ∧ y.bad = none) ∧
     (word ≠ 0 → word % 2 ^ 32 < c.entries → (x.s.sawOne a va 8).readVa a ((c.table + 2 * (word % 2 ^ 32)) % 2 ^ 64) 2 1 = .ok m →
       y.bad = none ∧ y.px = if c.mats ≤ m then x.px else
         x.px ++ [{ mat := m, x := px, y := py, id := word % 2 ^ 32, key := word / 2 ^ 32 }])) ∧
   (∀ (a : Acc) (c : Classify) (kept : List Pix) (x : Shaded) (m off : Nat), x.bad = none → kept.length ≤ 4096 →
     x.s.readVa a ((c.shaders + 4 * m) % 2 ^ 64) 4 1 = .ok off →
     let y := Shaded.bin a c kept x m
     y.bad = none ∧ ∃ l, y.shades = x.shades ++ l ∧ (∀ e ∈ l, e.entry = off ∧ e.mat = m ∧ 1 ≤ e.px.length ∧ e.px.length ≤ 32) ∧
       l.Pairwise (fun e _ => e.px.length = 32) ∧
       l.flatMap (·.px) = (kept.filter (fun p => p.mat == m)).map (fun p =>
         (BitVec.ofNat 32 (p.x + p.y * 65536), BitVec.ofNat 32 p.id, BitVec.ofNat 32 p.key))) ∧
   ∀ (a : Acc) (c : Classify) (die : Nat) (t : Nat × Nat) (x : Shaded),
     let b := (c.tile t.1 t.2).foldl (Binned.pixel a c die) { s := x.s, px := [], bad := none }
     let y := Shaded.tile a c die x t
     x.bad = none → y.bad = none → ∃ l, y.shades = x.shades ++ l ∧
       l.Pairwise (fun e f => e.mat < f.mat ∨ e.mat = f.mat ∧ e.px.length = 32) ∧
       ∀ m, (l.filter (fun e => e.mat == m)).flatMap (·.px) = (b.px.filter (fun p => p.mat == m)).map (fun p =>
         (BitVec.ofNat 32 (p.x + p.y * 65536), BitVec.ofNat 32 p.id, BitVec.ofNat 32 p.key)))

/-! ## System requests, events and control registers (05 R98, R100; 12 R222 to R230; 13 R235 to R239, R246 to R248) -/

/-- The request ring: a served request gets its status and take passes it; a put count is stored, an unknown code at the head gets status
3, and a put more than 256 ahead of take counts what is skipped, a further one what it adds to that (13 R236). Events: one whose ring has
room is written and counted, one whose ring is full is held back; a take count is stored (13 R239); no engine pins their words (04 R75).
The ring is the system's. -/
def Obligations.RequestsAndEvents : Prop :=
  ((∀ (v : State) (n st : Nat), v.ctrl.skip = none → v.reqDone n st = { v with mem := (v.reqDone n st).mem } ∧
     (v.reqDone n st).byte = Bytes.stored (Bytes.stored v.byte (physKey (0x040000008000 + 64 * (n % 256) + 2)) 2 st) (physKey 0x040000007FF8) 8 (n + 1)) ∧
   ∀ (s : State) (put : Nat), put < 2 ^ 64 → s.campanileWaits = false →
     let take := Bytes.num s.byte (physKey 0x040000007FF8) 8
     ∃ v : State, exec (.systemRequestPut put) s = .next (match v.headRequest with
         | some (n, c) => if 1 ≤ c ∧ c ≤ 0x10 then v else v.reqDone n 3
         | none => v) ∧
       v.byte = Bytes.stored s.byte (physKey 0x040000007FF0) 8 put ∧ v.groups = s.groups ∧
       (put ≤ take + 256 → v = { s with mem := v.mem }) ∧
       (take + 256 < put → s.ctrl.skip = none → v.ctrl.skip = some (take + 256, put) ∧
         v.ctlGet .sysReqOverrun 0 = s.ctlGet .sysReqOverrun 0 + BitVec.ofNat 64 (put - take - 256)) ∧
       ∀ stop last, take + 256 < put → s.ctrl.skip = some (stop, last) → v.ctrl.skip = some (stop, put) ∧
         v.ctlGet .sysReqOverrun 0 = s.ctlGet .sysReqOverrun 0 + BitVec.ofNat 64 (put - last)) ∧
  (let a := physKey 0x04000000C000
   (∀ (s : State) (e : Event), e.ring = 0 → s.ctrl.events = [] →
     let c := Bytes.num s.byte a 8 % 2 ^ 32
     let put := Bytes.num s.byte (a + 32) 8
     let take := Bytes.num s.byte (a + 64) 8
     let k := a + 4 * (64 + 32 * (put % c))
     s.openTo a 24 →
     (put - take < c → s.openTo k 32 → (s.post e).ctrl = s.ctrl ∧ (s.post e).groups = s.groups ∧ (s.post e).grids = s.grids ∧
       (s.post e).byte = Bytes.storedAll s.byte 8 [(k, e.code + e.part * 2 ^ 16 + e.w % 2 ^ 32 * 2 ^ 32), (k + 32, e.x), (k + 64, e.y), (k + 96, e.z),
         (a + 32, put + 1)]) ∧
     (c ≤ put - take → s.post e = { s with ctrl := { s.ctrl with events := [e] } })) ∧
   ∀ (s : State) (ring take k : Nat), s.ctrl.events = [] → take < 2 ^ 64 → (ring = 0 ∧ k = a + 64 ∨ ring ≠ 0 ∧ s.ringKey ring 16 = some k) →
     s.openTo k 8 → ∃ v, exec (.eventTakeCount ring take) s = .next v ∧ v.ctrl = s.ctrl ∧ v.groups = s.groups ∧ v.grids = s.grids ∧
       v.byte = Bytes.stored s.byte k 8 take)

/-- SET_MODE, MAP_QUEUE, UNMAP_QUEUE, RESET_QUEUE, SET_POOLS and ACCEPT: what each does when its conditions hold, and when it is refused
(01 R14; 13 R233, R237, R238, R240, R247). A change of mode leaves what HBM holds open (06 R109), and a slice that no partition holds
keeps its bytes; that, and control blocks and pool descriptors named by physical address, are the model's (log 63, log 99, log 32). -/
def Obligations.QueueAndModeRequests : Prop :=
  ∀ (s : State) (n : Nat), s.campanileWaits = false →
    let x (i : Nat) := s.reqWord n i
    let served (i : Instr) (st : Nat) (v : State) : Prop := exec i s = .next (v.reqDone n st)
    (s.headRequest = some (n, 1) → x 0 ≤ 1 → x 1 ≤ 255 →
      let busy := (∃ e ∈ s.ctrl.queues, e.2.mapped = true) ∨ ∃ e ∈ s.grids, e.2.state ≠ .done
      (busy → served .setMode 2 s) ∧
      (¬ busy → (x 0 = 1 → s.accepted 0 = true) → ∃ v, served .setMode 1 v ∧ v.disp.whole = decide (x 0 = 0) ∧
        v.disp.slices = (if x 0 = 0 then 0xFF else x 1) ∧ v.groups = s.groups ∧ v.grids = s.grids ∧ v.ctrl = s.ctrl ∧ v.mmu.tlb = [] ∧
        ∀ j, s.disp.whole = decide (x 0 = 0) ∨ ¬ (j % 4 = 0 ∧ inHbm (j / 4) 1 = true) → v.byte j = s.byte j)) ∧
    (s.headRequest = some (n, 2) → s.msys.late = [] → x 0 ≤ 4095 → x 1 % 64 = 0 → inHbm (x 1) 192 = true →
      let f (o k : Nat) := Bytes.num s.byte (physKey (x 1 + 0x40 + 0x40 * (Bytes.num s.byte (physKey (x 1)) 8 % 2)) + 4 * o) k
      let part := f 0xF 1 % 8
      let ctx := f 0xF 1 / 8 % 2
      (s.ctrl.acceptDone = false → served .mapQueue 2 s) ∧
      (s.ctrl.acceptDone = true → s.hasPart part = true → s.disp.ctxs.get? (2 * part + ctx) = none → served .mapQueue 2 s) ∧
      (s.ctrl.acceptDone = true → s.hasPart part = true → s.disp.ctxs.get? (2 * part + ctx) ≠ none →
        ∃ v y, served .mapQueue 1 v ∧ v.ctrl.queues.get? (x 0) = some y ∧ y.mapped = true ∧ y.base = f 0 8 ∧ y.size = f 8 4 ∧ y.asid = f 0xC 2 ∧
          y.prio = f 0xE 1 ∧ y.part = part ∧ y.ctx = ctx ∧ y.root = f 0x10 8 ∧ y.tail = f 0x18 8 ∧ y.headBlk = f 0x20 8 ∧ y.gang = f 0x28 4 ∧
          y.fa = f 0x30 8 ∧ y.ring = f 0x38 8 ∧ ((s.queue (x 0)).slot = none → ∀ h, s.ownRead y.acc y.headBlk 8 = some h → y.head = h) ∧
          v.mmu.spaces.get? (65536 * part + y.asid) = some { root := y.root, ring := y.ring, part := part, ctx := ctx } ∧ v.groups = s.groups ∧ v.grids = s.grids)) ∧
    (s.headRequest = some (n, 3) → x 0 ≤ 4095 → Store.wf s.ctrl.queues = true → (s.queue (x 0)).mapped = true →
      ∃ v, served .unmapQueue 1 v ∧ (v.queue (x 0)).mapped = false ∧ (v.queue (x 0)).slot = none ∧ v.groups = s.groups ∧ v.grids = s.grids ∧
        ∀ k, (s.queue (x 0)).slot = some k → (k % 48, x 0) ∈ v.ctrl.down) ∧
    (s.headRequest = some (n, 4) → x 0 ≤ 4095 → ∀ q, s.ctrl.queues.get? (x 0) = some q →
      (q.state ≠ 2 → served .resetQueue 1 s) ∧
      (q.state = 2 → served .resetQueue 1 ((s.putQueue (x 0) { q with state := if q.mapped then 0 else 3 }).examine (x 0)))) ∧
    (s.headRequest = some (n, 0xF) → s.msys.late = [] → x 0 < 2 ^ 9 → s.hasPart (x 0 % 2 ^ 8) = true → (s.disp.whole = true → x 0 / 2 ^ 8 = 0) → x 1 % 64 = 0 →
      s.hbmOf (x 0 % 2 ^ 8) (x 1) 64 = true →
      let part := x 0 % 2 ^ 8
      let ctx := x 0 / 2 ^ 8
      let f (i : Nat) := Bytes.num s.byte (physKey (x 1) + 32 * i) 8
      let rs := [(f 0, 4352 * 1024 * (s.coresOf part).length), (f 1, f 2), (f 3, f 4), (f 5, f 6)]
      let apart (a b : Nat × Nat) : Prop := a.2 = 0 ∨ b.2 = 0 ∨ a.1 + a.2 ≤ b.1 ∨ b.1 + b.2 ≤ a.1
      let fine := (∀ r ∈ rs, r.1 % 4096 = 0 ∧ r.2 % 4096 = 0 ∧ s.hbmOf part r.1 r.2 = true) ∧ rs.Pairwise apart ∧
        ∀ c, s.disp.whole = false → s.disp.ctxs.get? (2 * part + (1 - ctx)) = some c → ∀ a ∈ rs, ∀ b ∈ s.regions part c, apart a b
      let busy := (∃ e ∈ s.ctrl.queues, e.2.mapped = true ∧ e.2.part = part ∧ e.2.ctx = ctx) ∨
        ∃ e ∈ s.grids, e.2.state ≠ .done ∧ e.2.part = part ∧ e.2.ctx = ctx
      let c : Ctx := { park := f 0, priv := { base := f 1, size := f 2, used := 0 }, hold := { base := f 3, size := f 4, used := 0 },
                       save := { base := f 5, size := f 6, used := 0 } }
      let kept (v : State) : Prop := s.sameBytes v ∧ v.groups = s.groups ∧ v.grids = s.grids ∧ v.ctrl = s.ctrl
      (busy → served .setPools 2 s) ∧ (¬ busy → ¬ fine → ∃ v, served .setPools 3 v ∧ kept v ∧ v.disp = s.disp) ∧
      (¬ busy → fine → ∃ v, served .setPools 1 v ∧ kept v ∧ v.disp = { s.disp with ctxs := s.disp.ctxs.set (2 * part + ctx) c })) ∧
    (s.headRequest = some (n, 0x10) →
      let a := x 0 + x 1 * 2 ^ 64
      (s.ctrl.acceptDone = true ∨ 0x1FF < a → served .accept 2 s) ∧
      (s.ctrl.acceptDone = false → a ≤ 0x1FF → served .accept 1 { s with ctrl := { s.ctrl with
        accept := BitVec.ofNat 128 a
        acceptDone := true } }))

/-- PREEMPT, WITHDRAW, RESUME, SWAP, SHOOTDOWN, PRESENCE and RELEASE_BREAK (05 R98, R100; 12 R222, R224, R226 to R228; 13 R237). A parked
ray that rejoins goes on with its call-out if it has one; at a full unit its message goes to its overflow entry (10 R190, R201). SWAP
waits until the rays of the context that it halts stand still, its loads have landed and its stores are performed, and leaves no line of
its cores to write back. That a request for what does not exist is refused, that PRESENCE takes the oldest of one sequence, that SWAP
halts before it ends, and where rays go after WITHDRAW, are the model's (log 61, log 62, log 66, log 67). -/
def Obligations.WorkRequests : Prop :=
  ∀ (s : State) (n : Nat), s.campanileWaits = false →
    let x (i : Nat) := s.reqWord n i
    let served (i : Instr) (st : Nat) (v : State) : Prop := exec i s = .next (v.reqDone n st)
    let back (v : State) : Prop := ∀ k r, k ∈ s.spire.parked → s.spire.rays.get? k = some r → r.grid = x 0 → r.st = .parked → k ∉ v.spire.parked ∧
      ∃ r', v.spire.rays.get? k = some r' ∧ r'.stack = r.stack ∧ r'.hit = r.hit ∧ (r.cand.isSome = true → r'.st = .callout) ∧
        (r.cand = none → r'.st = .queued ∨ r'.st = .spilled)
    let roomy := ∀ u, s.unitHolds u + s.spire.parked.length ≤ 16384
    (s.headRequest = some (n, 5) → ∀ g, s.grids.get? (x 0) = some g → g.state ≠ .done →
      (s.saveRoom (x 0) g = false → served .preempt 2 s) ∧
      (s.saveRoom (x 0) g = true → ∃ v, served .preempt 1 v ∧
        v.grids.get? (x 0) = some { g with pre := if s.still (x 0) = true then .complete else .pending } ∧
        (∀ j, j ≠ x 0 → v.grids.get? j = s.grids.get? j) ∧ v.groups = s.groups ∧ v.teams = s.teams ∧
        (s.still (x 0) = false → s.sameBytes v))) ∧
    (s.headRequest = some (n, 6) → ∀ g, s.grids.get? (x 0) = some g →
      (g.pre ≠ .pending → served .withdraw 2 s) ∧
      (g.pre = .pending → ∃ v, served .withdraw 1 v ∧ v.grids = s.grids.set (x 0) { g with pre := .none } ∧ v.groups = s.groups ∧ v.teams = s.teams ∧
        back v ∧ (roomy → s.sameBytes v) ∧ v.ctlGet .preemptWithdrawn g.part = s.ctlGet .preemptWithdrawn g.part + 1)) ∧
    (s.headRequest = some (n, 7) → ∀ g, s.grids.get? (x 0) = some g → g.state ≠ .done → g.pre ≠ .pending →
      let saved := (∃ e ∈ s.teams, e.2.grid = x 0 ∧ e.2.saved = true) ∨ ∃ e ∈ s.groups, e.2.grid = x 0 ∧ e.2.place = .taken
      ∃ v h, served .resume 1 v ∧ v.grids.get? (x 0) = some h ∧ h = { g with pre := h.pre } ∧ (saved → h.pre = .resuming) ∧
        (¬ saved → h.pre = .none) ∧ v.groups = s.groups ∧ back v ∧ (roomy → s.sameBytes v)) ∧
    (s.headRequest = some (n, 0xB) → x 0 ≤ 7 →
      (s.disp.whole = true → served .swap 2 s) ∧
      (s.disp.whole = false → s.hasPart (x 0) = true → Store.wf s.ctrl.queues = true → s.disp.running.length = 8 →
        let old := s.disp.running.getD (x 0) 0
        let still : Prop := s.raysStill (x 0) old = true ∧ s.accessesStill (x 0) old = true
        (¬ still → exec .swap s = .next { s with disp := { s.disp with
          halting := s.disp.halting.set (x 0) ((s.disp.halting.get? (x 0)).getD s.env.cycle) } }) ∧
        (still → ∃ v, served .swap 1 v ∧ (∀ q ∈ v.mmu.dirty, q.1 ∉ s.coresOf (x 0)) ∧ v.disp.running.getD (x 0) 0 = 1 - old ∧ (∀ p, p ≠ x 0 → v.disp.running.getD p 0 = s.disp.running.getD p 0) ∧
          v.groups = s.groups ∧ v.teams = s.teams ∧ v.eng = s.eng ∧ (∀ e ∈ s.eligible (x 0), (v.queue e.1).slot = none) ∧
          v.ctlGet .swapCount (x 0) = s.ctlGet .swapCount (x 0) + 1))) ∧
    (s.headRequest = some (n, 8) → x 0 ≤ 65535 →
      let hit (a l : Nat) (asid : Nat) : Prop := asid = x 0 ∧ a < x 1 % 2 ^ 57 + x 2 ∧ x 1 % 2 ^ 57 < a + l
      let dropped (v : State) : Prop := ∀ e, e ∈ v.mmu.tlb ↔ e ∈ s.mmu.tlb ∧ (e.held = true ∨ ¬ hit e.leaf.base e.leaf.size e.asid)
      (s.spaceBusy (x 0) = true → ∃ v, exec .shootdown s = .next v ∧ dropped v ∧ v.mem = s.mem ∧ v.groups = s.groups) ∧
      (s.spaceBusy (x 0) = false → ∃ v pages, served .shootdown 1 v ∧ dropped v ∧ v.groups = s.groups ∧ v.mmu.held = s.mmu.held ∧
        List.Nodup pages ∧ (∀ p, p ∈ pages ↔ ∃ h ∈ s.mmu.held, h.page = p ∧ hit (4096 * p) 4096 h.asid) ∧
        v.byte = Bytes.stored s.byte (physKey (0x040000008000 + 64 * (n % 256) + 32)) 8 pages.length)) ∧
    (s.headRequest = some (n, 0xA) → x 1 = 1 → ∀ q, s.mmu.asked.find? (fun p => p.seq == x 0 && !p.granted) = some q →
      ∃ v, served .presence 1 v ∧ v.grids = s.grids ∧ v.groups = s.groups ∧ v.mem = s.mem ∧
        v.mmu.asked = s.mmu.asked.map (fun p => if p.part = q.part ∧ p.seq = x 0 then { p with granted := true } else p)) ∧
    (s.headRequest = some (n, 0xA) → x 1 = 0 → ∀ q g, s.mmu.asked.find? (fun p => p.seq == x 0 && !p.granted) = some q → q.task = false →
      s.grids.get? q.owner = some g → s.awaits g = true → g.gang = false → g.launcher = true → g.r.pod = false → g.r.cancelOnFault = false → g.state = .presence →
      ∃ v h, served .presence 1 v ∧ v.grids.get? q.owner = some h ∧ h.state = .done ∧ h.status = 3 ∧ v.groups = s.groups) ∧
    (s.headRequest = some (n, 0xC) → x 1 < 2 ^ 48 → x 2 ≤ 7 → ∀ gid g,
      s.groups.find? (fun e => e.2.halted && e.2.grid == x 0 && (s.teamOf e.2).index == x 1 && e.2.index == x 2) = some (gid, g) →
      served .releaseBreak 1 (s.setGroup gid { g with halted := false }))

/-- WRITE_REG: an RW register takes the bits it may from the value, and no other register changes; a register that may not be written is
refused, and a malformed one gets status 3. Some registers do more: FAB_GRP_CTL joins and leaves a group, FAB_DOMAIN is set once, START
begins a sweep, MEM_CUPOLA_PIN reserves, MEM_BLOCK_FAMILY reads a block anew, and PWR_GRANTS takes no more than the 48 of its reset (06
R111, R113, R118; 13 R235, R237, R249; 14 R254, R255, R262). That a START while a sweep runs writes its fields, that a feature not
accepted refuses, and that limit of PWR_GRANTS are the model's (log 65, log 57, log 15). -/
def Obligations.RegistersAreWritten : Prop :=
  ∀ (s : State) (n : Nat), s.headRequest = some (n, 9) → s.campanileWaits = false →
    let i := s.reqWord n 0
    let u := s.reqWord n 1
    let w := s.reqWord n 2
    let served (i : Instr) (st : Nat) (v : State) : Prop := exec i s = .next (v.reqDone n st)
    let taken (r : CtlReg) (v : Nat) : W64 :=
      let w := if r = .pwrGrants then min 48 (v % 256) else v
      (s.ctlGet r u &&& ~~~BitVec.ofNat 64 r.wmask) ||| (BitVec.ofNat 64 w &&& BitVec.ofNat 64 r.wmask)
    let only (r : CtlReg) (y : W64) (v : State) : Prop := ∀ r' u', v.ctlGet r' u' = if r' = r ∧ u' = u then y else s.ctlGet r' u'
    let rest (v : State) : Prop := v = { s with ctl := v.ctl }
    (ctlTable.length + 2 ≤ i → served .writeReg 3 s) ∧
    ∀ r, regAt i = some r →
      (r.units ≤ u → served .writeReg 3 s) ∧
      (u < r.units → r.wmask = 0 → served .writeReg 2 s) ∧
      (u < r.units → r.wmask ≠ 0 → r ∉ [.fabGrpCtl, .fabDomain, .memRemapCtl, .memCupolaPin, .memBlockFamily] →
        (r = .dbgCtl → w % 2 = 1 → s.accepted 8 = true) → ∃ v, served .writeReg 1 v ∧ rest v ∧ only r (taken r w) v) ∧
      (u < r.units → r = .fabGrpCtl →
        let old := (s.ctlGet r u).toNat
        (w / 2 ^ 63 % 2 = 1 → s.accepted 6 = false → served .writeReg 2 s) ∧
        (w / 2 ^ 63 % 2 = old / 2 ^ 63 → (old / 2 ^ 63 = 1 → s.accepted 6 = true) → ∃ v, served .writeReg 1 v ∧ rest v ∧ only r (taken r w) v) ∧
        (w / 2 ^ 63 % 2 = 1 → s.accepted 6 = true → old / 2 ^ 63 = 0 → ∃ v, served .fabGrpJoin 1 v ∧ v.ctlGet r u = taken r (w % 2 ^ 63) ∧
          s.sameBytes v ∧ v.groups = s.groups ∧ (v.grpRound u).asked = true ∧
          v.fab.sent = s.fab.sent ++ [{ dest := 4096, vc := 4, op := 15, words := [s.self, (taken r (w % 2 ^ 63)).toNat], src := s.self }]) ∧
        (w / 2 ^ 63 % 2 = 0 → old / 2 ^ 63 = 1 → ∃ v, served .fabGrpLeave 1 v ∧ v.groups = s.groups ∧
          (∀ e < 64, (s.ctlGet r e).toNat / 2 ^ 63 = 1 → (s.ctlGet r e).toNat % 2 ^ 12 = old % 2 ^ 12 → (v.ctlGet r e).toNat / 2 ^ 63 = 0) ∧
          v.fab.sent = s.fab.sent ++ [{ dest := 4096, vc := 4, op := 17, words := [s.self, old % 2 ^ 12], src := s.self }])) ∧
      (u = 0 → r = .fabDomain → ((s.ctlGet r 0).toNat / 2 ^ 63 = 1 → served .writeReg 2 s) ∧
        ((s.ctlGet r 0).toNat / 2 ^ 63 = 0 → w / 2 ^ 63 % 2 = 0 → ∃ v, served .writeReg 1 v ∧ rest v ∧ only r (taken r w) v) ∧
        ((s.ctlGet r 0).toNat / 2 ^ 63 = 0 → w / 2 ^ 63 % 2 = 1 →
          ∃ v, served .fabDomainSet 1 v ∧ rest v ∧ only r (taken r w) v ∧ v.self = w % 2 ^ 12)) ∧
      (u < r.units → r = .memRemapCtl → w / 2 ^ 16 % 2 = 0 → ∃ v, served .writeReg 1 v ∧ rest v ∧ only r (taken r w) v) ∧
      (u < r.units → r = .memRemapCtl → w / 2 ^ 16 % 2 = 1 →
        let c := (s.ctlGet r u).toNat
        let fam := w / 2 ^ 20 % 16
        let target := w / 2 ^ 18 % 4
        let now := c / 2 ^ (32 + 2 * fam) % 4
        let busy := c / 2 ^ 15 % 2 = 1
        ∃ v, served .remapStart 1 v ∧
          (busy ∨ 4 < fam ∨ target = now → rest v ∧ v.ctlGet .memRemapRefused u = s.ctlGet .memRemapRefused u + 1 ∧
            v.ctlGet r u = taken r w) ∧
          (¬ busy → fam ≤ 4 → target ≠ now →
            v = { s with
              ctl := v.ctl
              msys := v.msys
              env := v.env } ∧
            v.msys.sweeps.get? u = some (fam, target) ∧ (v.ctlGet r u).toNat / 2 ^ 15 % 2 = 1 ∧ (v.ctlGet r u).toNat / 2 ^ 48 = 0 ∧
            (v.ctlGet r u).toNat / 2 ^ 20 % 16 = fam ∧ (v.ctlGet r u).toNat / 2 ^ 18 % 4 = target ∧
            (v.ctlGet r u).toNat / 2 ^ 32 % 2 ^ 10 = c / 2 ^ 32 % 2 ^ 10)) ∧
      (u < r.units → r = .memCupolaPin → (32 < w → served .cupolaPinWrite 2 s) ∧
        (w ≤ 32 → ∃ v, served .cupolaPinWrite 1 v ∧ only r (taken r w) v ∧ v.groups = s.groups ∧ v.ctrl = s.ctrl ∧
          ∀ j, ¬ (j % 4 = 0 ∧ 0x030000000000 + 0x3000000 * u + 0x100000 * w ≤ j / 4 ∧
            j / 4 < 0x030000000000 + 0x3000000 * u + 0x100000 * (s.ctlGet r u).toNat) → v.byte j = s.byte j)) ∧
      (u < r.units → r = .memBlockFamily → (w % 8 = 5 ∨ w % 8 = 6) → s.accepted 2 = false → served .writeReg 2 s) ∧
      (u < r.units → r = .memBlockFamily → (w % 8 = 5 ∨ w % 8 = 6 → s.accepted 2 = true) → ∃ v, served .blockFamilyWrite 1 v ∧ only r (taken r w) v ∧ v.groups = s.groups ∧ v.ctrl = s.ctrl ∧
        ∀ j, w % 8 = (s.ctlGet r u).toNat % 8 ∨ ¬ (j % 4 = 0 ∧ j / 4 / 2 ^ 24 = u) → v.byte j = s.byte j)

/-! ## Dexlink (14 R250 to R262) -/

/-- Reduction and multicast groups: a join reaches the switches, and the group is live when MEMBERS equal joins have; a GO store
contributes the window's 256 bytes, which the switches discard where the round was aborted; a round delivers its sum, element by element,
and the completion word takes status 1, or 0x14 after TIMEOUT, whether or not this member has contributed; a multicast is acknowledged by
who receives it, and its sender's completion word takes 1, or 0x14 where a member cannot be reached; a round's data wait while the lines
that it writes are pinned, and before FAB_DOMAIN is set none are delivered (04 R75; 14 R255 to R260, R262; the messages' words, and that a
join beyond MEMBERS is refused, are the model's: log 34, log 79). -/
def Obligations.ReductionGroups : Prop :=
  let fields (c : Nat) := (c % 2 ^ 12, c / 2 ^ 62 % 2, c / 2 ^ 60 % 4, c / 2 ^ 16 % 2 ^ 13, max 1 (c / 2 ^ 32 % 2 ^ 16))
  let valid (s : State) (e : Nat) : Prop := (s.ctlGet .fabGrpCtl e).toNat / 2 ^ 63 = 1
  let multi (s : State) (e : Nat) := (s.ctlGet .fabGrpCtl e).toNat / 2 ^ 62 % 2
  let dst (s : State) (e : Nat) := physKey ((s.ctlGet .fabGrpDst e).toNat / 2 ^ 8 % 2 ^ 44 * 2 ^ 8)
  let word (s : State) (e : Nat) := physKey ((s.ctlGet .fabGrpDone e).toNat / 2 ^ 3 % 2 ^ 49 * 2 ^ 3)
  let placed (s : State) (e : Nat) : Prop := s.inMemory (dst s e / 4) 256 = true ∧ s.inMemory (word s e / 4) 8 = true ∧
    ∀ j, ¬ (within (dst s e) 256 j ∧ within (word s e) 8 j)
  (∀ (s : State) (part ctl : Nat),
    let grp := ctl % 2 ^ 12
    let js := s.fab.joins.getD grp []
    let agrees := (∀ x ∈ js, fields x.2 = fields ctl) ∧ js.length < ctl / 2 ^ 16 % 2 ^ 13
    (part ≠ s.self → ¬ agrees → exec (.joinReachesSwitch part ctl) s = .next s) ∧
    (part ≠ s.self → agrees → ∃ u, exec (.joinReachesSwitch part ctl) s = .next u ∧ u.fab.joins.getD grp [] = js ++ [(part, ctl)] ∧ u.ctl = s.ctl ∧
      u.mem = s.mem ∧ u.groups = s.groups ∧ (js.length + 1 = ctl / 2 ^ 16 % 2 ^ 13 → ∀ e < 64, valid s e →
        (s.ctlGet .fabGrpCtl e).toNat % 2 ^ 12 = grp → (u.grpRound e).live = true)) ∧
    (∀ e < 64, part = s.self → (s.grpRound e).asked = true → fields (s.ctlGet .fabGrpCtl e).toNat = fields ctl →
      (∀ d < e, ¬ ((s.grpRound d).asked = true ∧ fields (s.ctlGet .fabGrpCtl d).toNat = fields ctl)) →
      ∃ u, exec (.joinReachesSwitch part ctl) s = .next u ∧ (u.grpRound e).asked = false ∧ u.mem = s.mem ∧
        (agrees → valid u e ∧ u.fab.joins.getD grp [] = js ++ [(part, ctl)]) ∧
        (¬ agrees → u.fab.joins = s.fab.joins ∧ u.ctlGet .fabGrpCtl e = s.ctlGet .fabGrpCtl e ∧
          u.ctlGet .fabJoinRefused 0 = s.ctlGet .fabJoinRefused 0 + 1))) ∧
  (∀ (s : State) (e gid lane : Nat),
    let r := s.grpRound e
    let k := physKey ((s.ctlGet .fabGrpWin e).toNat / 2 ^ 12 % 2 ^ 40 * 2 ^ 12)
    r.go = some (gid, lane) → r.live = true → (∀ g, s.groups.get? gid = some g → g.unperformed (laneBit lane) true = false) →
    (∀ x ∈ s.msys.late, overlaps k 256 x.key x.n = false) → ∃ u, exec (.goStore e) s = .next u ∧ s.sameBytes u ∧ u.groups = s.groups ∧
      u.fab.sent = s.fab.sent ++ [{ dest := 4096, vc := 4, op := 16, data := some 256, src := s.self,
                                    words := [(s.ctlGet .fabGrpCtl e).toNat % 2 ^ 12, r.round, Bytes.num s.byte k 256] }] ∧
      (r.late.getD 0 < r.round → (u.grpRound e).go = none ∧ (u.grpRound e).busy = r.busy ∧ (u.grpRound e).round = r.round ∧
        fromLe (u.grpRound e).data = Bytes.num s.byte k 256 ∧ (u.grpRound e).data.length = 256) ∧
      (r.round ≤ r.late.getD 0 → u.grpRound e = { r with busy := false, go := none } ∧
        u.ctlGet .fabRedAborts 0 = s.ctlGet .fabRedAborts 0 + 1)) ∧
  (∀ (s : State) (e : Nat) (before after : List Nat), valid s e → (s.grpRound e).live = true →
    let joined := (s.ctlGet .fabDomain 0).toNat / 2 ^ 63 = 1
    (¬ joined → ∃ u, exec (.roundDelivery e before after) s = .next u ∧ u = { s with ctl := u.ctl }) ∧
    (joined → ¬ (s.openTo (dst s e) 256 ∧ s.openTo (word s e) 8) → exec (.roundDelivery e before after) s = .next s)) ∧
  (∀ (s : State) (e : Nat) (before after : List Nat), valid s e → (s.grpRound e).live = true → placed s e →
    (s.ctlGet .fabDomain 0).toNat / 2 ^ 63 = 1 → s.openTo (dst s e) 256 → s.openTo (word s e) 8 →
    let r := s.grpRound e
    let fmt := (s.ctlGet .fabGrpCtl e).toNat / 2 ^ 60 % 4
    let n := if fmt = 0 ∨ fmt = 2 then 4 else 8
    let add (x y : Nat) : Nat := match fmt with
      | 0 => (x + y) % 2 ^ 32
      | 1 => (x + y) % 2 ^ 64
      | 2 => (fadd32 .rne (BitVec.ofNat 32 x) (BitVec.ofNat 32 y)).toNat
      | _ => (rzAdd (BitVec.ofNat 64 x) (BitVec.ofNat 64 y)).toNat
    let xs (i : Nat) := (before ++ fromLe r.data :: after).map (fun w => w / 2 ^ (8 * n * i) % 2 ^ (8 * n))
    let delivered (u : State) (status round : Nat) : Prop := Bytes.num u.byte (word s e) 8 = status * 2 ^ 56 + round % 2 ^ 56 ∧
      u.groups = s.groups ∧ ∀ j, ¬ within (dst s e) 256 j → ¬ within (word s e) 8 j → u.byte j = s.byte j
    (multi s e = 0 → r.busy = true → r.go = none → ∃ u, exec (.roundDelivery e before after) s = .next u ∧ delivered u 1 r.round ∧
      u.grpRound e = { r with busy := false } ∧ ∀ i < 256 / n, Bytes.num u.byte (dst s e + 4 * n * i) n = (xs i).tail.foldl add ((xs i).headD 0)) ∧
    (multi s e = 1 → ∀ w round rest, before = w :: round :: rest → ∃ u, exec (.roundDelivery e before after) s = .next u ∧ delivered u 1 round ∧
      Bytes.num u.byte (dst s e) 256 = w % 2 ^ 2048 ∧
      u.fab.sent = s.fab.sent ++ [{ dest := rest.headD 4096, vc := 4, op := 22, data := some 0, src := s.self,
                                    words := [(s.ctlGet .fabGrpCtl e).toNat % 2 ^ 12, round] }]) ∧
    (multi s e = 1 → before = [] → r.busy = true → r.go = none →
      let lost := ∃ j ∈ s.fab.joins.getD ((s.ctlGet .fabGrpCtl e).toNat % 2 ^ 12) [], j.1 ≠ s.self ∧ j.1 ∈ s.fab.unreachable
      ∃ u, exec (.roundDelivery e before after) s = .next u ∧ (lost → delivered u 0x14 r.round) ∧ (¬ lost → delivered u 1 r.round) ∧ u.grpRound e = { r with busy := false } ∧
        Bytes.num u.byte (dst s e) 256 = fromLe r.data % 2 ^ 2048)) ∧
  ∀ (s : State) (e : Nat), valid s e → multi s e = 0 → (s.grpRound e).live = true → s.inMemory (word s e / 4) 8 = true → s.openTo (word s e) 8 →
    let r := s.grpRound e
    let n := max (if r.busy = true then r.round - 1 else r.round) (r.late.getD 0) + 1
    let given := r.busy = true ∧ r.go = none
    ∃ u, exec (.reduceRoundTimeout e) s = .next u ∧ u.groups = s.groups ∧ u.ctlGet .fabRedAborts 0 = s.ctlGet .fabRedAborts 0 + 1 ∧
      (given → u.grpRound e = { r with busy := false } ∧ u.byte = Bytes.stored s.byte (word s e) 8 (0x14 * 2 ^ 56 + r.round % 2 ^ 56)) ∧
      (¬ given → u.grpRound e = { r with late := some n } ∧ u.byte = Bytes.stored s.byte (word s e) 8 (0x14 * 2 ^ 56 + n % 2 ^ 56))

/-- Links and unreachable parts: a flit sent again is counted at its port, and nothing else happens; a link goes down or comes up, and
nothing else happens but that parts may be reached again; a port that the part does not have changes nothing. When a part becomes
unreachable, the loads and atomics under way to it will raise NOT_PRESENT (code 0x07) with reason 6, writes to it are counted and
remembered for their lanes' next FENCE.POD, and no byte changes while no copy, drain or group of links involves it (05 R96; 14 R250, R251,
R253, R259, R263). Requests that arrive on a port: nothing but management reads and writes is served before FAB_DOMAIN is set; a read
answers with the bytes, a write stores them, an atomic answers with the old value and stores the new, a reduction combines and answers
with nothing; an answer leaves by the port of its request, with its class and stamp; a write to bytes that the matrix engine has still to
read waits; a request that misses memory stops the machine (04 R75; 14 R252, R262; that stop, and the numbers of operations and answers,
are the model's: log 10, log 34). -/
def Obligations.PortsAndLinks : Prop :=
  ((∀ (s : State) (port : Nat), port < 18 →
     (∃ u, exec (.linkResend port) s = .next u ∧ u = { s with ctl := u.ctl } ∧
       u.ctlGet .fabLinkRetries port = s.ctlGet .fabLinkRetries port + 1 ∧
       ∀ r v, u.ctlGet r v = if r = .fabLinkRetries ∧ v = port then s.ctlGet r v + 1 else s.ctlGet r v) ∧
     (∃ u, exec (.linkTakenOutOfService port) s = .next u ∧ u = { s with fab := { s.fab with links := u.fab.links } } ∧
       ∀ p < 18, u.fab.links.getLsbD p = if p = port then false else s.fab.links.getLsbD p) ∧
     ∃ u, exec (.linkUp port) s = .next u ∧ u = { s with fab := { s.fab with
         links := u.fab.links
         unreachable := [] } } ∧
       ∀ p < 18, u.fab.links.getLsbD p = if p = port then true else s.fab.links.getLsbD p) ∧
   (∀ (s : State) (port : Nat), 18 ≤ port → exec (.linkResend port) s = .next s ∧ exec (.linkTakenOutOfService port) s = .next s ∧
     exec (.linkUp port) s = .next s) ∧
   (∀ (s : State) (part : Nat), part = s.self ∨ part ∈ s.fab.unreachable → exec (.homeUnreachable part) s = .next s) ∧
   ∀ (s : State) (part : Nat), part ≠ s.self → part ∉ s.fab.unreachable →
     (∀ e ∈ s.groups, e.2.place ≠ .saving ∧ (∀ f, e.2.place ≠ .ending f) ∧ (∀ q ∈ s.copyPieces e.1, q.2.2 ≠ part) ∧
       ∀ q ∈ s.drainPieces e.1, q.2 ≠ part) →
     (∀ e < 64, (s.ctlGet .fabGrpCtl e).toNat / 2 ^ 63 = 1 → (s.ctlGet .fabGrpCtl e).toNat / 2 ^ 62 % 2 = 0 →
       ∀ j ∈ s.fab.joins.getD ((s.ctlGet .fabGrpCtl e).toNat % 2 ^ 12) [], j.1 ≠ part) →
     ∃ u, exec (.homeUnreachable part) s = .next u ∧ u.fab = { s.fab with unreachable := s.fab.unreachable ++ [part] } ∧ u.mem = s.mem ∧
       u.ctlGet .fabDroppedWrites 0 = s.ctlGet .fabDroppedWrites 0 +
         BitVec.ofNat 64 (s.groups.map (fun e => (e.2.unacked.filter (fun x => x.2.2 == part)).length)).sum ∧
       ∀ gid g, s.groups.get? gid = some g → ∃ h, u.groups.get? gid = some h ∧ g.sameV h ∧ g.sameS h ∧ g.sameP h ∧
         h.unacked = g.unacked.filter (fun x => x.2.2 != part) ∧
         h.dropped = g.dropped ++ (g.unacked.filter (fun x => x.2.2 == part)).map (fun x => (x.1, x.2.1)) ∧ h.pend.length = g.pend.length ∧
         ∀ (j : Nat) (p : Pend), g.pend[j]? = some p →
           (∀ a n sg, p.src = .remote part a n sg → ∃ lane, h.pend[j]? = some { p with
             src := .ready
             bad := p.bad ++ [({ code := 0x07, addr := a, detail := 6 }, lane)] }) ∧
           ((∀ a n sg, p.src ≠ .remote part a n sg) → h.pend[j]? = some p)) ∧
  (∀ (s : State) (port op addr size data cls stamp : Nat), port < 18 →
     let go := exec (.fabricIngressRequest port op addr size data cls stamp) s
     let key := physKey addr
     let old := Bytes.num s.byte key size
     let answer (u : State) (words : List Nat) : Prop := u.groups = s.groups ∧
       u.fab.sent = s.fab.sent ++ [{ dest := 4097 + port, vc := 1, op := 18, words := words, data := some (if words = [] then 0 else size),
                                     cls := cls % 4, stamp := stamp % 4096, port := some port, src := s.self }]
     let valid := (s.ctlGet .fabDomain 0).toNat / 2 ^ 63 = 1
     (op % 32 ≤ 3 → ¬ valid → ∃ u, go = .next u ∧ u = { s with ctl := u.ctl }) ∧
     (op % 32 ≤ 3 → valid → s.inMemory addr size = false → go = .fault (.physicalHole addr)) ∧
     (1 ≤ op % 32 → op % 32 ≤ 3 → valid → s.inMemory addr size = true → s.pinned key size = true → ∃ u, go = .next u ∧ u = { s with ctl := u.ctl }) ∧
     (valid → s.inMemory addr size = true → (op % 32 = 0 ∨ s.pinned key size = false) →
       (op % 32 = 0 → ∃ u, go = .next u ∧ answer u [old] ∧ s.sameBytes u) ∧
       (op % 32 = 1 → ∃ u, go = .next u ∧ answer u [] ∧ u.byte = Bytes.stored s.byte key size data) ∧
       (op % 32 = 2 → size = 4 ∨ size = 8 →
         let x := data % 2 ^ (8 * size)
         let results : List Nat := [opAdd size old x, opMinS size old x, opMaxS size old x, min old x, max old x, old &&& x, old ||| x, old ^^^ x, x]
         (∀ y, results[op / 32]? = some y → ∃ u, go = .next u ∧ answer u [old] ∧ u.byte = Bytes.stored s.byte key size y) ∧
         (op / 32 = 9 → ∃ u, go = .next u ∧ answer u [old] ∧
           u.byte = Bytes.stored s.byte key size (if old = x then data / 2 ^ (8 * size) else old))) ∧
       (op % 32 = 3 → op / 32 = 0x3A → size = 8 → ∃ u, go = .next u ∧ answer u [] ∧ u.byte = Bytes.stored s.byte key 8 (max old (data % 2 ^ 64))) ∧
       (op % 32 = 3 → op / 32 = 0x38 → size = 4 → ∃ u, go = .next u ∧ answer u [] ∧ u.byte = Bytes.stored s.byte key 4 (opAdd 4 old (data % 2 ^ 32)))))

/-- The identity block, 64 bytes at 0x0400_0000_0000: a management read answers with its magic, version, serial number, FEATURES, links
that are up and the low half of FAB_DOMAIN, and 0 in its reserved bytes (14 R263; 13 R247); that the answer goes on virtual channel 5 is
the model's (log 34). -/
def Obligations.IdentityBlock : Prop :=
  ∀ (s : State) (port o n data cls stamp : Nat), port < 18 → o + n ≤ 0x40 →
    let block := 0x39544E47 + 1 * 2 ^ 32 + Config.serial.toNat * 2 ^ 64 + 0x1FF * 2 ^ 192 + s.fab.links.toNat * 2 ^ 320 +
      (s.ctlGet .fabDomain 0).toNat % 2 ^ 32 * 2 ^ 352
    ∃ u, exec (.fabricIngressRequest port 20 (0x040000000000 + o) n data cls stamp) s = .next u ∧ s.sameBytes u ∧ u.groups = s.groups ∧
      u.fab.sent = s.fab.sent ++ [{ dest := 4097 + port, vc := 5, op := 18, words := [block / 256 ^ o % 256 ^ n], data := some n,
                                    cls := cls % 4, stamp := stamp % 4096, port := some port, src := s.self }]

/-! ## Memory system and firmware (04 R84; 06 R106 to R122; 12 R231; 13 R234, R246, R248) -/

/-- MEM_REQUEST_START: the scheduler of a pseudo-channel starts the oldest request that has waited 4 us, or else one of its most urgent
class, with the earliest deadline; one that is late and brings data to no pending result is counted when its data come or its write
commits, and one that waits for a fetch is judged with it. An access to HBM touches its sector in a line of Cupola, and where the line
does not hold it a request fetches it; a fetched sector opens its row and comes into its line. Refreshes are issued, or postponed up to 8
for a bank; an alert back-off issues 8 postponed ones (06 R106, R108, R115 to R117, R120). Remap sweeps and hotness: a block's move raises
the pointer, and after the last block the target is current; a threshold passed starts a sweep with AUTO, posts REMAP_WANTED without it,
and is refused while one runs; a window restarts the counts; a halving period halves a die's hotness counters. No byte moves (06 R112 to
R114, R122). That POINTER reads 0 after the last block, and that a threshold passed during a sweep without AUTO posts no event, are the
model's (log 93). -/
def Obligations.MemoryRequestsAndSweeps : Prop :=
  ((∀ (s : State) (pc : Nat),
     let l := s.msys.reqs.filter (fun q => q.pc == pc)
     let aged (q : MemReq) : Prop := 4000 ≤ s.podTime - q.arrived
     l ≠ [] → ∃ q ∈ l, ∃ u, exec (.memRequestStart pc) s = .next u ∧ u.mem = s.mem ∧ u.groups = s.groups ∧
       ((∃ p ∈ l, aged p) → aged q ∧ ∀ p ∈ l, aged p → q.arrived ≤ p.arrived) ∧
       ((∀ p ∈ l, ¬ aged p) → (∀ p ∈ l, q.cls ≤ p.cls) ∧ ∀ p ∈ l, p.cls = q.cls → ∀ d, p.deadline = some d → ∃ e, q.deadline = some e ∧ e ≤ d) ∧
       (∀ d, q.deadline = some d → q.serves = none → q.judge = [] → q.requester < 506 →
         let held := ∃ c, s.msys.cupola.get? q.line = some c ∧ c.held.getLsbD q.sec = true ∧ 0 < s.cupolaLines (pc / 64)
         (512 ≤ pc ∨ q.fill = true ∨ q.write = true ∨ held → u.ctlGet .memMissed q.requester =
           s.ctlGet .memMissed q.requester + (if d < s.podTime then 1 else 0)) ∧
         (pc < 512 → q.fill = false → q.write = false → ¬ held → u.ctlGet .memMissed q.requester = s.ctlGet .memMissed q.requester ∧
           ∃ p ∈ u.msys.reqs, p.fill = true ∧ p.line = q.line ∧ p.sec = q.sec ∧ (q.requester, d) ∈ p.judge)) ∧
       (512 ≤ pc → u.msys = { s.msys with reqs := s.msys.reqs.erase q }) ∧
       (pc < 512 → q.fill = true → u.msys.reqs = s.msys.reqs.erase q ∧
         u.msys.rows.get? (pc * 16 + q.addr / 2048 % 16) = some (q.addr / 32768) ∧
         ∀ c, s.msys.cupola.get? q.line = some c → ∃ d, u.msys.cupola.get? q.line = some d ∧ d.touched = c.touched ∧ d.entry = c.entry ∧
           ∀ i < 32, d.held.getLsbD i = (c.held.getLsbD i || decide (i = q.sec))) ∧
       (pc < 512 → q.fill = false → 0 < s.cupolaLines (pc / 64) → ∃ c, u.msys.cupola.get? q.line = some c ∧ c.touched.getLsbD q.sec = true ∧
         (c.held.getLsbD q.sec = true → u.msys.reqs = s.msys.reqs.erase q) ∧
         (c.held.getLsbD q.sec = false → ∃ p ∈ u.msys.reqs, p.fill = true ∧ p.line = q.line ∧ p.sec = q.sec))) ∧
   (∀ (s : State) (pc bank : Nat),
     let k := pc * 16 + bank
     let n := s.msys.postponed.getD k 0
     ∃ u, exec (.refreshDue pc bank) s = .next u ∧ u.mem = s.mem ∧ u.groups = s.groups ∧ u.msys.reqs = s.msys.reqs ∧
       (u.msys.postponed.getD k 0 ≤ n ∧ u.msys.rows.get? k = none ∨
        n < 8 ∧ u.msys.postponed.getD k 0 = n + 1 ∧ u.msys.rows = s.msys.rows)) ∧
   ∀ (s : State) (pc bank n : Nat),
     let k := pc * 16 + bank
     ∃ u, exec (.alertBackoff pc bank n) s = .next u ∧ u.mem = s.mem ∧ u.groups = s.groups ∧
       u.ctlGet .memPcAlert pc = s.ctlGet .memPcAlert pc + 1 ∧
       (s.msys.postponed.getD k 0 = 8 → u.msys.postponed.getD k 0 = 0 ∧ u.msys.rows.get? k = none) ∧
       (s.msys.postponed.getD k 0 ≠ 8 → u.msys.postponed = s.msys.postponed) ∧ (n ≠ 0 → u.msys.rows.get? k = none)) ∧
  ((∀ (s : State) (span : Nat),
     let c := (s.ctlGet .memRemapCtl span).toNat
     let p := c / 2 ^ 48 + 1
     c / 2 ^ 15 % 2 = 1 → ∀ fam target, s.msys.sweeps.get? span = some (fam, target) → fam ≤ 4 → target < 4 →
     ∃ u y, exec (.remapBlockMove span) s = .next u ∧
       u = { s with
         ctl := u.ctl
         msys := u.msys
         env := u.env } ∧
       (∀ r v, r.tally = false → u.ctlGet r v = if r = .memRemapCtl ∧ v = span then BitVec.ofNat 64 y else s.ctlGet r v) ∧ y < 2 ^ 64 ∧
       (p < (if s.disp.whole = true then 32768 else 4096) → y / 2 ^ 48 = p ∧ y % 2 ^ 48 = c % 2 ^ 48) ∧
       ((if s.disp.whole = true then 32768 else 4096) ≤ p → y / 2 ^ 48 = 0 ∧ y / 2 ^ 15 % 2 = 0 ∧ y / 2 ^ (32 + 2 * fam) % 4 = target ∧
         (∀ f ≤ 4, f ≠ fam → y / 2 ^ (32 + 2 * f) % 4 = c / 2 ^ (32 + 2 * f) % 4) ∧ y / 2 ^ 16 % 2 ^ 8 = c / 2 ^ 16 % 2 ^ 8)) ∧
   (∀ (s : State) (span family : Nat),
     let c := (s.ctlGet .memRemapCtl span).toNat
     let fam := if family = 5 then 1 else if family = 6 then 4 else family
     let v : State := { s with msys := { s.msys with passed := s.msys.passed ++ [span * 8 + family] } }
     span < 8 → family ≤ 6 → (s.ctlGet .memRemapThresh span).toNat < (s.ctlGet .memFamRowconf (span * 8 + family)).toNat →
     span * 8 + family ∉ s.msys.passed →
     (c / 2 ^ 15 % 2 = 1 → ∃ u, exec (.remapThresholdPassed span family) s = .next u ∧ u = { v with ctl := u.ctl } ∧
       u.ctlGet .memRemapRefused span = s.ctlGet .memRemapRefused span + 1 ∧ u.ctlGet .memRemapCtl span = s.ctlGet .memRemapCtl span) ∧
     (c / 2 ^ 15 % 2 = 0 → c / 2 ^ 17 % 2 = 1 → ∃ u, exec (.remapThresholdPassed span family) s = .next u ∧
       u = { v with
         ctl := u.ctl
         msys := u.msys
         env := u.env } ∧
       u.msys.sweeps.get? span = some (fam, (c / 2 ^ (32 + 2 * fam) + 1) % 4) ∧ u.msys.passed = v.msys.passed ∧
       let y := (u.ctlGet .memRemapCtl span).toNat
       y / 2 ^ 15 % 2 = 1 ∧ y / 2 ^ 48 = 0 ∧ y / 2 ^ 20 % 16 = fam ∧ y / 2 ^ 18 % 4 = (c / 2 ^ (32 + 2 * fam) + 1) % 4) ∧
     (c / 2 ^ 15 % 2 = 0 → c / 2 ^ 17 % 2 = 0 → exec (.remapThresholdPassed span family) s =
       .next (v.post { ring := 0, code := 4, part := span, w := 0, x := span, y := family, z := 0 }))) ∧
   (∀ (s : State) (span : Nat), span < 8 →
     1000 * ((s.ctlGet .memRemapWindow span).toNat % 2 ^ 32) + s.msys.window.getD span 0 ≤ s.podTime →
     ∃ u, exec (.memRemapWindow span) s = .next u ∧ u.mem = s.mem ∧ u.groups = s.groups ∧
       (∀ r v, u.ctlGet r v = if r = .memFamRowconf ∧ v / 8 = span then 0 else s.ctlGet r v) ∧ ∀ k ∈ u.msys.passed, k / 8 ≠ span) ∧
   ∀ (s : State) (die : Nat),
     let us := (s.ctlGet .memHotEpoch die).toNat % 2 ^ 32
     die < 2 → us ≠ 0 → 1000 * us + s.msys.epoch.getD die 0 ≤ s.podTime → Store.wf s.msys.hot = true →
     ∃ u, exec (.memHotEpoch die) s = .next u ∧ u.mem = s.mem ∧ u.groups = s.groups ∧ u.ctl = s.ctl ∧
       ∀ i, u.msys.hot.getD i 0 = if i / 524288 = die then s.msys.hot.getD i 0 / 2 else s.msys.hot.getD i 0)

/-- Firmware: an image is installed only in the slot that does not run and only if it verifies; it boots on trial at the next module
reset; a commit raises the fused minimum; without one the other slot boots after 30 s, on trial where an image was installed there
meanwhile, and FW_REVERTED is posted; a reset in between leaves the trial on trial. A report holds the nonce, the modes and the digests,
signed. A watchdog stops no work, and a queue's head count goes on from its head block (04 R75; 13 R233, R234, R246, R248). That addresses
of requests are physical, and the ring of FW_REVERTED, are the model's (log 32, log 91). -/
def Obligations.FirmwareAndAttestation : Prop :=
  let booted (s v : State) (slot : Nat) (trial : Bool) : Prop := v.groups = [] ∧ v.teams = [] ∧ v.grids = [] ∧ v.mem = State.reset.mem ∧
    v.ctl = State.reset.ctl ∧ v.ctrl = State.reset.ctrl ∧ v.disp = State.reset.disp ∧ v.mmu = State.reset.mmu ∧ v.eng = State.reset.eng ∧
    v.spire = State.reset.spire ∧ v.fab = State.reset.fab ∧ v.fw = { s.fw with
      running := slot
      next := none
      trial := trial
      started := s.env.cycle } ∧ v.env.cycle = s.env.cycle ∧ v.env.resetAt = s.env.cycle
  (∀ (s : State) (n : Nat), s.headRequest = some (n, 0xD) → s.campanileWaits = false →
    let slot := s.reqWord n 0
    let served (st : Nat) (v : State) : Prop := exec .fwInstall s = .next (v.reqDone n st)
    slot ≤ 1 → s.inMemory (s.reqWord n 1) (s.reqWord n 2) = true →
    (slot = s.fw.running → served 2 s) ∧
    let kept (v : State) : Prop := s.sameBytes v ∧ v.groups = s.groups ∧ v.ctrl = s.ctrl
    (slot ≠ s.fw.running → 160 ≤ s.reqWord n 2 → s.msys.late = [] → match imageOf (s.mem.bytes (physKey (s.reqWord n 1)) (s.reqWord n 2)) s.fw.minimum with
      | none => ∃ v, served 2 v ∧ kept v ∧ v.fw = s.fw
      | some i => ∃ v, served 1 v ∧ kept v ∧ v.fw = { s.fw with
          slots := s.fw.slots.set slot i
          next := some slot })) ∧
  (∀ (bs : List Byte) (least : Nat) (i : Image), 160 ≤ bs.length → (imageOf bs least = some i ↔
    i = { body := bs.drop 160, version := fromLe ((bs.drop 12).take 4) } ∧ least ≤ i.version ∧ fromLe (bs.take 4) = 0x57464E47 ∧
    fromLe ((bs.drop 4).take 4) = 1 ∧ fromLe ((bs.drop 8).take 4) = i.body.length ∧ fromLe ((bs.drop 16).take 48) = (Config.sha384 i.body).toNat ∧
    Config.firmwareKeyAccepts (bs.take 64) ((bs.drop 64).take 96) = true)) ∧
  (∀ s : State, (s.fw.trial = true →
      ∃ u, exec .fwCommit s = .next u ∧ u.fw.trial = false ∧ u.fwStatusWord / 4 % 2 = 1 ∧ u.fw.running = s.fw.running ∧ u.groups = s.groups ∧
        u.fw.minimum = max s.fw.minimum (s.fw.slots.getD s.fw.running { body := [], version := 0 }).version) ∧
    (∃ u, exec .moduleReset s = .next u ∧ booted s u (s.fw.next.getD s.fw.running) (s.fw.next.isSome || s.fw.trial)) ∧
    (s.fw.trial = true → s.fw.started + 2400 * 30000000 ≤ s.env.cycle → ∃ v, booted s v (1 - s.fw.running) s.fw.next.isSome ∧ exec .fwTrialTimeout s =
      .next (v.post { ring := 0, code := 8, part := 0, w := 0, x := 1 - s.fw.running, y := 0, z := 0 })) ∧
    ∀ core, ∃ u, exec (.watchdogFire core) s = .next u ∧ u.groups = s.groups ∧ u.teams = s.teams ∧ u.grids = s.grids ∧ u.eng = s.eng ∧
      u.spire = s.spire ∧ u.disp = s.disp ∧ u.fw = s.fw ∧
      (∀ n q, Store.wf s.ctrl.queues = true → s.ctrl.queues.get? n = some q → (if core < 48 then ∀ k, q.slot = some k → k % 48 ≠ core else q.slot.isSome = true ∨ q.mapped = false) →
        (u.queue n).head = q.head) ∧
      ∀ n q, core < 48 → (∀ e ∈ s.ctrl.queues, e.2.mapped = true → e.2.slot.any (fun k => k % 48 == core) = true → e = (n, q)) →
        (n, q) ∈ s.ctrl.queues → q.mapped = true → q.slot.any (fun k => k % 48 == core) = true → u = s.rebuild n ∧
        ∀ h, s.ownRead (s.rebuilt n).acc (s.rebuilt n).headBlk 8 = some h → (s.rebuilt n).head = h) ∧
  ∀ (s : State) (n : Nat), s.headRequest = some (n, 0xE) → s.campanileWaits = false →
    let np := physKey (s.reqWord n 0)
    let rp := physKey (s.reqWord n 1)
    let body (i : Nat) := (s.fw.slots.getD i { body := [], version := 0 }).body
    s.inMemory (s.reqWord n 0) 48 = true → s.inMemory (s.reqWord n 1) 304 = true → s.msys.late = [] → s.pinned rp 304 = false →
    ∃ (v : State) (bs : List Byte), exec .attest s = .next (v.reqDone n 1) ∧ v.groups = s.groups ∧ v.ctrl = s.ctrl ∧ v.fw = s.fw ∧
      bs.length = 208 ∧ v.byte = Bytes.stored s.byte rp 304 (fromLe bs + (Config.identitySign bs).toNat * 2 ^ 1664) ∧
      fromLe (bs.take 4) = 1 ∧ fromLe ((bs.drop 4).take 4) = (if s.disp.whole = true then 0 else 1 + s.disp.slices % 256 * 256) ∧
      fromLe ((bs.drop 8).take 16) = 0x1FF ∧ fromLe ((bs.drop 24).take 16) = s.ctrl.accept.toNat ∧ fromLe ((bs.drop 40).take 8) = s.self ∧
      fromLe ((bs.drop 48).take 48) = Bytes.num s.byte np 48 ∧ fromLe ((bs.drop 96).take 48) = (Config.sha384 (body s.fw.running)).toNat ∧
      fromLe ((bs.drop 144).take 48) = (if body (1 - s.fw.running) = [] then 0 else (Config.sha384 (body (1 - s.fw.running))).toNat) ∧
      fromLe ((bs.drop 192).take 4) = s.fw.minimum % 2 ^ 32 ∧ fromLe (bs.drop 196) = 0

/-- A soft error that is corrected is only counted, in the partition of its place; one that is not poisons its unit and is counted: a
64-byte sector, a register of a group, scalar and predicate registers too, or a tile; it changes no byte and no register's value (04 R84;
12 R231, R232). At a place that the part does not have nothing happens. -/
def Obligations.SoftErrorsPoison : Prop :=
  (∀ (s : State) (place unit : Nat), ∃ u, exec (.eccError place unit 0) s = .next u ∧ u = { s with ctl := u.ctl } ∧
    ∀ r v, u.ctlGet r v = if r = .eccCorrected ∧ v = s.eccPart place unit then s.ctlGet r v + 1 else s.ctlGet r v) ∧
  ∀ (s : State) (place unit fatal : Nat), fatal ≠ 0 →
    let counted (u : State) : Prop := ∀ r v, u.ctlGet r v = if r = .eccPoisoned ∧ v = s.eccPart place unit then s.ctlGet r v + 1 else s.ctlGet r v
    (place ≤ 3 → ∃ u, exec (.eccError place unit fatal) s = .next u ∧ s.sameBytes u ∧ counted u ∧
      u = { s with
        mem := u.mem
        eng := { s.eng with ops := u.eng.ops }
        ctl := u.ctl } ∧
      u.eng.ops.length = s.eng.ops.length ∧
      ∀ j, u.mem.poisonAt j 1 = if j % 4 = unit % 4 ∧ j / 4 / 64 = unit / 4 / 64 then some place else s.mem.poisonAt j 1) ∧
    (∀ gid reg g, place = 4 → unit = 512 * gid + reg → reg < 128 ∨ 256 < reg ∧ reg < 320 ∨ 320 < reg ∧ reg < 328 →
      s.groups.get? gid = some g → ∃ u h, exec (.eccError place unit fatal) s = .next u ∧ counted u ∧
        u = { s with
          groups := u.groups
          ctl := u.ctl } ∧
        u.groups.get? gid = some h ∧ h = { g with poison := h.poison } ∧ (∀ k, k ≠ gid → u.groups.get? k = s.groups.get? k) ∧
        ∀ r, r ∈ h.poison ↔ r ∈ g.poison ∨ r = reg) ∧
    (∀ team tile t, place = 5 → unit = 16 * team + tile → tile < 16 → s.teams.get? team = some t →
      ∃ u x, exec (.eccError place unit fatal) s = .next u ∧ counted u ∧
        u = { s with
          teams := u.teams
          ctl := u.ctl } ∧
        u.teams.get? team = some x ∧ x = { t with poisonCols := x.poisonCols } ∧ ∀ c, c ∈ x.poisonCols ↔ c ∈ t.poisonCols ∨ c / 4 = tile) ∧
    (5 < place → exec (.eccError place unit fatal) s = .next s)

/-! ## Dexlink (14 R250 to R262) -/

/-- What comes from outside and asks for nothing always goes on: a flit sent again, a link that goes down or comes up, a part that becomes
unreachable, a soft error, at whatever place; none of them changes time, firmware, a queue's state or a cached translation, but that holds
are released with a unit that ends (05 R101; 12 R231; 14 R250, R251, R253). -/
def Obligations.OutsideEventsComplete : Prop :=
  ∀ (s : State) (port part place unit fatal : Nat) (i : Instr),
    i ∈ [.linkResend port, .linkTakenOutOfService port, .linkUp port, .homeUnreachable part, .eccError place unit fatal] →
    ∃ t, exec i s = .next t ∧ t.env.cycle = s.env.cycle ∧ t.fw = s.fw ∧ t.ctrl.queues = s.ctrl.queues ∧
      (∀ e, e.held = false → (e ∈ t.mmu.tlb ↔ e ∈ s.mmu.tlb)) ∧ (i ≠ .homeUnreachable part → t.mmu.tlb = s.mmu.tlb ∧ t.grids = s.grids ∧ s.sameBytes t ∧ ∀ gid,
        (t.groups.get? gid).map (fun g => { g with poison := [] }) = (s.groups.get? gid).map (fun g => { g with poison := [] }))
end

