-- ==== Sys2Proof/Laws/State.lean ====
section
/-! SUPPORT. What each plain update of the state leaves in each field, one lemma for each (no later proof unfolds an update). -/
namespace Sys2Proof.Machine

/-! ## State.setGroup -/

@[simp] theorem State.setGroup_env (s : State) (gid : Nat) (g : Group) : (s.setGroup gid g).env = s.env := rfl
@[simp] theorem State.setGroup_cur (s : State) (gid : Nat) (g : Group) : (s.setGroup gid g).cur = s.cur := rfl
@[simp] theorem State.setGroup_pendB (s : State) (gid : Nat) (g : Group) : (s.setGroup gid g).pendB = s.pendB := rfl
@[simp] theorem State.setGroup_groups (s : State) (gid : Nat) (g : Group) : (s.setGroup gid g).groups = s.groups.set gid g := rfl
@[simp] theorem State.setGroup_teams (s : State) (gid : Nat) (g : Group) : (s.setGroup gid g).teams = s.teams := rfl
@[simp] theorem State.setGroup_grids (s : State) (gid : Nat) (g : Group) : (s.setGroup gid g).grids = s.grids := rfl
@[simp] theorem State.setGroup_mem (s : State) (gid : Nat) (g : Group) : (s.setGroup gid g).mem = s.mem := rfl
@[simp] theorem State.setGroup_ctl (s : State) (gid : Nat) (g : Group) : (s.setGroup gid g).ctl = s.ctl := rfl
@[simp] theorem State.setGroup_mmu (s : State) (gid : Nat) (g : Group) : (s.setGroup gid g).mmu = s.mmu := rfl
@[simp] theorem State.setGroup_disp (s : State) (gid : Nat) (g : Group) : (s.setGroup gid g).disp = s.disp := rfl
@[simp] theorem State.setGroup_eng (s : State) (gid : Nat) (g : Group) : (s.setGroup gid g).eng = s.eng := rfl
@[simp] theorem State.setGroup_spire (s : State) (gid : Nat) (g : Group) : (s.setGroup gid g).spire = s.spire := rfl
@[simp] theorem State.setGroup_ctrl (s : State) (gid : Nat) (g : Group) : (s.setGroup gid g).ctrl = s.ctrl := rfl
@[simp] theorem State.setGroup_fab (s : State) (gid : Nat) (g : Group) : (s.setGroup gid g).fab = s.fab := rfl
@[simp] theorem State.setGroup_msys (s : State) (gid : Nat) (g : Group) : (s.setGroup gid g).msys = s.msys := rfl
@[simp] theorem State.setGroup_fw (s : State) (gid : Nat) (g : Group) : (s.setGroup gid g).fw = s.fw := rfl
@[simp] theorem State.setGroup_log (s : State) (gid : Nat) (g : Group) : (s.setGroup gid g).log = s.log := rfl

/-! ## State.setTeam -/

@[simp] theorem State.setTeam_env (s : State) (t : Nat) (x : Team) : (s.setTeam t x).env = s.env := rfl
@[simp] theorem State.setTeam_cur (s : State) (t : Nat) (x : Team) : (s.setTeam t x).cur = s.cur := rfl
@[simp] theorem State.setTeam_pendB (s : State) (t : Nat) (x : Team) : (s.setTeam t x).pendB = s.pendB := rfl
@[simp] theorem State.setTeam_groups (s : State) (t : Nat) (x : Team) : (s.setTeam t x).groups = s.groups := rfl
@[simp] theorem State.setTeam_teams (s : State) (t : Nat) (x : Team) : (s.setTeam t x).teams = s.teams.set t x := rfl
@[simp] theorem State.setTeam_grids (s : State) (t : Nat) (x : Team) : (s.setTeam t x).grids = s.grids := rfl
@[simp] theorem State.setTeam_mem (s : State) (t : Nat) (x : Team) : (s.setTeam t x).mem = s.mem := rfl
@[simp] theorem State.setTeam_ctl (s : State) (t : Nat) (x : Team) : (s.setTeam t x).ctl = s.ctl := rfl
@[simp] theorem State.setTeam_mmu (s : State) (t : Nat) (x : Team) : (s.setTeam t x).mmu = s.mmu := rfl
@[simp] theorem State.setTeam_disp (s : State) (t : Nat) (x : Team) : (s.setTeam t x).disp = s.disp := rfl
@[simp] theorem State.setTeam_eng (s : State) (t : Nat) (x : Team) : (s.setTeam t x).eng = s.eng := rfl
@[simp] theorem State.setTeam_spire (s : State) (t : Nat) (x : Team) : (s.setTeam t x).spire = s.spire := rfl
@[simp] theorem State.setTeam_ctrl (s : State) (t : Nat) (x : Team) : (s.setTeam t x).ctrl = s.ctrl := rfl
@[simp] theorem State.setTeam_fab (s : State) (t : Nat) (x : Team) : (s.setTeam t x).fab = s.fab := rfl
@[simp] theorem State.setTeam_msys (s : State) (t : Nat) (x : Team) : (s.setTeam t x).msys = s.msys := rfl
@[simp] theorem State.setTeam_fw (s : State) (t : Nat) (x : Team) : (s.setTeam t x).fw = s.fw := rfl
@[simp] theorem State.setTeam_log (s : State) (t : Nat) (x : Team) : (s.setTeam t x).log = s.log := rfl

/-! ## State.setGrid -/

@[simp] theorem State.setGrid_env (s : State) (id : Nat) (x : Grid) : (s.setGrid id x).env = s.env := rfl
@[simp] theorem State.setGrid_cur (s : State) (id : Nat) (x : Grid) : (s.setGrid id x).cur = s.cur := rfl
@[simp] theorem State.setGrid_pendB (s : State) (id : Nat) (x : Grid) : (s.setGrid id x).pendB = s.pendB := rfl
@[simp] theorem State.setGrid_groups (s : State) (id : Nat) (x : Grid) : (s.setGrid id x).groups = s.groups := rfl
@[simp] theorem State.setGrid_teams (s : State) (id : Nat) (x : Grid) : (s.setGrid id x).teams = s.teams := rfl
@[simp] theorem State.setGrid_grids (s : State) (id : Nat) (x : Grid) : (s.setGrid id x).grids = s.grids.set id x := rfl
@[simp] theorem State.setGrid_mem (s : State) (id : Nat) (x : Grid) : (s.setGrid id x).mem = s.mem := rfl
@[simp] theorem State.setGrid_ctl (s : State) (id : Nat) (x : Grid) : (s.setGrid id x).ctl = s.ctl := rfl
@[simp] theorem State.setGrid_mmu (s : State) (id : Nat) (x : Grid) : (s.setGrid id x).mmu = s.mmu := rfl
@[simp] theorem State.setGrid_disp (s : State) (id : Nat) (x : Grid) : (s.setGrid id x).disp = s.disp := rfl
@[simp] theorem State.setGrid_eng (s : State) (id : Nat) (x : Grid) : (s.setGrid id x).eng = s.eng := rfl
@[simp] theorem State.setGrid_spire (s : State) (id : Nat) (x : Grid) : (s.setGrid id x).spire = s.spire := rfl
@[simp] theorem State.setGrid_ctrl (s : State) (id : Nat) (x : Grid) : (s.setGrid id x).ctrl = s.ctrl := rfl
@[simp] theorem State.setGrid_fab (s : State) (id : Nat) (x : Grid) : (s.setGrid id x).fab = s.fab := rfl
@[simp] theorem State.setGrid_msys (s : State) (id : Nat) (x : Grid) : (s.setGrid id x).msys = s.msys := rfl
@[simp] theorem State.setGrid_fw (s : State) (id : Nat) (x : Grid) : (s.setGrid id x).fw = s.fw := rfl
@[simp] theorem State.setGrid_log (s : State) (id : Nat) (x : Grid) : (s.setGrid id x).log = s.log := rfl

/-! ## State.modGroup -/

@[simp] theorem State.modGroup_env (s : State) (gid : Nat) (f : Group → Group) : (s.modGroup gid f).env = s.env := rfl
@[simp] theorem State.modGroup_cur (s : State) (gid : Nat) (f : Group → Group) : (s.modGroup gid f).cur = s.cur := rfl
@[simp] theorem State.modGroup_pendB (s : State) (gid : Nat) (f : Group → Group) : (s.modGroup gid f).pendB = s.pendB := rfl
@[simp] theorem State.modGroup_groups (s : State) (gid : Nat) (f : Group → Group) : (s.modGroup gid f).groups = s.groups.modify gid f := rfl
@[simp] theorem State.modGroup_teams (s : State) (gid : Nat) (f : Group → Group) : (s.modGroup gid f).teams = s.teams := rfl
@[simp] theorem State.modGroup_grids (s : State) (gid : Nat) (f : Group → Group) : (s.modGroup gid f).grids = s.grids := rfl
@[simp] theorem State.modGroup_mem (s : State) (gid : Nat) (f : Group → Group) : (s.modGroup gid f).mem = s.mem := rfl
@[simp] theorem State.modGroup_ctl (s : State) (gid : Nat) (f : Group → Group) : (s.modGroup gid f).ctl = s.ctl := rfl
@[simp] theorem State.modGroup_mmu (s : State) (gid : Nat) (f : Group → Group) : (s.modGroup gid f).mmu = s.mmu := rfl
@[simp] theorem State.modGroup_disp (s : State) (gid : Nat) (f : Group → Group) : (s.modGroup gid f).disp = s.disp := rfl
@[simp] theorem State.modGroup_eng (s : State) (gid : Nat) (f : Group → Group) : (s.modGroup gid f).eng = s.eng := rfl
@[simp] theorem State.modGroup_spire (s : State) (gid : Nat) (f : Group → Group) : (s.modGroup gid f).spire = s.spire := rfl
@[simp] theorem State.modGroup_ctrl (s : State) (gid : Nat) (f : Group → Group) : (s.modGroup gid f).ctrl = s.ctrl := rfl
@[simp] theorem State.modGroup_fab (s : State) (gid : Nat) (f : Group → Group) : (s.modGroup gid f).fab = s.fab := rfl
@[simp] theorem State.modGroup_msys (s : State) (gid : Nat) (f : Group → Group) : (s.modGroup gid f).msys = s.msys := rfl
@[simp] theorem State.modGroup_fw (s : State) (gid : Nat) (f : Group → Group) : (s.modGroup gid f).fw = s.fw := rfl
@[simp] theorem State.modGroup_log (s : State) (gid : Nat) (f : Group → Group) : (s.modGroup gid f).log = s.log := rfl

/-! ## State.modTeam -/

@[simp] theorem State.modTeam_env (s : State) (t : Nat) (f : Team → Team) : (s.modTeam t f).env = s.env := rfl
@[simp] theorem State.modTeam_cur (s : State) (t : Nat) (f : Team → Team) : (s.modTeam t f).cur = s.cur := rfl
@[simp] theorem State.modTeam_pendB (s : State) (t : Nat) (f : Team → Team) : (s.modTeam t f).pendB = s.pendB := rfl
@[simp] theorem State.modTeam_groups (s : State) (t : Nat) (f : Team → Team) : (s.modTeam t f).groups = s.groups := rfl
@[simp] theorem State.modTeam_teams (s : State) (t : Nat) (f : Team → Team) : (s.modTeam t f).teams = s.teams.modify t f := rfl
@[simp] theorem State.modTeam_grids (s : State) (t : Nat) (f : Team → Team) : (s.modTeam t f).grids = s.grids := rfl
@[simp] theorem State.modTeam_mem (s : State) (t : Nat) (f : Team → Team) : (s.modTeam t f).mem = s.mem := rfl
@[simp] theorem State.modTeam_ctl (s : State) (t : Nat) (f : Team → Team) : (s.modTeam t f).ctl = s.ctl := rfl
@[simp] theorem State.modTeam_mmu (s : State) (t : Nat) (f : Team → Team) : (s.modTeam t f).mmu = s.mmu := rfl
@[simp] theorem State.modTeam_disp (s : State) (t : Nat) (f : Team → Team) : (s.modTeam t f).disp = s.disp := rfl
@[simp] theorem State.modTeam_eng (s : State) (t : Nat) (f : Team → Team) : (s.modTeam t f).eng = s.eng := rfl
@[simp] theorem State.modTeam_spire (s : State) (t : Nat) (f : Team → Team) : (s.modTeam t f).spire = s.spire := rfl
@[simp] theorem State.modTeam_ctrl (s : State) (t : Nat) (f : Team → Team) : (s.modTeam t f).ctrl = s.ctrl := rfl
@[simp] theorem State.modTeam_fab (s : State) (t : Nat) (f : Team → Team) : (s.modTeam t f).fab = s.fab := rfl
@[simp] theorem State.modTeam_msys (s : State) (t : Nat) (f : Team → Team) : (s.modTeam t f).msys = s.msys := rfl
@[simp] theorem State.modTeam_fw (s : State) (t : Nat) (f : Team → Team) : (s.modTeam t f).fw = s.fw := rfl
@[simp] theorem State.modTeam_log (s : State) (t : Nat) (f : Team → Team) : (s.modTeam t f).log = s.log := rfl

/-! ## State.modGrid -/

@[simp] theorem State.modGrid_env (s : State) (id : Nat) (f : Grid → Grid) : (s.modGrid id f).env = s.env := rfl
@[simp] theorem State.modGrid_cur (s : State) (id : Nat) (f : Grid → Grid) : (s.modGrid id f).cur = s.cur := rfl
@[simp] theorem State.modGrid_pendB (s : State) (id : Nat) (f : Grid → Grid) : (s.modGrid id f).pendB = s.pendB := rfl
@[simp] theorem State.modGrid_groups (s : State) (id : Nat) (f : Grid → Grid) : (s.modGrid id f).groups = s.groups := rfl
@[simp] theorem State.modGrid_teams (s : State) (id : Nat) (f : Grid → Grid) : (s.modGrid id f).teams = s.teams := rfl
@[simp] theorem State.modGrid_grids (s : State) (id : Nat) (f : Grid → Grid) : (s.modGrid id f).grids = s.grids.modify id f := rfl
@[simp] theorem State.modGrid_mem (s : State) (id : Nat) (f : Grid → Grid) : (s.modGrid id f).mem = s.mem := rfl
@[simp] theorem State.modGrid_ctl (s : State) (id : Nat) (f : Grid → Grid) : (s.modGrid id f).ctl = s.ctl := rfl
@[simp] theorem State.modGrid_mmu (s : State) (id : Nat) (f : Grid → Grid) : (s.modGrid id f).mmu = s.mmu := rfl
@[simp] theorem State.modGrid_disp (s : State) (id : Nat) (f : Grid → Grid) : (s.modGrid id f).disp = s.disp := rfl
@[simp] theorem State.modGrid_eng (s : State) (id : Nat) (f : Grid → Grid) : (s.modGrid id f).eng = s.eng := rfl
@[simp] theorem State.modGrid_spire (s : State) (id : Nat) (f : Grid → Grid) : (s.modGrid id f).spire = s.spire := rfl
@[simp] theorem State.modGrid_ctrl (s : State) (id : Nat) (f : Grid → Grid) : (s.modGrid id f).ctrl = s.ctrl := rfl
@[simp] theorem State.modGrid_fab (s : State) (id : Nat) (f : Grid → Grid) : (s.modGrid id f).fab = s.fab := rfl
@[simp] theorem State.modGrid_msys (s : State) (id : Nat) (f : Grid → Grid) : (s.modGrid id f).msys = s.msys := rfl
@[simp] theorem State.modGrid_fw (s : State) (id : Nat) (f : Grid → Grid) : (s.modGrid id f).fw = s.fw := rfl
@[simp] theorem State.modGrid_log (s : State) (id : Nat) (f : Grid → Grid) : (s.modGrid id f).log = s.log := rfl

/-! ## State.ctlSet -/

@[simp] theorem State.ctlSet_env (s : State) (r : CtlReg) (u : Nat) (x : W64) : (s.ctlSet r u x).env = s.env := rfl
@[simp] theorem State.ctlSet_cur (s : State) (r : CtlReg) (u : Nat) (x : W64) : (s.ctlSet r u x).cur = s.cur := rfl
@[simp] theorem State.ctlSet_pendB (s : State) (r : CtlReg) (u : Nat) (x : W64) : (s.ctlSet r u x).pendB = s.pendB := rfl
@[simp] theorem State.ctlSet_groups (s : State) (r : CtlReg) (u : Nat) (x : W64) : (s.ctlSet r u x).groups = s.groups := rfl
@[simp] theorem State.ctlSet_teams (s : State) (r : CtlReg) (u : Nat) (x : W64) : (s.ctlSet r u x).teams = s.teams := rfl
@[simp] theorem State.ctlSet_grids (s : State) (r : CtlReg) (u : Nat) (x : W64) : (s.ctlSet r u x).grids = s.grids := rfl
@[simp] theorem State.ctlSet_mem (s : State) (r : CtlReg) (u : Nat) (x : W64) : (s.ctlSet r u x).mem = s.mem := rfl
@[simp] theorem State.ctlSet_ctl (s : State) (r : CtlReg) (u : Nat) (x : W64) : (s.ctlSet r u x).ctl = s.ctl.set (r.key u) x := rfl
@[simp] theorem State.ctlSet_mmu (s : State) (r : CtlReg) (u : Nat) (x : W64) : (s.ctlSet r u x).mmu = s.mmu := rfl
@[simp] theorem State.ctlSet_disp (s : State) (r : CtlReg) (u : Nat) (x : W64) : (s.ctlSet r u x).disp = s.disp := rfl
@[simp] theorem State.ctlSet_eng (s : State) (r : CtlReg) (u : Nat) (x : W64) : (s.ctlSet r u x).eng = s.eng := rfl
@[simp] theorem State.ctlSet_spire (s : State) (r : CtlReg) (u : Nat) (x : W64) : (s.ctlSet r u x).spire = s.spire := rfl
@[simp] theorem State.ctlSet_ctrl (s : State) (r : CtlReg) (u : Nat) (x : W64) : (s.ctlSet r u x).ctrl = s.ctrl := rfl
@[simp] theorem State.ctlSet_fab (s : State) (r : CtlReg) (u : Nat) (x : W64) : (s.ctlSet r u x).fab = s.fab := rfl
@[simp] theorem State.ctlSet_msys (s : State) (r : CtlReg) (u : Nat) (x : W64) : (s.ctlSet r u x).msys = s.msys := rfl
@[simp] theorem State.ctlSet_fw (s : State) (r : CtlReg) (u : Nat) (x : W64) : (s.ctlSet r u x).fw = s.fw := rfl
@[simp] theorem State.ctlSet_log (s : State) (r : CtlReg) (u : Nat) (x : W64) : (s.ctlSet r u x).log = s.log := rfl

/-! ## State.count -/

@[simp] theorem State.count_env (s : State) (r : CtlReg) (u n : Nat) : (s.count r u n).env = s.env := rfl
@[simp] theorem State.count_cur (s : State) (r : CtlReg) (u n : Nat) : (s.count r u n).cur = s.cur := rfl
@[simp] theorem State.count_pendB (s : State) (r : CtlReg) (u n : Nat) : (s.count r u n).pendB = s.pendB := rfl
@[simp] theorem State.count_groups (s : State) (r : CtlReg) (u n : Nat) : (s.count r u n).groups = s.groups := rfl
@[simp] theorem State.count_teams (s : State) (r : CtlReg) (u n : Nat) : (s.count r u n).teams = s.teams := rfl
@[simp] theorem State.count_grids (s : State) (r : CtlReg) (u n : Nat) : (s.count r u n).grids = s.grids := rfl
@[simp] theorem State.count_mem (s : State) (r : CtlReg) (u n : Nat) : (s.count r u n).mem = s.mem := rfl
@[simp] theorem State.count_ctl (s : State) (r : CtlReg) (u n : Nat) : (s.count r u n).ctl = s.ctl.set (r.key u) (s.ctlGet r u + BitVec.ofNat 64 n) := rfl
@[simp] theorem State.count_mmu (s : State) (r : CtlReg) (u n : Nat) : (s.count r u n).mmu = s.mmu := rfl
@[simp] theorem State.count_disp (s : State) (r : CtlReg) (u n : Nat) : (s.count r u n).disp = s.disp := rfl
@[simp] theorem State.count_eng (s : State) (r : CtlReg) (u n : Nat) : (s.count r u n).eng = s.eng := rfl
@[simp] theorem State.count_spire (s : State) (r : CtlReg) (u n : Nat) : (s.count r u n).spire = s.spire := rfl
@[simp] theorem State.count_ctrl (s : State) (r : CtlReg) (u n : Nat) : (s.count r u n).ctrl = s.ctrl := rfl
@[simp] theorem State.count_fab (s : State) (r : CtlReg) (u n : Nat) : (s.count r u n).fab = s.fab := rfl
@[simp] theorem State.count_msys (s : State) (r : CtlReg) (u n : Nat) : (s.count r u n).msys = s.msys := rfl
@[simp] theorem State.count_fw (s : State) (r : CtlReg) (u n : Nat) : (s.count r u n).fw = s.fw := rfl
@[simp] theorem State.count_log (s : State) (r : CtlReg) (u n : Nat) : (s.count r u n).log = s.log := rfl

/-! ## State.useIds -/

@[simp] theorem State.useIds_env (s : State) (n : Nat) : (s.useIds n).env = { s.env with fresh := s.env.fresh + n } := rfl
@[simp] theorem State.useIds_cur (s : State) (n : Nat) : (s.useIds n).cur = s.cur := rfl
@[simp] theorem State.useIds_pendB (s : State) (n : Nat) : (s.useIds n).pendB = s.pendB := rfl
@[simp] theorem State.useIds_groups (s : State) (n : Nat) : (s.useIds n).groups = s.groups := rfl
@[simp] theorem State.useIds_teams (s : State) (n : Nat) : (s.useIds n).teams = s.teams := rfl
@[simp] theorem State.useIds_grids (s : State) (n : Nat) : (s.useIds n).grids = s.grids := rfl
@[simp] theorem State.useIds_mem (s : State) (n : Nat) : (s.useIds n).mem = s.mem := rfl
@[simp] theorem State.useIds_ctl (s : State) (n : Nat) : (s.useIds n).ctl = s.ctl := rfl
@[simp] theorem State.useIds_mmu (s : State) (n : Nat) : (s.useIds n).mmu = s.mmu := rfl
@[simp] theorem State.useIds_disp (s : State) (n : Nat) : (s.useIds n).disp = s.disp := rfl
@[simp] theorem State.useIds_eng (s : State) (n : Nat) : (s.useIds n).eng = s.eng := rfl
@[simp] theorem State.useIds_spire (s : State) (n : Nat) : (s.useIds n).spire = s.spire := rfl
@[simp] theorem State.useIds_ctrl (s : State) (n : Nat) : (s.useIds n).ctrl = s.ctrl := rfl
@[simp] theorem State.useIds_fab (s : State) (n : Nat) : (s.useIds n).fab = s.fab := rfl
@[simp] theorem State.useIds_msys (s : State) (n : Nat) : (s.useIds n).msys = s.msys := rfl
@[simp] theorem State.useIds_fw (s : State) (n : Nat) : (s.useIds n).fw = s.fw := rfl
@[simp] theorem State.useIds_log (s : State) (n : Nat) : (s.useIds n).log = s.log := rfl

/-! ## State.useFree -/

@[simp] theorem State.useFree_env (s : State) (n : Nat) : (s.useFree n).env = { s.env with freeCtr := s.env.freeCtr + n } := rfl
@[simp] theorem State.useFree_cur (s : State) (n : Nat) : (s.useFree n).cur = s.cur := rfl
@[simp] theorem State.useFree_pendB (s : State) (n : Nat) : (s.useFree n).pendB = s.pendB := rfl
@[simp] theorem State.useFree_groups (s : State) (n : Nat) : (s.useFree n).groups = s.groups := rfl
@[simp] theorem State.useFree_teams (s : State) (n : Nat) : (s.useFree n).teams = s.teams := rfl
@[simp] theorem State.useFree_grids (s : State) (n : Nat) : (s.useFree n).grids = s.grids := rfl
@[simp] theorem State.useFree_mem (s : State) (n : Nat) : (s.useFree n).mem = s.mem := rfl
@[simp] theorem State.useFree_ctl (s : State) (n : Nat) : (s.useFree n).ctl = s.ctl := rfl
@[simp] theorem State.useFree_mmu (s : State) (n : Nat) : (s.useFree n).mmu = s.mmu := rfl
@[simp] theorem State.useFree_disp (s : State) (n : Nat) : (s.useFree n).disp = s.disp := rfl
@[simp] theorem State.useFree_eng (s : State) (n : Nat) : (s.useFree n).eng = s.eng := rfl
@[simp] theorem State.useFree_spire (s : State) (n : Nat) : (s.useFree n).spire = s.spire := rfl
@[simp] theorem State.useFree_ctrl (s : State) (n : Nat) : (s.useFree n).ctrl = s.ctrl := rfl
@[simp] theorem State.useFree_fab (s : State) (n : Nat) : (s.useFree n).fab = s.fab := rfl
@[simp] theorem State.useFree_msys (s : State) (n : Nat) : (s.useFree n).msys = s.msys := rfl
@[simp] theorem State.useFree_fw (s : State) (n : Nat) : (s.useFree n).fw = s.fw := rfl
@[simp] theorem State.useFree_log (s : State) (n : Nat) : (s.useFree n).log = s.log := rfl

/-! ## State.settle -/

@[simp] theorem State.settle_env (s : State) (k n : Nat) : (s.settle k n).env = s.env := rfl
@[simp] theorem State.settle_cur (s : State) (k n : Nat) : (s.settle k n).cur = s.cur := rfl
@[simp] theorem State.settle_pendB (s : State) (k n : Nat) : (s.settle k n).pendB = s.pendB := rfl
@[simp] theorem State.settle_groups (s : State) (k n : Nat) : (s.settle k n).groups = s.groups := rfl
@[simp] theorem State.settle_teams (s : State) (k n : Nat) : (s.settle k n).teams = s.teams := rfl
@[simp] theorem State.settle_grids (s : State) (k n : Nat) : (s.settle k n).grids = s.grids := rfl
@[simp] theorem State.settle_mem (s : State) (k n : Nat) : (s.settle k n).mem = s.mem.settle k n := rfl
@[simp] theorem State.settle_ctl (s : State) (k n : Nat) : (s.settle k n).ctl = s.ctl := rfl
@[simp] theorem State.settle_mmu (s : State) (k n : Nat) : (s.settle k n).mmu = s.mmu := rfl
@[simp] theorem State.settle_disp (s : State) (k n : Nat) : (s.settle k n).disp = s.disp := rfl
@[simp] theorem State.settle_eng (s : State) (k n : Nat) : (s.settle k n).eng = s.eng := rfl
@[simp] theorem State.settle_spire (s : State) (k n : Nat) : (s.settle k n).spire = s.spire := rfl
@[simp] theorem State.settle_ctrl (s : State) (k n : Nat) : (s.settle k n).ctrl = s.ctrl := rfl
@[simp] theorem State.settle_fab (s : State) (k n : Nat) : (s.settle k n).fab = s.fab := rfl
@[simp] theorem State.settle_msys (s : State) (k n : Nat) : (s.settle k n).msys = s.msys := rfl
@[simp] theorem State.settle_fw (s : State) (k n : Nat) : (s.settle k n).fw = s.fw := rfl
@[simp] theorem State.settle_log (s : State) (k n : Nat) : (s.settle k n).log = s.log := rfl

/-! ## State.writeMem -/

@[simp] theorem State.writeMem_env (s : State) (k n w : Nat) : (s.writeMem k n w).env = s.env := rfl
@[simp] theorem State.writeMem_cur (s : State) (k n w : Nat) : (s.writeMem k n w).cur = s.cur := rfl
@[simp] theorem State.writeMem_pendB (s : State) (k n w : Nat) : (s.writeMem k n w).pendB = s.pendB := rfl
@[simp] theorem State.writeMem_groups (s : State) (k n w : Nat) : (s.writeMem k n w).groups = s.groups := rfl
@[simp] theorem State.writeMem_teams (s : State) (k n w : Nat) : (s.writeMem k n w).teams = s.teams := rfl
@[simp] theorem State.writeMem_grids (s : State) (k n w : Nat) : (s.writeMem k n w).grids = s.grids := rfl
@[simp] theorem State.writeMem_mem (s : State) (k n w : Nat) : (s.writeMem k n w).mem = ((s.mem.settle k n).cleanUnits k n).write k n w := rfl
@[simp] theorem State.writeMem_ctl (s : State) (k n w : Nat) : (s.writeMem k n w).ctl = s.ctl := rfl
@[simp] theorem State.writeMem_mmu (s : State) (k n w : Nat) : (s.writeMem k n w).mmu = s.mmu := rfl
@[simp] theorem State.writeMem_disp (s : State) (k n w : Nat) : (s.writeMem k n w).disp = s.disp := rfl
@[simp] theorem State.writeMem_eng (s : State) (k n w : Nat) : (s.writeMem k n w).eng = s.eng := rfl
@[simp] theorem State.writeMem_spire (s : State) (k n w : Nat) : (s.writeMem k n w).spire = s.spire := rfl
@[simp] theorem State.writeMem_ctrl (s : State) (k n w : Nat) : (s.writeMem k n w).ctrl = s.ctrl := rfl
@[simp] theorem State.writeMem_fab (s : State) (k n w : Nat) : (s.writeMem k n w).fab = s.fab := rfl
@[simp] theorem State.writeMem_msys (s : State) (k n w : Nat) : (s.writeMem k n w).msys = s.msys := rfl
@[simp] theorem State.writeMem_fw (s : State) (k n w : Nat) : (s.writeMem k n w).fw = s.fw := rfl
@[simp] theorem State.writeMem_log (s : State) (k n w : Nat) : (s.writeMem k n w).log = s.log := rfl

/-! ## State.writeBytes -/

@[simp] theorem State.writeBytes_env (s : State) (k : Nat) (bs : List Byte) : (s.writeBytes k bs).env = s.env := rfl
@[simp] theorem State.writeBytes_cur (s : State) (k : Nat) (bs : List Byte) : (s.writeBytes k bs).cur = s.cur := rfl
@[simp] theorem State.writeBytes_pendB (s : State) (k : Nat) (bs : List Byte) : (s.writeBytes k bs).pendB = s.pendB := rfl
@[simp] theorem State.writeBytes_groups (s : State) (k : Nat) (bs : List Byte) : (s.writeBytes k bs).groups = s.groups := rfl
@[simp] theorem State.writeBytes_teams (s : State) (k : Nat) (bs : List Byte) : (s.writeBytes k bs).teams = s.teams := rfl
@[simp] theorem State.writeBytes_grids (s : State) (k : Nat) (bs : List Byte) : (s.writeBytes k bs).grids = s.grids := rfl
@[simp] theorem State.writeBytes_mem (s : State) (k : Nat) (bs : List Byte) : (s.writeBytes k bs).mem = ((s.mem.settle k bs.length).cleanUnits k bs.length).putBytes k bs := rfl
@[simp] theorem State.writeBytes_ctl (s : State) (k : Nat) (bs : List Byte) : (s.writeBytes k bs).ctl = s.ctl := rfl
@[simp] theorem State.writeBytes_mmu (s : State) (k : Nat) (bs : List Byte) : (s.writeBytes k bs).mmu = s.mmu := rfl
@[simp] theorem State.writeBytes_disp (s : State) (k : Nat) (bs : List Byte) : (s.writeBytes k bs).disp = s.disp := rfl
@[simp] theorem State.writeBytes_eng (s : State) (k : Nat) (bs : List Byte) : (s.writeBytes k bs).eng = s.eng := rfl
@[simp] theorem State.writeBytes_spire (s : State) (k : Nat) (bs : List Byte) : (s.writeBytes k bs).spire = s.spire := rfl
@[simp] theorem State.writeBytes_ctrl (s : State) (k : Nat) (bs : List Byte) : (s.writeBytes k bs).ctrl = s.ctrl := rfl
@[simp] theorem State.writeBytes_fab (s : State) (k : Nat) (bs : List Byte) : (s.writeBytes k bs).fab = s.fab := rfl
@[simp] theorem State.writeBytes_msys (s : State) (k : Nat) (bs : List Byte) : (s.writeBytes k bs).msys = s.msys := rfl
@[simp] theorem State.writeBytes_fw (s : State) (k : Nat) (bs : List Byte) : (s.writeBytes k bs).fw = s.fw := rfl
@[simp] theorem State.writeBytes_log (s : State) (k : Nat) (bs : List Byte) : (s.writeBytes k bs).log = s.log := rfl

/-! ## State.setGrpRound -/

@[simp] theorem State.setGrpRound_env (s : State) (e : Nat) (r : GrpRound) : (s.setGrpRound e r).env = s.env := rfl
@[simp] theorem State.setGrpRound_cur (s : State) (e : Nat) (r : GrpRound) : (s.setGrpRound e r).cur = s.cur := rfl
@[simp] theorem State.setGrpRound_pendB (s : State) (e : Nat) (r : GrpRound) : (s.setGrpRound e r).pendB = s.pendB := rfl
@[simp] theorem State.setGrpRound_groups (s : State) (e : Nat) (r : GrpRound) : (s.setGrpRound e r).groups = s.groups := rfl
@[simp] theorem State.setGrpRound_teams (s : State) (e : Nat) (r : GrpRound) : (s.setGrpRound e r).teams = s.teams := rfl
@[simp] theorem State.setGrpRound_grids (s : State) (e : Nat) (r : GrpRound) : (s.setGrpRound e r).grids = s.grids := rfl
@[simp] theorem State.setGrpRound_mem (s : State) (e : Nat) (r : GrpRound) : (s.setGrpRound e r).mem = s.mem := rfl
@[simp] theorem State.setGrpRound_ctl (s : State) (e : Nat) (r : GrpRound) : (s.setGrpRound e r).ctl = s.ctl := rfl
@[simp] theorem State.setGrpRound_mmu (s : State) (e : Nat) (r : GrpRound) : (s.setGrpRound e r).mmu = s.mmu := rfl
@[simp] theorem State.setGrpRound_disp (s : State) (e : Nat) (r : GrpRound) : (s.setGrpRound e r).disp = s.disp := rfl
@[simp] theorem State.setGrpRound_eng (s : State) (e : Nat) (r : GrpRound) : (s.setGrpRound e r).eng = s.eng := rfl
@[simp] theorem State.setGrpRound_spire (s : State) (e : Nat) (r : GrpRound) : (s.setGrpRound e r).spire = s.spire := rfl
@[simp] theorem State.setGrpRound_ctrl (s : State) (e : Nat) (r : GrpRound) : (s.setGrpRound e r).ctrl = s.ctrl := rfl
@[simp] theorem State.setGrpRound_fab (s : State) (e : Nat) (r : GrpRound) : (s.setGrpRound e r).fab = { s.fab with groups := s.fab.groups.put e r noRound } := rfl
@[simp] theorem State.setGrpRound_msys (s : State) (e : Nat) (r : GrpRound) : (s.setGrpRound e r).msys = s.msys := rfl
@[simp] theorem State.setGrpRound_fw (s : State) (e : Nat) (r : GrpRound) : (s.setGrpRound e r).fw = s.fw := rfl
@[simp] theorem State.setGrpRound_log (s : State) (e : Nat) (r : GrpRound) : (s.setGrpRound e r).log = s.log := rfl

/-! ## State.roFill -/

@[simp] theorem State.roFill_env (s : State) (core pa : Nat) : (s.roFill core pa).env = s.env := by simp only [State.roFill]; split <;> rfl
@[simp] theorem State.roFill_cur (s : State) (core pa : Nat) : (s.roFill core pa).cur = s.cur := by simp only [State.roFill]; split <;> rfl
@[simp] theorem State.roFill_pendB (s : State) (core pa : Nat) : (s.roFill core pa).pendB = s.pendB := by simp only [State.roFill]; split <;> rfl
@[simp] theorem State.roFill_groups (s : State) (core pa : Nat) : (s.roFill core pa).groups = s.groups := by simp only [State.roFill]; split <;> rfl
@[simp] theorem State.roFill_teams (s : State) (core pa : Nat) : (s.roFill core pa).teams = s.teams := by simp only [State.roFill]; split <;> rfl
@[simp] theorem State.roFill_grids (s : State) (core pa : Nat) : (s.roFill core pa).grids = s.grids := by simp only [State.roFill]; split <;> rfl
@[simp] theorem State.roFill_mem (s : State) (core pa : Nat) : (s.roFill core pa).mem = s.mem := by simp only [State.roFill]; split <;> rfl
@[simp] theorem State.roFill_ctl (s : State) (core pa : Nat) : (s.roFill core pa).ctl = s.ctl := by simp only [State.roFill]; split <;> rfl
@[simp] theorem State.roFill_disp (s : State) (core pa : Nat) : (s.roFill core pa).disp = s.disp := by simp only [State.roFill]; split <;> rfl
@[simp] theorem State.roFill_eng (s : State) (core pa : Nat) : (s.roFill core pa).eng = s.eng := by simp only [State.roFill]; split <;> rfl
@[simp] theorem State.roFill_spire (s : State) (core pa : Nat) : (s.roFill core pa).spire = s.spire := by simp only [State.roFill]; split <;> rfl
@[simp] theorem State.roFill_ctrl (s : State) (core pa : Nat) : (s.roFill core pa).ctrl = s.ctrl := by simp only [State.roFill]; split <;> rfl
@[simp] theorem State.roFill_fab (s : State) (core pa : Nat) : (s.roFill core pa).fab = s.fab := by simp only [State.roFill]; split <;> rfl
@[simp] theorem State.roFill_msys (s : State) (core pa : Nat) : (s.roFill core pa).msys = s.msys := by simp only [State.roFill]; split <;> rfl
@[simp] theorem State.roFill_fw (s : State) (core pa : Nat) : (s.roFill core pa).fw = s.fw := by simp only [State.roFill]; split <;> rfl
@[simp] theorem State.roFill_log (s : State) (core pa : Nat) : (s.roFill core pa).log = s.log := by simp only [State.roFill]; split <;> rfl

/-! ## State.roDrop -/

@[simp] theorem State.roDrop_env (s : State) (core : Nat) : (s.roDrop core).env = s.env := rfl
@[simp] theorem State.roDrop_cur (s : State) (core : Nat) : (s.roDrop core).cur = s.cur := rfl
@[simp] theorem State.roDrop_pendB (s : State) (core : Nat) : (s.roDrop core).pendB = s.pendB := rfl
@[simp] theorem State.roDrop_groups (s : State) (core : Nat) : (s.roDrop core).groups = s.groups := rfl
@[simp] theorem State.roDrop_teams (s : State) (core : Nat) : (s.roDrop core).teams = s.teams := rfl
@[simp] theorem State.roDrop_grids (s : State) (core : Nat) : (s.roDrop core).grids = s.grids := rfl
@[simp] theorem State.roDrop_mem (s : State) (core : Nat) : (s.roDrop core).mem = s.mem := rfl
@[simp] theorem State.roDrop_ctl (s : State) (core : Nat) : (s.roDrop core).ctl = s.ctl := rfl
@[simp] theorem State.roDrop_disp (s : State) (core : Nat) : (s.roDrop core).disp = s.disp := rfl
@[simp] theorem State.roDrop_eng (s : State) (core : Nat) : (s.roDrop core).eng = s.eng := rfl
@[simp] theorem State.roDrop_spire (s : State) (core : Nat) : (s.roDrop core).spire = s.spire := rfl
@[simp] theorem State.roDrop_ctrl (s : State) (core : Nat) : (s.roDrop core).ctrl = s.ctrl := rfl
@[simp] theorem State.roDrop_fab (s : State) (core : Nat) : (s.roDrop core).fab = s.fab := rfl
@[simp] theorem State.roDrop_msys (s : State) (core : Nat) : (s.roDrop core).msys = s.msys := rfl
@[simp] theorem State.roDrop_fw (s : State) (core : Nat) : (s.roDrop core).fw = s.fw := rfl
@[simp] theorem State.roDrop_log (s : State) (core : Nat) : (s.roDrop core).log = s.log := rfl

/-! ## State.enterPool -/

@[simp] theorem State.enterPool_env (s : State) (die : Nat) (f : Nat → Ready) : (s.enterPool die f).env = s.env := rfl
@[simp] theorem State.enterPool_cur (s : State) (die : Nat) (f : Nat → Ready) : (s.enterPool die f).cur = s.cur := rfl
@[simp] theorem State.enterPool_pendB (s : State) (die : Nat) (f : Nat → Ready) : (s.enterPool die f).pendB = s.pendB := rfl
@[simp] theorem State.enterPool_groups (s : State) (die : Nat) (f : Nat → Ready) : (s.enterPool die f).groups = s.groups := rfl
@[simp] theorem State.enterPool_teams (s : State) (die : Nat) (f : Nat → Ready) : (s.enterPool die f).teams = s.teams := rfl
@[simp] theorem State.enterPool_grids (s : State) (die : Nat) (f : Nat → Ready) : (s.enterPool die f).grids = s.grids := rfl
@[simp] theorem State.enterPool_mem (s : State) (die : Nat) (f : Nat → Ready) : (s.enterPool die f).mem = s.mem := rfl
@[simp] theorem State.enterPool_ctl (s : State) (die : Nat) (f : Nat → Ready) : (s.enterPool die f).ctl = s.ctl := rfl
@[simp] theorem State.enterPool_mmu (s : State) (die : Nat) (f : Nat → Ready) : (s.enterPool die f).mmu = s.mmu := rfl
@[simp] theorem State.enterPool_eng (s : State) (die : Nat) (f : Nat → Ready) : (s.enterPool die f).eng = s.eng := rfl
@[simp] theorem State.enterPool_spire (s : State) (die : Nat) (f : Nat → Ready) : (s.enterPool die f).spire = s.spire := rfl
@[simp] theorem State.enterPool_ctrl (s : State) (die : Nat) (f : Nat → Ready) : (s.enterPool die f).ctrl = s.ctrl := rfl
@[simp] theorem State.enterPool_fab (s : State) (die : Nat) (f : Nat → Ready) : (s.enterPool die f).fab = s.fab := rfl
@[simp] theorem State.enterPool_msys (s : State) (die : Nat) (f : Nat → Ready) : (s.enterPool die f).msys = s.msys := rfl
@[simp] theorem State.enterPool_fw (s : State) (die : Nat) (f : Nat → Ready) : (s.enterPool die f).fw = s.fw := rfl
@[simp] theorem State.enterPool_log (s : State) (die : Nat) (f : Nat → Ready) : (s.enterPool die f).log = s.log := rfl

/-! ## State.setRay -/

@[simp] theorem State.setRay_env (s : State) (slot : Nat) (r : Ray) : (s.setRay slot r).env = s.env := rfl
@[simp] theorem State.setRay_cur (s : State) (slot : Nat) (r : Ray) : (s.setRay slot r).cur = s.cur := rfl
@[simp] theorem State.setRay_pendB (s : State) (slot : Nat) (r : Ray) : (s.setRay slot r).pendB = s.pendB := rfl
@[simp] theorem State.setRay_groups (s : State) (slot : Nat) (r : Ray) : (s.setRay slot r).groups = s.groups := rfl
@[simp] theorem State.setRay_teams (s : State) (slot : Nat) (r : Ray) : (s.setRay slot r).teams = s.teams := rfl
@[simp] theorem State.setRay_grids (s : State) (slot : Nat) (r : Ray) : (s.setRay slot r).grids = s.grids := rfl
@[simp] theorem State.setRay_mem (s : State) (slot : Nat) (r : Ray) : (s.setRay slot r).mem = s.mem := rfl
@[simp] theorem State.setRay_ctl (s : State) (slot : Nat) (r : Ray) : (s.setRay slot r).ctl = s.ctl := rfl
@[simp] theorem State.setRay_mmu (s : State) (slot : Nat) (r : Ray) : (s.setRay slot r).mmu = s.mmu := rfl
@[simp] theorem State.setRay_disp (s : State) (slot : Nat) (r : Ray) : (s.setRay slot r).disp = s.disp := rfl
@[simp] theorem State.setRay_eng (s : State) (slot : Nat) (r : Ray) : (s.setRay slot r).eng = s.eng := rfl
@[simp] theorem State.setRay_spire (s : State) (slot : Nat) (r : Ray) : (s.setRay slot r).spire = { s.spire with rays := s.spire.rays.set slot r } := rfl
@[simp] theorem State.setRay_ctrl (s : State) (slot : Nat) (r : Ray) : (s.setRay slot r).ctrl = s.ctrl := rfl
@[simp] theorem State.setRay_fab (s : State) (slot : Nat) (r : Ray) : (s.setRay slot r).fab = s.fab := rfl
@[simp] theorem State.setRay_msys (s : State) (slot : Nat) (r : Ray) : (s.setRay slot r).msys = s.msys := rfl
@[simp] theorem State.setRay_fw (s : State) (slot : Nat) (r : Ray) : (s.setRay slot r).fw = s.fw := rfl
@[simp] theorem State.setRay_log (s : State) (slot : Nat) (r : Ray) : (s.setRay slot r).log = s.log := rfl

/-! ## State.combine -/

@[simp] theorem State.combine_env (s : State) (k n : Nat) : (s.combine k n).env = s.env := by simp only [State.combine]; split <;> rfl
@[simp] theorem State.combine_cur (s : State) (k n : Nat) : (s.combine k n).cur = s.cur := by simp only [State.combine]; split <;> rfl
@[simp] theorem State.combine_pendB (s : State) (k n : Nat) : (s.combine k n).pendB = s.pendB := by simp only [State.combine]; split <;> rfl
@[simp] theorem State.combine_groups (s : State) (k n : Nat) : (s.combine k n).groups = s.groups := by simp only [State.combine]; split <;> rfl
@[simp] theorem State.combine_teams (s : State) (k n : Nat) : (s.combine k n).teams = s.teams := by simp only [State.combine]; split <;> rfl
@[simp] theorem State.combine_grids (s : State) (k n : Nat) : (s.combine k n).grids = s.grids := by simp only [State.combine]; split <;> rfl
@[simp] theorem State.combine_mem (s : State) (k n : Nat) : (s.combine k n).mem = s.mem.settle k n := by simp only [State.combine]; split <;> rfl
@[simp] theorem State.combine_mmu (s : State) (k n : Nat) : (s.combine k n).mmu = s.mmu := by simp only [State.combine]; split <;> rfl
@[simp] theorem State.combine_disp (s : State) (k n : Nat) : (s.combine k n).disp = s.disp := by simp only [State.combine]; split <;> rfl
@[simp] theorem State.combine_eng (s : State) (k n : Nat) : (s.combine k n).eng = s.eng := by simp only [State.combine]; split <;> rfl
@[simp] theorem State.combine_spire (s : State) (k n : Nat) : (s.combine k n).spire = s.spire := by simp only [State.combine]; split <;> rfl
@[simp] theorem State.combine_ctrl (s : State) (k n : Nat) : (s.combine k n).ctrl = s.ctrl := by simp only [State.combine]; split <;> rfl
@[simp] theorem State.combine_fab (s : State) (k n : Nat) : (s.combine k n).fab = s.fab := by simp only [State.combine]; split <;> rfl
@[simp] theorem State.combine_msys (s : State) (k n : Nat) : (s.combine k n).msys = s.msys := by simp only [State.combine]; split <;> rfl
@[simp] theorem State.combine_fw (s : State) (k n : Nat) : (s.combine k n).fw = s.fw := by simp only [State.combine]; split <;> rfl
@[simp] theorem State.combine_log (s : State) (k n : Nat) : (s.combine k n).log = s.log := by simp only [State.combine]; split <;> rfl

/-! ## State.reduceAt -/

@[simp] theorem State.reduceAt_env (s : State) (k n w : Nat) : (s.reduceAt k n w).env = s.env := by simp [State.reduceAt]
@[simp] theorem State.reduceAt_cur (s : State) (k n w : Nat) : (s.reduceAt k n w).cur = s.cur := by simp [State.reduceAt]
@[simp] theorem State.reduceAt_pendB (s : State) (k n w : Nat) : (s.reduceAt k n w).pendB = s.pendB := by simp [State.reduceAt]
@[simp] theorem State.reduceAt_groups (s : State) (k n w : Nat) : (s.reduceAt k n w).groups = s.groups := by simp [State.reduceAt]
@[simp] theorem State.reduceAt_teams (s : State) (k n w : Nat) : (s.reduceAt k n w).teams = s.teams := by simp [State.reduceAt]
@[simp] theorem State.reduceAt_grids (s : State) (k n w : Nat) : (s.reduceAt k n w).grids = s.grids := by simp [State.reduceAt]
@[simp] theorem State.reduceAt_mem (s : State) (k n w : Nat) : (s.reduceAt k n w).mem = (s.mem.settle k n).write k n w := by simp [State.reduceAt]
@[simp] theorem State.reduceAt_mmu (s : State) (k n w : Nat) : (s.reduceAt k n w).mmu = s.mmu := by simp [State.reduceAt]
@[simp] theorem State.reduceAt_disp (s : State) (k n w : Nat) : (s.reduceAt k n w).disp = s.disp := by simp [State.reduceAt]
@[simp] theorem State.reduceAt_eng (s : State) (k n w : Nat) : (s.reduceAt k n w).eng = s.eng := by simp [State.reduceAt]
@[simp] theorem State.reduceAt_spire (s : State) (k n w : Nat) : (s.reduceAt k n w).spire = s.spire := by simp [State.reduceAt]
@[simp] theorem State.reduceAt_ctrl (s : State) (k n w : Nat) : (s.reduceAt k n w).ctrl = s.ctrl := by simp [State.reduceAt]
@[simp] theorem State.reduceAt_fab (s : State) (k n w : Nat) : (s.reduceAt k n w).fab = s.fab := by simp [State.reduceAt]
@[simp] theorem State.reduceAt_msys (s : State) (k n w : Nat) : (s.reduceAt k n w).msys = s.msys := by simp [State.reduceAt]
@[simp] theorem State.reduceAt_fw (s : State) (k n w : Nat) : (s.reduceAt k n w).fw = s.fw := by simp [State.reduceAt]
@[simp] theorem State.reduceAt_log (s : State) (k n w : Nat) : (s.reduceAt k n w).log = s.log := by simp [State.reduceAt]

end Sys2Proof.Machine
end

