-- ==== Sys2Proof/Laws/Store.lean ====
section
/-! SUPPORT. Laws of sparse tables, of lanes and of masks. -/
namespace Sys2Proof.Machine

variable {α : Type}

theorem Store.get?_set_self (m : Store α) (q : Nat) (x : α) : (m.set q x).get? q = some x := by
  induction m with
  | nil => simp [Store.set, Store.get?]
  | cons e t ih =>
    obtain ⟨k, v⟩ := e
    simp only [Store.set]
    split
    · simp [Store.get?]
    · split
      · simp [Store.get?]
      · rename_i _ h; simp [Store.get?, h, ih]

theorem Store.get?_set_ne (m : Store α) {q r : Nat} (x : α) (h : q ≠ r) : (m.set q x).get? r = m.get? r := by
  induction m with
  | nil => simp [Store.set, Store.get?, h]
  | cons e t ih =>
    obtain ⟨k, v⟩ := e
    simp only [Store.set]
    split
    · simp [Store.get?, h]
    · split
      · rename_i _ e; subst e; simp [Store.get?, h]
      · simp [Store.get?, ih]

theorem Store.get?_set (m : Store α) (q r : Nat) (x : α) : (m.set q x).get? r = if q = r then some x else m.get? r := by
  by_cases h : q = r
  · subst h; simp [Store.get?_set_self]
  · simp [h, Store.get?_set_ne m x h]

theorem Store.get?_erase (m : Store α) (q r : Nat) : (m.erase q).get? r = if q = r then none else m.get? r := by
  induction m with
  | nil => simp [Store.erase, Store.get?]
  | cons e t ih =>
    obtain ⟨k, v⟩ := e
    by_cases h : k = q
    · subst h
      simp only [Store.erase, if_true, ih, Store.get?]
      by_cases h2 : k = r <;> simp [h2]
    · simp only [Store.erase, if_neg h, Store.get?, ih]
      by_cases h2 : q = r
      · subst h2; simp [h]
      · simp [h2]

theorem Store.getD_put [DecidableEq α] (m : Store α) (q r : Nat) (x d : α) :
    (m.put q x d).getD r d = if q = r then x else m.getD r d := by
  simp only [Store.put, Store.getD]
  split
  · rename_i h; subst h; rw [Store.get?_erase]; split <;> simp
  · rw [Store.get?_set]; split <;> simp

theorem Store.getD_put_ne [DecidableEq α] (m : Store α) (q r : Nat) (x d d' : α) (h : q ≠ r) :
    (m.put q x d).getD r d' = m.getD r d' := by
  simp only [Store.put, Store.getD]
  split
  · rw [Store.get?_erase, if_neg h]
  · rw [Store.get?_set, if_neg h]

theorem Store.get?_modify (m : Store α) (q r : Nat) (f : α → α) :
    (m.modify q f).get? r = if q = r then (m.get? q).map f else m.get? r := by
  simp only [Store.modify]
  cases h : m.get? q with
  | none => by_cases e : q = r
            · subst e; simp [h]
            · simp [e]
  | some v => simp [Store.get?_set]

theorem Store.modify_of_some (m : Store α) (q : Nat) (f : α → α) (v : α) (h : m.get? q = some v) :
    m.modify q f = m.set q (f v) := by simp [Store.modify, h]

theorem Store.set_set (m : Store α) (q : Nat) (x y : α) : (m.set q x).set q y = m.set q y := by
  induction m with
  | nil => simp [Store.set]
  | cons e t ih =>
    obtain ⟨k, v⟩ := e
    by_cases h1 : q < k
    · simp [Store.set, h1]
    · by_cases h2 : k = q
      · subst h2; simp [Store.set]
      · simp [Store.set, h1, h2, ih]

/-! ## The canonical form of a table -/

/-- Every key of a table is greater than a number. -/
def Store.above (m : Store α) (k : Nat) : Prop := ∀ e ∈ m, k < e.1

theorem Store.wf_cons (k : Nat) (v : α) (t : Store α) : Store.wf ((k, v) :: t) = true ↔ (t.above k ∧ Store.wf t = true) := by
  induction t generalizing k v with
  | nil => simp [Store.wf, Store.above]
  | cons e t ih =>
    obtain ⟨j, w⟩ := e
    simp only [Store.wf, Bool.and_eq_true, decide_eq_true_eq]
    constructor
    · rintro ⟨h, hw⟩
      refine ⟨?_, hw⟩
      have := ((ih j w).1 hw).1
      intro e he
      rcases List.mem_cons.1 he with rfl | he
      · exact h
      · exact Nat.lt_trans h (this e he)
    · rintro ⟨h, hw⟩
      exact ⟨h (j, w) (by simp), hw⟩

theorem Store.above_set {m : Store α} {k q : Nat} (x : α) (h : m.above k) (hq : k < q) : (m.set q x).above k := by
  induction m with
  | nil => intro e he; simp [Store.set] at he; subst he; exact hq
  | cons e t ih =>
    obtain ⟨j, v⟩ := e
    have hj : k < j := h (j, v) (by simp)
    have ht : Store.above t k := fun e he => h e (by simp [he])
    simp only [Store.set]
    split
    · intro e he
      rcases List.mem_cons.1 he with rfl | he
      · exact hq
      · exact h e he
    · split
      · intro e he
        rcases List.mem_cons.1 he with rfl | he
        · exact hq
        · exact ht e he
      · intro e he
        rcases List.mem_cons.1 he with rfl | he
        · exact hj
        · exact ih ht e he

theorem Store.wf_set {m : Store α} (q : Nat) (x : α) (h : Store.wf m = true) : Store.wf (m.set q x) = true := by
  induction m with
  | nil => simp [Store.set, Store.wf]
  | cons e t ih =>
    obtain ⟨k, v⟩ := e
    obtain ⟨ha, hw⟩ := (Store.wf_cons k v t).1 h
    simp only [Store.set]
    split
    · rename_i hq
      refine (Store.wf_cons _ _ _).2 ⟨?_, h⟩
      intro e he
      rcases List.mem_cons.1 he with rfl | he
      · exact hq
      · exact Nat.lt_trans hq (ha e he)
    · split
      · rename_i _ hq; subst hq; exact (Store.wf_cons _ _ _).2 ⟨ha, hw⟩
      · rename_i h1 h2
        exact (Store.wf_cons _ _ _).2 ⟨Store.above_set x ha (by omega), ih hw⟩

theorem Store.wf_sublist {m n : Store α} (h : m.Sublist n) (hw : Store.wf n = true) : Store.wf m = true := by
  induction h with
  | slnil => exact hw
  | cons e _ ih =>
    obtain ⟨k, v⟩ := e
    exact ih ((Store.wf_cons _ _ _).1 hw).2
  | cons_cons e hs ih =>
    obtain ⟨k, v⟩ := e
    obtain ⟨ha, hw⟩ := (Store.wf_cons _ _ _).1 hw
    exact (Store.wf_cons _ _ _).2 ⟨fun e he => ha e (hs.subset he), ih hw⟩

theorem Store.erase_sublist (m : Store α) (q : Nat) : (m.erase q).Sublist m := by
  induction m with
  | nil => simp [Store.erase]
  | cons e t ih =>
    obtain ⟨k, v⟩ := e
    simp only [Store.erase]
    split
    · exact ih.trans (List.sublist_cons_self _ _)
    · exact ih.cons_cons _

theorem Store.wf_erase {m : Store α} (q : Nat) (h : Store.wf m = true) : Store.wf (m.erase q) = true :=
  Store.wf_sublist (Store.erase_sublist m q) h

theorem Store.mem_set {m : Store α} {q : Nat} {x : α} {e : Nat × α} (h : e ∈ m.set q x) : e = (q, x) ∨ e ∈ m := by
  induction m with
  | nil => simp [Store.set] at h; exact .inl h
  | cons y t ih =>
    obtain ⟨k, v⟩ := y
    simp only [Store.set] at h
    split at h
    · rcases List.mem_cons.1 h with h | h
      · exact .inl h
      · exact .inr h
    · split at h
      · rcases List.mem_cons.1 h with h | h
        · exact .inl h
        · exact .inr (by simp [h])
      · rcases List.mem_cons.1 h with h | h
        · exact .inr (by simp [h])
        · rcases ih h with h | h
          · exact .inl h
          · exact .inr (by simp [h])

/-! ## Lanes -/

theorem mem_lanesOf (m : Mask) (l : Nat) : l ∈ lanesOf m ↔ l < 32 ∧ m.getLsbD l = true := by simp [lanesOf]

theorem lanesOf_nodup (m : Mask) : (lanesOf m).Nodup := List.Pairwise.filter _ List.nodup_range

theorem getLsbD_laneBit (l k : Nat) (h : k < 32) : (laneBit l).getLsbD k = decide (l = k) := by
  simp only [laneBit, BitVec.getLsbD_ofNat, h, decide_true, Bool.true_and, Nat.testBit_two_pow]

theorem getLsbD_maskOf (f : Nat → Bool) (l : Nat) (h : l < 32) : (maskOf f).getLsbD l = f l := by
  have key : ∀ (xs : List Nat) (m : Mask), (xs.foldl (fun m l => if f l then m ||| laneBit l else m) m).getLsbD l =
      (m.getLsbD l || (xs.contains l && f l)) := by
    intro xs
    induction xs with
    | nil => simp
    | cons x t ih =>
      intro m
      simp only [List.foldl_cons, ih, List.contains_cons]
      by_cases hx : l = x
      · subst hx
        cases hf : f l <;> simp [getLsbD_laneBit _ _ h]
      · have : (l == x) = false := by simpa using hx
        cases hf : f x <;> simp [this, getLsbD_laneBit _ _ h, Ne.symm hx]
  have : (List.range 32).contains l = true := by simpa using h
  simp only [maskOf, key, this]
  simp

/-- Values put at the keys of the lanes of a list: what a key then holds. -/
theorem getD_foldl_put [DecidableEq α] (key : Nat → Nat) (f : Nat → α) (d : α) (ls : List Nat)
    (inj : ∀ a ∈ ls, ∀ b ∈ ls, key a = key b → a = b) (m : Store α) (q : Nat) :
    (ls.foldl (fun m l => m.put (key l) (f l) d) m).getD q d =
      match ls.find? (fun l => key l == q) with
      | some l => f l
      | none => m.getD q d := by
  induction ls generalizing m with
  | nil => simp
  | cons x t ih =>
    have inj' : ∀ a ∈ t, ∀ b ∈ t, key a = key b → a = b := fun a ha b hb => inj a (by simp [ha]) b (by simp [hb])
    simp only [List.foldl_cons, ih inj', List.find?_cons]
    by_cases h : key x = q
    · subst h
      simp only [beq_self_eq_true]
      cases ht : t.find? (fun l => key l == key x) with
      | none => simp [Store.getD_put]
      | some y =>
        have hy := List.find?_some ht
        have := inj y (by simp [List.mem_of_find?_eq_some ht]) x (by simp) (by simpa using hy)
        simp [this]
    · have hb : (key x == q) = false := by simpa using h
      simp only [hb]
      cases t.find? (fun l => key l == q) with
      | none => simp [Store.getD_put, h]
      | some y => rfl

theorem lanesOf_eq_nil (m : Mask) : lanesOf m = [] ↔ m = 0 := by
  constructor
  · intro h
    apply BitVec.eq_of_getLsbD_eq
    intro i hi
    cases hb : m.getLsbD i with
    | false => simp
    | true =>
      have : i ∈ lanesOf m := (mem_lanesOf m i).2 ⟨hi, hb⟩
      simp [h] at this
  · rintro rfl
    simp [lanesOf]

theorem mask_ne_zero (m : Mask) : m ≠ 0 ↔ ∃ l < 32, m.getLsbD l = true := by
  rw [ne_eq, ← lanesOf_eq_nil, List.eq_nil_iff_forall_not_mem]
  simp [mem_lanesOf]

end Sys2Proof.Machine
end

