-- ==== Sys2Proof/Laws/Groups.lean ====
section
/-! SUPPORT. Laws of a group's registers: what each write changes and what it leaves. -/
namespace Sys2Proof.Machine

/-! ## Vector registers -/

theorem lane_key_inj {r r' l l' : Nat} (h : l < 32) (h' : l' < 32) : r * 32 + l = r' * 32 + l' ↔ r = r' ∧ l = l' := by omega

theorem find?_lane (lanes : Mask) (p : Nat → Bool) (l : Nat) (hl : l < 32) (h : ∀ k < 32, p k = decide (k = l)) :
    (lanesOf lanes).find? p = if lanes.getLsbD l then some l else none := by
  have hp : ∀ k ∈ lanesOf lanes, p k = decide (k = l) := fun k hk => h k ((mem_lanesOf _ _).1 hk).1
  split
  · rename_i hb
    cases hf : (lanesOf lanes).find? p with
    | none => have := List.find?_eq_none.1 hf l ((mem_lanesOf _ _).2 ⟨hl, hb⟩); simp [h l hl] at this
    | some k =>
      have h1 := List.find?_some hf
      rw [hp k (List.mem_of_find?_eq_some hf)] at h1
      simpa using h1
  · rename_i hb
    rw [List.find?_eq_none]
    intro k hk
    rw [hp k hk]
    have := (mem_lanesOf _ _).1 hk
    intro e
    have e : k = l := by simpa using e
    subst e; exact hb this.2

/-- What a write of vR in the lanes of a mask leaves in any register of any lane. -/
theorem Group.vget_vsetBy (g : Group) (lanes : Mask) (d r l : Nat) (f : Nat → W32) (hl : l < 32) :
    (g.vsetBy lanes d f).vget r l = if r = d ∧ lanes.getLsbD l then f l else g.vget r l := by
  simp only [Group.vsetBy, Group.vget]
  rw [getD_foldl_put (key := fun k => d * 32 + k)
    (inj := fun a ha b hb e => by simpa using e)]
  by_cases hr : r = d
  · subst hr
    rw [find?_lane lanes (fun k => r * 32 + k == r * 32 + l) l hl (fun k _ => by
      by_cases e : k = l <;> simp [e])]
    by_cases hb : lanes.getLsbD l = true <;> simp [hb]
  · have : (lanesOf lanes).find? (fun k => d * 32 + k == r * 32 + l) = none := by
      rw [List.find?_eq_none]
      intro k hk
      have := (mem_lanesOf _ _).1 hk
      simp only [beq_iff_eq]; omega
    rw [this]; simp [hr]

@[simp] theorem Group.vsetBy_s (g : Group) (m : Mask) (d : Nat) (f : Nat → W32) : (g.vsetBy m d f).s = g.s := rfl
@[simp] theorem Group.vsetBy_p (g : Group) (m : Mask) (d : Nat) (f : Nat → W32) : (g.vsetBy m d f).p = g.p := rfl
@[simp] theorem Group.vsetBy_pcs (g : Group) (m : Mask) (d : Nat) (f : Nat → W32) : (g.vsetBy m d f).pcs = g.pcs := rfl
@[simp] theorem Group.vsetBy_waits (g : Group) (m : Mask) (d : Nat) (f : Nat → W32) : (g.vsetBy m d f).waits = g.waits := rfl

theorem Group.mem_cured (g : Group) (m : Mask) (rs : List Nat) (r : Nat) (h : r ∈ g.cured m rs) : r ∈ g.poison := by
  simp only [Group.cured] at h
  split at h
  · exact (List.mem_filter.1 h).1
  · exact h

/-! ## PCs -/

theorem Group.pcOf_setPcBy (g : Group) (lanes : Mask) (f : Nat → Nat) (l : Nat) (hl : l < 32) :
    (g.setPcBy lanes f).pcOf l = if lanes.getLsbD l then f l % 2 ^ 32 else g.pcOf l := by
  simp only [Group.setPcBy, Group.pcOf]
  rw [getD_foldl_put (key := fun k => k) (f := fun k => f k % 2 ^ 32) (inj := fun a _ b _ e => e)]
  rw [find?_lane lanes (fun k => k == l) l hl (fun k _ => by by_cases e : k = l <;> simp [e])]
  by_cases hb : lanes.getLsbD l = true <;> simp [hb]

theorem Group.setPc_eq (g : Group) (lanes : Mask) (pc : Nat) : g.setPc lanes pc = g.setPcBy lanes (fun _ => pc) := rfl

theorem Group.pcOf_setPc (g : Group) (lanes : Mask) (pc l : Nat) (hl : l < 32) :
    (g.setPc lanes pc).pcOf l = if lanes.getLsbD l then pc % 2 ^ 32 else g.pcOf l := by
  rw [Group.setPc_eq, Group.pcOf_setPcBy _ _ _ _ hl]

@[simp] theorem Group.setPcBy_v (g : Group) (m : Mask) (f : Nat → Nat) : (g.setPcBy m f).v = g.v := rfl
@[simp] theorem Group.setPcBy_s (g : Group) (m : Mask) (f : Nat → Nat) : (g.setPcBy m f).s = g.s := rfl
@[simp] theorem Group.setPcBy_p (g : Group) (m : Mask) (f : Nat → Nat) : (g.setPcBy m f).p = g.p := rfl
@[simp] theorem Group.setPcBy_waits (g : Group) (m : Mask) (f : Nat → Nat) : (g.setPcBy m f).waits = g.waits := rfl
@[simp] theorem Group.setPcBy_poison (g : Group) (m : Mask) (f : Nat → Nat) : (g.setPcBy m f).poison = g.poison := rfl
@[simp] theorem Group.setPc_v (g : Group) (m : Mask) (p : Nat) : (g.setPc m p).v = g.v := rfl
@[simp] theorem Group.setPc_s (g : Group) (m : Mask) (p : Nat) : (g.setPc m p).s = g.s := rfl
@[simp] theorem Group.setPc_p (g : Group) (m : Mask) (p : Nat) : (g.setPc m p).p = g.p := rfl
@[simp] theorem Group.setPc_waits (g : Group) (m : Mask) (p : Nat) : (g.setPc m p).waits = g.waits := rfl
@[simp] theorem Group.setPc_poison (g : Group) (m : Mask) (p : Nat) : (g.setPc m p).poison = g.poison := rfl

/-! ## Scalars and predicates -/

theorem Group.sget_sset (g : Group) (d n : Nat) (x : W64) :
    (g.sset d x).sget n = if n = d ∧ n ≠ 0 then x else g.sget n := by
  by_cases hd : d = 0
  · subst hd
    rw [if_neg (fun h => h.2 h.1)]; rfl
  · by_cases hn : n = 0
    · subst hn; simp [Group.sget]
    · simp only [Group.sset, if_neg hd, Group.sget, if_neg hn, Store.getD_put]
      by_cases e : d = n
      · subst e; simp [hn]
      · simp [e, Ne.symm e]

@[simp] theorem Group.sset_v (g : Group) (n : Nat) (x : W64) : (g.sset n x).v = g.v := by simp only [Group.sset]; split <;> rfl
@[simp] theorem Group.sset_p (g : Group) (n : Nat) (x : W64) : (g.sset n x).p = g.p := by simp only [Group.sset]; split <;> rfl
@[simp] theorem Group.sset_pcs (g : Group) (n : Nat) (x : W64) : (g.sset n x).pcs = g.pcs := by simp only [Group.sset]; split <;> rfl
@[simp] theorem Group.sset_waits (g : Group) (n : Nat) (x : W64) : (g.sset n x).waits = g.waits := by
  simp only [Group.sset]; split <;> rfl
theorem Group.sset_poison (g : Group) (n : Nat) (x : W64) : ∀ r ∈ (g.sset n x).poison, r ∈ g.poison := by
  intro r h
  simp only [Group.sset] at h
  split at h
  · exact h
  · exact (List.mem_filter.1 h).1

theorem Group.pmask_pset (g : Group) (d n : Nat) (m x : Mask) :
    (g.pset d m x).pmask n = if n = d ∧ n ≠ 0 then (g.pmask n &&& ~~~m) ||| (x &&& m) else g.pmask n := by
  by_cases hd : d = 0
  · subst hd
    rw [if_neg (fun h => h.2 h.1)]; rfl
  · by_cases hn : n = 0
    · subst hn; simp [Group.pmask]
    · simp only [Group.pset, if_neg hd]
      simp only [Group.pmask, if_neg hn, Store.getD_put, if_neg hd]
      by_cases e : d = n
      · subst e; simp [hn]
      · simp [e, Ne.symm e]

/-- What a write of pN in the lanes of a mask leaves in any predicate of any lane. -/
theorem Group.pget_pset (g : Group) (d n l : Nat) (m x : Mask) (hl : l < 32) :
    (g.pset d m x).pget n l = if n = d ∧ n ≠ 0 ∧ m.getLsbD l then x.getLsbD l else g.pget n l := by
  simp only [Group.pget, Group.pmask_pset]
  by_cases h : n = d ∧ n ≠ 0
  · rw [if_pos h]
    obtain ⟨rfl, h0⟩ := h
    simp only [BitVec.getLsbD_and, BitVec.getLsbD_or, BitVec.getLsbD_not, hl]
    cases hb : m.getLsbD l <;> simp [h0]
  · rw [if_neg h, if_neg (by intro hh; exact h ⟨hh.1, hh.2.1⟩)]

@[simp] theorem Group.pset_v (g : Group) (n : Nat) (m x : Mask) : (g.pset n m x).v = g.v := by simp only [Group.pset]; split <;> rfl
@[simp] theorem Group.pset_s (g : Group) (n : Nat) (m x : Mask) : (g.pset n m x).s = g.s := by simp only [Group.pset]; split <;> rfl
@[simp] theorem Group.pset_pcs (g : Group) (n : Nat) (m x : Mask) : (g.pset n m x).pcs = g.pcs := by simp only [Group.pset]; split <;> rfl
@[simp] theorem Group.pset_waits (g : Group) (n : Nat) (m x : Mask) : (g.pset n m x).waits = g.waits := by
  simp only [Group.pset]; split <;> rfl
theorem Group.pset_poison (g : Group) (n : Nat) (m x : Mask) : ∀ r ∈ (g.pset n m x).poison, r ∈ g.poison := by
  intro r h
  simp only [Group.pset] at h
  split at h
  · exact h
  · exact Group.mem_cured _ _ _ _ h

@[simp] theorem Group.unwait_v (g : Group) (m : Mask) : (g.unwait m).v = g.v := rfl
@[simp] theorem Group.unwait_s (g : Group) (m : Mask) : (g.unwait m).s = g.s := rfl
@[simp] theorem Group.unwait_p (g : Group) (m : Mask) : (g.unwait m).p = g.p := rfl
@[simp] theorem Group.unwait_pcs (g : Group) (m : Mask) : (g.unwait m).pcs = g.pcs := rfl
@[simp] theorem Group.unwait_poison (g : Group) (m : Mask) : (g.unwait m).poison = g.poison := rfl
@[simp] theorem Group.unwait_vget (g : Group) (m : Mask) (r l : Nat) : (g.unwait m).vget r l = g.vget r l := rfl
@[simp] theorem Group.unwait_wget (g : Group) (m : Mask) (r l : Nat) : (g.unwait m).wget r l = g.wget r l := rfl
@[simp] theorem Group.unwait_sget (g : Group) (m : Mask) (n : Nat) : (g.unwait m).sget n = g.sget n := rfl
@[simp] theorem Group.unwait_pmask (g : Group) (m : Mask) (n : Nat) : (g.unwait m).pmask n = g.pmask n := rfl
@[simp] theorem Group.unwait_pget (g : Group) (m : Mask) (n l : Nat) : (g.unwait m).pget n l = g.pget n l := rfl
@[simp] theorem Group.unwait_live (g : Group) (m : Mask) : (g.unwait m).live = g.live := rfl
@[simp] theorem Group.unwait_core (g : Group) (m : Mask) : (g.unwait m).core = g.core := rfl
@[simp] theorem Group.unwait_kind (g : Group) (m : Mask) : (g.unwait m).kind = g.kind := rfl
@[simp] theorem Group.unwait_rm (g : Group) (m : Mask) : (g.unwait m).rm = g.rm := rfl
@[simp] theorem Group.unwait_narrow (g : Group) (m : Mask) : (g.unwait m).narrow = g.narrow := rfl
@[simp] theorem Group.unwait_guarded (g : Group) (m x : Mask) (gd : BitVec 4) : (g.unwait m).guarded x gd = g.guarded x gd := rfl

theorem State.setGroup_setGroup (s : State) (gid : Nat) (g h : Group) : (s.setGroup gid g).setGroup gid h = s.setGroup gid h := by
  simp only [State.setGroup, Store.set_set]

/-- A group just set. -/
theorem State.get?_setGroup (s : State) (gid : Nat) (g : Group) : (s.setGroup gid g).groups.get? gid = some g :=
  Store.get?_set_self _ _ _

/-- A change of a group just set. -/
theorem State.modGroup_setGroup (s : State) (gid : Nat) (g : Group) (f : Group → Group) :
    (s.setGroup gid g).modGroup gid f = s.setGroup gid (f g) := by
  simp only [State.modGroup, State.setGroup, Store.modify_of_some _ _ _ _ (Store.get?_set_self _ _ _), Store.set_set]

/-- A lane of a guarded mask (15 R267). -/
theorem Group.getLsbD_guarded (g : Group) (m : Mask) (gd : BitVec 4) (l : Nat) (hl : l < 32) :
    (g.guarded m gd).getLsbD l = (m.getLsbD l && (g.pget (gd.toNat % 8) l != gd.getLsbD 3)) := by
  simp only [Group.guarded, Group.pget]
  cases h : gd.getLsbD 3 <;> simp [hl]

end Sys2Proof.Machine
end

