-- ==== Sys2Proof/Laws/Issue.lean ====
section
/-! SUPPORT. Laws of the frame of an issue: what `issue` gives when no check before the form's own effect fails. -/
namespace Sys2Proof.Machine

/-- What the form's own effect is given. -/
def Turn.ctx (q : Turn) (i : Instr) : ICtx :=
  { gid := q.gid, g := q.g.unwait q.lanes, pc := q.pc, lanes := q.lanes, i := i, prev := none }

/-- The state that the form's own effect starts from. -/
def Turn.start (q : Turn) (s : State) : State := s.setGroup q.gid (q.g.unwait q.lanes)

@[simp] theorem Turn.ctx_gid (q : Turn) (i : Instr) : (q.ctx i).gid = q.gid := rfl
@[simp] theorem Turn.ctx_g (q : Turn) (i : Instr) : (q.ctx i).g = q.g.unwait q.lanes := rfl
@[simp] theorem Turn.ctx_pc (q : Turn) (i : Instr) : (q.ctx i).pc = q.pc := rfl
@[simp] theorem Turn.ctx_lanes (q : Turn) (i : Instr) : (q.ctx i).lanes = q.lanes := rfl
@[simp] theorem Turn.ctx_i (q : Turn) (i : Instr) : (q.ctx i).i = i := rfl
@[simp] theorem Turn.ctx_next (q : Turn) (i : Instr) : (q.ctx i).next = q.pc + i.size := rfl

theorem teamOf_setGroup (s : State) (gid : Nat) (h g : Group) : (s.setGroup gid h).teamOf g = s.teamOf g := rfl
theorem teamOf_unwait (s : State) (g : Group) (m : Mask) : s.teamOf (g.unwait m) = s.teamOf g := rfl

/-- Everything `issue` does when its checks pass. -/
theorem issue_eq {s : State} {q : Turn} {i : Instr} (h : s.Issues q i) (k : ICtx → State → State) :
    issue i s k = .next (k (q.ctx i) (q.start s)) := by
  obtain ⟨⟨hc, hg, hn, hl⟩, hw, hr, hp⟩ := h
  simp only [State.tilesFor] at hr
  have no (l : List Nat) (hl : ∀ r ∈ l, r ∈ readCodes i) : l.any q.g.poison.contains = false := by
    rw [List.any_eq_false]
    intro r hr hcon
    exact hp r (hl r hr) (by simpa using hcon)
  have hgp : q.g.guardPoison i = false := by
    have := no [poisonP ((guardOf i).toNat % 8)] (by simp [readCodes])
    simpa [Group.guardPoison] using this
  have hpo : (q.ctx i).poisoned = false := by
    simp only [ICtx.poisoned, Turn.ctx, Group.readsPoison, Group.guardPoison, Group.unwait_poison]
    have hgp' := hgp
    simp only [Group.guardPoison] at hgp'
    rw [hgp', no (readsOf i) (by intro r h; simp [readCodes, h]), no ((scalarReads i).map poisonS) (by intro r h; simp only [readCodes, List.mem_cons, List.mem_append]; exact .inr (.inl (.inr h))),
      no ((predReads i).map poisonP) (by intro r h; simp only [readCodes, List.mem_cons, List.mem_append]; exact .inr (.inr h))]
    simp
  have hgp2 : (q.g.unwait q.lanes).guardPoison i = false := hgp
  have hpo2 : ({ gid := q.gid, g := q.g.unwait q.lanes, pc := q.pc, lanes := q.lanes, i := i, prev := none } : ICtx).poisoned = false := hpo
  simp only [issue, hc, hg, hl, hn, if_false, hw, Bool.not_true, Bool.false_eq_true, Group.waitOf, if_true, Option.isSome_none]
  split
  · rename_i u hu
    exact absurd (hr.symm.trans hu) (by simp)
  · rw [hgp2, hpo2]
    simp [Turn.ctx, Turn.start]

/-- The lanes that take part, as a mask and lane by lane. -/
theorem Turn.part_lane (q : Turn) (i : Instr) (l : Nat) (hl : l < 32) : (q.ctx i).part.getLsbD l = q.takes i l := by
  simp only [ICtx.part, Turn.ctx, Group.unwait_guarded, Turn.takes, Option.isSome_none, Bool.false_eq_true, if_false]
  exact Group.getLsbD_guarded _ _ _ _ hl

theorem Turn.part_zero (q : Turn) (i : Instr) : (q.ctx i).part = 0 ↔ ¬ q.acts i := by
  rw [Turn.acts]
  constructor
  · intro h ⟨l, hl, ht⟩
    rw [← Turn.part_lane q i l hl, h] at ht
    simp at ht
  · intro h
    by_cases hz : (q.ctx i).part = 0
    · exact hz
    · obtain ⟨l, hl, hb⟩ := (mask_ne_zero _).1 hz
      exact absurd ⟨l, hl, by rw [← Turn.part_lane q i l hl]; exact hb⟩ h

/-- An operation of registers alone. -/
theorem regOp_eq {s : State} {q : Turn} {i : Instr} (h : s.Issues q i) (f : Mask → Group → Group) :
    regOp i s f = .next (s.setGroup q.gid ((f (q.ctx i).part (q.g.unwait q.lanes)).setPc q.lanes (q.pc + i.size))) := by
  rw [regOp, issue_eq h]
  simp only [ICtx.step, Turn.start, Turn.ctx_gid, State.setGroup_setGroup]
  rfl

/-- A write of one scalar register, when some lane takes part and a write to s62 is in range. -/
theorem scalarOp_eq {s : State} {q : Turn} {i : Instr} (h : s.Issues q i) (ha : q.acts i) (d : Nat) (f : Mask → Group → W64)
    (ok : q.g.stackOk d (f (q.ctx i).part (q.g.unwait q.lanes)) = true) :
    scalarOp i d s f = .next (s.setGroup q.gid (((q.g.unwait q.lanes).sset d (f (q.ctx i).part (q.g.unwait q.lanes))).setPc q.lanes
      (q.pc + i.size))) := by
  rw [scalarOp, issue_eq h]
  have hz : ¬ ((q.ctx i).part = 0) := fun hz => ((Turn.part_zero q i).1 hz) ha
  have ok' : (q.ctx i).g.stackOk d (f (q.ctx i).part (q.ctx i).g) = true := ok
  simp only [if_neg hz, ok', if_true]
  simp only [ICtx.step, Turn.start, Turn.ctx_gid, State.setGroup_setGroup]
  rfl

/-- The frame of a group whose registers alone a write changes. -/
theorem Group.RegsOnly.of_eq {g h : Group} (e : { h with
    v := g.v
    s := g.s
    p := g.p
    pcs := g.pcs
    waits := g.waits
    poison := g.poison } = g) (p : ∀ r ∈ h.poison, r ∈ g.poison) : g.RegsOnly h := ⟨e, p⟩

/-- A write of vR leaves only registers changed. -/
theorem Group.RegsOnly.vsetBy (g : Group) (m : Mask) (d : Nat) (f : Nat → W32) (pc : Nat) (w : Mask) :
    g.RegsOnly (((g.unwait w).vsetBy m d f).setPc w pc) := by
  refine ⟨rfl, fun r hr => ?_⟩
  rw [Group.setPc_poison] at hr
  exact Group.mem_cured _ _ _ _ hr

/-- A write of sN leaves only registers changed. -/
theorem Group.RegsOnly.sset (g : Group) (d : Nat) (x : W64) (pc : Nat) (w : Mask) :
    g.RegsOnly (((g.unwait w).sset d x).setPc w pc) := by
  by_cases h : d = 0
  · subst h; exact ⟨rfl, fun r hr => hr⟩
  · refine ⟨?_, fun r hr => Group.sset_poison (g.unwait w) d x r (by simpa using hr)⟩
    simp only [Group.sset, if_neg h]
    rfl

/-- A write of pN leaves only registers changed. -/
theorem Group.RegsOnly.pset (g : Group) (d : Nat) (m x : Mask) (pc : Nat) (w : Mask) :
    g.RegsOnly (((g.unwait w).pset d m x).setPc w pc) := by
  by_cases h : d = 0
  · subst h; exact ⟨rfl, fun r hr => hr⟩
  · refine ⟨?_, fun r hr => Group.pset_poison (g.unwait w) d m x r (by simpa using hr)⟩
    simp only [Group.pset, if_neg h]
    rfl

theorem Turn.goesOn_setPc (q : Turn) (i : Instr) (h : Group) (hp : h.pcs = q.g.pcs) :
    q.GoesOn i (h.setPc q.lanes (q.pc + i.size)) := by
  intro l hl
  rw [Group.pcOf_setPc _ _ _ _ hl, Turn.next]
  split
  · rfl
  · simp [Group.pcOf, hp]

end Sys2Proof.Machine
end

