-- ==== Sys2Proof/Laws/Memory.lean ====
section
/-! SUPPORT. Laws of memory: a byte read after it is written, every other byte unchanged, and the canonical form kept. -/
namespace Sys2Proof.Machine

theorem Memory.get_put (m : Memory) (k j : Nat) (b : Byte) : (m.put k b).get j = if k = j then b else m.get j := by
  by_cases hr : Memory.reset? k = some b
  · simp only [Memory.put, Memory.get, if_pos hr, Store.get?_erase]
    split
    · rename_i h; subst h; simp [Memory.unlisted, hr]
    · rfl
  · simp only [Memory.put, Memory.get, if_neg hr, Store.get?_set]
    split <;> simp

theorem keyAdd_zero (k : Nat) : keyAdd k 0 = k := by simp [keyAdd]
theorem keyAdd_keyAdd (k a b : Nat) : keyAdd (keyAdd k a) b = keyAdd k (a + b) := by simp [keyAdd]; omega
theorem keyAdd_inj (k a b : Nat) : keyAdd k a = keyAdd k b ↔ a = b := by simp only [keyAdd]; omega

theorem Memory.get_putBytes (m : Memory) (k j : Nat) (bs : List Byte) :
    (m.putBytes k bs).get j = if j % 4 = k % 4 ∧ k / 4 ≤ j / 4 ∧ j / 4 < k / 4 + bs.length then bs.getD (j / 4 - k / 4) 0 else m.get j := by
  induction bs generalizing m k with
  | nil => simp [Memory.putBytes] <;> omega
  | cons b t ih =>
    simp only [Memory.putBytes, ih, Memory.get_put, List.length_cons, keyAdd]
    by_cases h : k = j
    · subst h
      have h1 : ¬ ((k + 4 * 1) / 4 ≤ k / 4) := by omega
      rw [if_neg (fun h => h1 h.2.1), if_pos rfl, if_pos ⟨rfl, by omega, by omega⟩]
      simp
    · by_cases h2 : j % 4 = (k + 4 * 1) % 4 ∧ (k + 4 * 1) / 4 ≤ j / 4 ∧ j / 4 < (k + 4 * 1) / 4 + t.length
      · rw [if_pos h2, if_pos (by omega)]
        have e : j / 4 - k / 4 = (j / 4 - (k + 4 * 1) / 4) + 1 := by omega
        rw [e]; rfl
      · rw [if_neg h2, if_neg h, if_neg (by omega)]

theorem length_toLe (n w : Nat) : (toLe n w).length = n := by
  induction n generalizing w with
  | zero => rfl
  | succ n ih => simp [toLe, ih]

theorem getD_toLe (n w i : Nat) (h : i < n) : (toLe n w).getD i 0 = BitVec.ofNat 8 (w / 256 ^ i) := by
  induction n generalizing w i with
  | zero => omega
  | succ n ih =>
    cases i with
    | zero => simp [toLe]
    | succ i =>
      have := ih (w / 256) i (by omega)
      simp only [toLe, List.getD_cons_succ, this, Nat.div_div_eq_div_mul, Nat.pow_succ, Nat.mul_comm]

theorem fromLe_toLe (n w : Nat) : fromLe (toLe n w) = w % 256 ^ n := by
  induction n generalizing w with
  | zero => simp [toLe, fromLe, Nat.mod_one]
  | succ n ih =>
    have e : (256 : Nat) ^ (n + 1) = 256 * 256 ^ n := by rw [Nat.pow_succ, Nat.mul_comm]
    rw [toLe, fromLe, ih, BitVec.toNat_ofNat, e, Nat.mod_mul]

theorem Memory.settle_cells (m : Memory) (k n : Nat) : (m.settle k n).cells = m.cells := by
  simp only [Memory.settle]; split <;> rfl
theorem Memory.cleanUnits_cells (m : Memory) (k n : Nat) : (m.cleanUnits k n).cells = m.cells := by
  simp only [Memory.cleanUnits]; split <;> rfl

theorem Memory.get_of_cells {m n : Memory} (h : m.cells = n.cells) (k : Nat) : m.get k = n.get k := by simp [Memory.get, h]

@[simp] theorem State.byte_settle (s : State) (k n j : Nat) : (s.settle k n).byte j = s.byte j :=
  Memory.get_of_cells (Memory.settle_cells _ _ _) _

/-- What a byte reads as after a write: the byte written, or the byte before. -/
theorem State.byte_writeMem (s : State) (k n w j : Nat) :
    (s.writeMem k n w).byte j =
      if j % 4 = k % 4 ∧ k / 4 ≤ j / 4 ∧ j / 4 < k / 4 + n then BitVec.ofNat 8 (w / 256 ^ (j / 4 - k / 4)) else s.byte j := by
  have hc : ((s.mem.settle k n).cleanUnits k n).get j = s.mem.get j :=
    Memory.get_of_cells ((Memory.cleanUnits_cells _ _ _).trans (Memory.settle_cells _ _ _)) _
  simp only [State.byte, State.writeMem, Memory.write, Memory.get_putBytes, length_toLe, hc]
  split
  · rw [getD_toLe]; omega
  · rfl

theorem State.byte_writeBytes (s : State) (k j : Nat) (bs : List Byte) :
    (s.writeBytes k bs).byte j =
      if j % 4 = k % 4 ∧ k / 4 ≤ j / 4 ∧ j / 4 < k / 4 + bs.length then bs.getD (j / 4 - k / 4) 0 else s.byte j := by
  have hc : ((s.mem.settle k bs.length).cleanUnits k bs.length).get j = s.mem.get j :=
    Memory.get_of_cells ((Memory.cleanUnits_cells _ _ _).trans (Memory.settle_cells _ _ _)) _
  simp only [State.byte, State.writeBytes, Memory.get_putBytes, hc]

theorem Memory.bytes_congr {m p : Memory} {k n : Nat} (h : ∀ i < n, m.get (keyAdd k i) = p.get (keyAdd k i)) :
    m.bytes k n = p.bytes k n := by
  induction n generalizing k with
  | zero => rfl
  | succ n ih =>
    have h0 := h 0 (by omega)
    rw [keyAdd_zero] at h0
    simp only [Memory.bytes, h0, List.cons.injEq, true_and]
    exact ih (fun i hi => by rw [keyAdd_keyAdd]; exact h (1 + i) (by omega))

theorem Memory.bytes_putBytes (m : Memory) (k : Nat) (bs : List Byte) : (m.putBytes k bs).bytes k bs.length = bs := by
  induction bs generalizing m k with
  | nil => rfl
  | cons b t ih =>
    simp only [List.length_cons, Memory.bytes, Memory.putBytes, ih, List.cons.injEq, and_true]
    rw [Memory.get_putBytes, if_neg (by simp only [keyAdd]; omega), Memory.get_put, if_pos rfl]

/-- A read after a write of the same bytes gives the value written. -/
theorem State.readMem_writeMem (s : State) (k n w : Nat) : (s.writeMem k n w).readMem k n = w % 256 ^ n := by
  simp only [State.readMem, Memory.read, State.writeMem, Memory.write]
  have h := Memory.bytes_putBytes ((s.mem.settle k n).cleanUnits k n) k (toLe n w)
  rw [length_toLe] at h
  rw [h, fromLe_toLe]

/-! ## The canonical form -/

theorem Memory.wf_iff (m : Memory) : m.wf = true ↔
    Store.wf (m.cells : Store Byte) = true ∧ ∀ c ∈ m.cells, Memory.reset? c.1 ≠ some c.2 := by
  simp [Memory.wf]

theorem Memory.wf_of_cells {m n : Memory} (h : n.cells = m.cells) (hw : m.wf = true) : n.wf = true := by
  simpa [Memory.wf, h] using hw

theorem Memory.wf_put (m : Memory) (k : Nat) (b : Byte) (h : m.wf = true) : (m.put k b).wf = true := by
  rw [Memory.wf_iff] at h ⊢
  simp only [Memory.put]
  split
  · exact ⟨Store.wf_erase _ h.1, fun c hc => h.2 c ((Store.erase_sublist (m.cells : Store Byte) k).subset hc)⟩
  · rename_i hr
    refine ⟨Store.wf_set _ _ h.1, fun c hc => ?_⟩
    rcases Store.mem_set hc with rfl | hc
    · exact hr
    · exact h.2 c hc

theorem Memory.wf_putBytes (m : Memory) (k : Nat) (bs : List Byte) (h : m.wf = true) : (m.putBytes k bs).wf = true := by
  induction bs generalizing m k with
  | nil => exact h
  | cons b t ih => exact ih _ _ (Memory.wf_put m k b h)

theorem Memory.wf_write (m : Memory) (k n w : Nat) (h : m.wf = true) : (m.write k n w).wf = true := Memory.wf_putBytes _ _ _ h
theorem Memory.wf_settle (m : Memory) (k n : Nat) (h : m.wf = true) : (m.settle k n).wf = true :=
  Memory.wf_of_cells (Memory.settle_cells _ _ _) h
theorem Memory.wf_cleanUnits (m : Memory) (k n : Nat) (h : m.wf = true) : (m.cleanUnits k n).wf = true :=
  Memory.wf_of_cells (Memory.cleanUnits_cells _ _ _) h
theorem Memory.wf_drop (m : Memory) (p : Nat → Bool) (h : m.wf = true) : (m.drop p).wf = true := by
  rw [Memory.wf_iff] at h ⊢
  exact ⟨Store.wf_sublist List.filter_sublist h.1, fun c hc => h.2 c (List.mem_filter.1 hc).1⟩
theorem Memory.wf_dropRange (m : Memory) (pa n : Nat) (h : m.wf = true) : (m.dropRange pa n).wf = true := Memory.wf_drop _ _ h
theorem Memory.wf_poisonUnit (m : Memory) (u place : Nat) (h : m.wf = true) : (m.poisonUnit u place).wf = true :=
  Memory.wf_of_cells rfl h

/-- Memory after a write of the state keeps the canonical form. -/
theorem State.wf_writeMem (s : State) (k n w : Nat) (h : s.mem.wf = true) : (s.writeMem k n w).mem.wf = true :=
  Memory.wf_write _ _ _ _ (Memory.wf_cleanUnits _ _ _ (Memory.wf_settle _ _ _ h))
theorem State.wf_writeBytes (s : State) (k : Nat) (bs : List Byte) (h : s.mem.wf = true) : (s.writeBytes k bs).mem.wf = true :=
  Memory.wf_putBytes _ _ _ (Memory.wf_cleanUnits _ _ _ (Memory.wf_settle _ _ _ h))
theorem State.wf_settle (s : State) (k n : Nat) (h : s.mem.wf = true) : (s.settle k n).mem.wf = true := Memory.wf_settle _ _ _ h
theorem State.wf_combine (s : State) (k n : Nat) (h : s.mem.wf = true) : (s.combine k n).mem.wf = true := by
  rw [State.combine_mem]; exact Memory.wf_settle _ _ _ h
theorem State.wf_reduceAt (s : State) (k n w : Nat) (h : s.mem.wf = true) : (s.reduceAt k n w).mem.wf = true :=
  Memory.wf_write _ _ _ _ (s.wf_combine k n h)

theorem State.wf_writeSegs (s : State) (l : List Seg) (bs : List Byte) (h : s.mem.wf = true) : (s.writeSegs l bs).mem.wf = true := by
  induction l generalizing s bs with
  | nil => exact h
  | cons g t ih => exact ih _ _ (State.wf_writeBytes s _ _ h)

/-- The memory after reset has the canonical form. -/
theorem reset_mem_wf : State.reset.mem.wf = true := by decide

end Sys2Proof.Machine
end

