-- ==== Sys2Proof/Laws/Access.lean ====
section
/-! SUPPORT. Laws of accesses: what translating, queueing and counting an access leaves alone, and what loads and stores of a path do. -/
namespace Sys2Proof.Machine

/-! ## Control registers -/

theorem CtlReg.key_inj (r r' : CtlReg) (u u' : Nat) : r.key u = r'.key u' ↔ r = r' ∧ u = u' := by
  have h : ∀ x : CtlReg, x.ctorIdx < 256 := by intro x; cases x <;> decide
  have hi : ∀ x y : CtlReg, x.ctorIdx = y.ctorIdx → x = y := by
    intro x y h
    have ho : ∀ z : CtlReg, CtlReg.ofNat z.ctorIdx = z := by intro z; cases z <;> rfl
    rw [← ho x, ← ho y, h]
  constructor
  · intro e
    simp only [CtlReg.key] at e
    have := h r; have := h r'
    exact ⟨hi _ _ (by omega), by omega⟩
  · rintro ⟨rfl, rfl⟩; rfl

/-- A control register after one is set. -/
theorem State.ctlGet_ctlSet (s : State) (r r' : CtlReg) (u u' : Nat) (x : W64) :
    (s.ctlSet r u x).ctlGet r' u' = if r' = r ∧ u' = u then x else s.ctlGet r' u' := by
  simp only [State.ctlGet, State.ctlSet]
  by_cases h : r = r' ∧ u = u'
  · obtain ⟨rfl, rfl⟩ := h
    simp [Store.getD, Store.get?_set]
  · rw [if_neg (fun e => h ⟨e.1.symm, e.2.symm⟩), Store.getD, Store.getD, Store.get?_set_ne _ _ (fun e => h ((CtlReg.key_inj _ _ _ _).1 e))]

theorem State.ctlGet_count (s : State) (r r' : CtlReg) (u u' n : Nat) (h : r' ≠ r) :
    (s.count r u n).ctlGet r' u' = s.ctlGet r' u' := by
  rw [State.count, State.ctlGet_ctlSet, if_neg (fun e => h e.1)]

/-! ## What an access changes besides memory -/

/-- The states differ in what serves accesses alone: TLBs, request queues, counters, the model's numbers, and partial sums. -/
structure State.Quiet (s t : State) : Prop where
  groups : t.groups = s.groups
  teams : t.teams = s.teams
  grids : t.grids = s.grids
  cells : t.mem.cells = s.mem.cells
  disp : t.disp = s.disp
  eng : t.eng = s.eng
  spire : t.spire = s.spire
  ctrl : t.ctrl = s.ctrl
  fab : t.fab = s.fab
  fw : t.fw = s.fw
  regs : ∀ r u, r.tally = false → t.ctlGet r u = s.ctlGet r u

theorem State.Quiet.refl (s : State) : s.Quiet s := ⟨rfl, rfl, rfl, rfl, rfl, rfl, rfl, rfl, rfl, rfl, fun _ _ _ => rfl⟩
theorem State.Quiet.trans {s t u : State} (a : s.Quiet t) (b : t.Quiet u) : s.Quiet u :=
  ⟨b.1.trans a.1, b.2.trans a.2, b.3.trans a.3, b.4.trans a.4, b.5.trans a.5, b.6.trans a.6, b.7.trans a.7, b.8.trans a.8,
   b.9.trans a.9, b.10.trans a.10, fun r u h => (b.11 r u h).trans (a.11 r u h)⟩

theorem State.quiet_useFree (s : State) (n : Nat) : s.Quiet (s.useFree n) := ⟨rfl, rfl, rfl, rfl, rfl, rfl, rfl, rfl, rfl, rfl, fun _ _ _ => rfl⟩
theorem State.quiet_useIds (s : State) (n : Nat) : s.Quiet (s.useIds n) := ⟨rfl, rfl, rfl, rfl, rfl, rfl, rfl, rfl, rfl, rfl, fun _ _ _ => rfl⟩
theorem State.quiet_count (s : State) (r : CtlReg) (u n : Nat) (hr : r.tally = true) : s.Quiet (s.count r u n) :=
  ⟨rfl, rfl, rfl, rfl, rfl, rfl, rfl, rfl, rfl, rfl, fun r' u' h => State.ctlGet_count _ _ _ _ _ _ (by rintro rfl; simp [hr] at h)⟩
theorem State.quiet_settle (s : State) (k n : Nat) : s.Quiet (s.settle k n) :=
  ⟨rfl, rfl, rfl, Memory.settle_cells _ _ _, rfl, rfl, rfl, rfl, rfl, rfl, fun _ _ _ => rfl⟩

theorem State.quiet_combine (s : State) (k n : Nat) : s.Quiet (s.combine k n) := by
  simp only [State.combine]
  split
  · exact (s.quiet_settle k n).trans (State.quiet_count _ _ _ _ rfl)
  · exact s.quiet_settle k n

theorem State.quiet_mmu (s : State) (m : Mmu) : s.Quiet { s with mmu := m } :=
  ⟨rfl, rfl, rfl, rfl, rfl, rfl, rfl, rfl, rfl, rfl, fun _ _ _ => rfl⟩
theorem State.quiet_msys (s : State) (m : MSys) : s.Quiet { s with msys := m } :=
  ⟨rfl, rfl, rfl, rfl, rfl, rfl, rfl, rfl, rfl, rfl, fun _ _ _ => rfl⟩

theorem State.quiet_foldl {α : Type} (f : State → α → State) (h : ∀ (t : State) (x : α), t.Quiet (f t x)) (l : List α) (s : State) :
    s.Quiet (l.foldl f s) := by
  induction l generalizing s with
  | nil => exact State.Quiet.refl s
  | cons x t ih => exact (h s x).trans (ih _)

theorem State.quiet_enqueue (s : State) (q : MemReq) : s.Quiet (s.enqueue q) := (State.quiet_msys _ _).trans (State.quiet_useIds _ 1)

theorem State.quiet_request (s : State) (a : Ask) (pa : Nat) : s.Quiet (s.request a pa) := by
  simp only [State.request]
  split
  · exact State.Quiet.refl s
  · refine State.Quiet.trans ?_ ((State.quiet_msys _ _).trans (State.quiet_enqueue _ _))
    split <;> split <;> first | exact State.quiet_count _ _ _ _ rfl | exact State.Quiet.refl s

theorem State.quiet_l2Add (s : State) (pa : Nat) : s.Quiet (s.l2Add pa) := by
  simp only [State.l2Add]
  split
  · exact State.Quiet.refl s
  · split
    · exact s.quiet_msys _
    · exact (s.quiet_msys _).trans (State.quiet_useFree _ 1)

theorem State.quiet_requests (s : State) (a : Ask) (pa n : Nat) : s.Quiet (s.requests a pa n) := by
  have h := State.quiet_foldl (fun t p => t.request a p) (fun t _ => t.quiet_request _ _) (s.asked a pa n) s
  simp only [State.requests]
  split
  · exact h.trans (State.quiet_foldl _ (fun t _ => t.quiet_l2Add _) _ _)
  · exact h

theorem State.quiet_tlbAdd (s : State) (e : TlbEntry) : s.Quiet (s.tlbAdd e) := by
  simp only [State.tlbAdd]
  split
  · exact s.quiet_mmu _
  · exact (s.quiet_mmu _).trans (State.quiet_useFree _ 1)

theorem State.quiet_noteWalk (s : State) (a : Acc) (die va : Nat) : s.Quiet (s.noteWalk a die va) := by
  simp only [State.noteWalk]
  have h1 := (s.quiet_count .tlbDieMisses die 1 rfl).trans (State.quiet_count _ .tlbWalkNs die (Config.spentNs s.env.freeCtr) rfl)
  refine State.Quiet.trans (State.Quiet.trans ?_ (State.quiet_useFree _ 1))
    (State.quiet_foldl _ (fun t _ => (t.quiet_requests _ _ _).trans (State.quiet_combine _ _ _)) _ _)
  split
  · exact h1.trans (State.quiet_count _ _ _ _ rfl)
  · exact h1

theorem State.quiet_noteHeld (s : State) (a : Acc) (h : Held) (va : Nat) : s.Quiet (s.noteHeld a h va) := by
  simp only [State.noteHeld]
  refine State.Quiet.trans ?_ (State.quiet_foldl _ (fun t _ => ?_) _ _)
  · split
    · exact State.Quiet.refl s
    · exact s.quiet_requests _ _ _
  · split
    · exact State.Quiet.refl t
    · exact t.quiet_tlbAdd _

theorem State.quiet_noteAccess (s : State) (a : Acc) (va : Nat) : s.Quiet (s.noteAccess a va) := by
  have hw := (s.quiet_noteWalk a (walkDie a.place) va).trans (State.quiet_mmu _ { (s.noteWalk a (walkDie a.place) va).mmu with
    tlb := (s.noteWalk a (walkDie a.place) va).mmu.tlb.filter (fun e => e.held || !e.covers a va) })
  simp only [State.noteAccess]
  split
  · exact s.quiet_noteHeld _ _ _
  · split
    · split
      · exact State.Quiet.refl s
      · exact s.quiet_tlbAdd _
    · split
      · exact hw.trans (State.quiet_foldl _ (fun t _ => t.quiet_tlbAdd _) _ _)
      · exact hw

theorem State.quiet_leaseLoad (s : State) (b : Acc) (a : Nat) (w : Bool) : s.Quiet (s.leaseLoad b a w) := by
  simp only [State.leaseLoad]
  split
  · exact State.quiet_count _ _ _ _ rfl
  · exact State.Quiet.refl s

theorem State.quiet_accessBy (s : State) (b : Acc) (g : Group) (a n : Nat) (l : Loc) (w : Bool) (serves : Option Nat) :
    s.Quiet (s.accessBy b g a n l w serves) := by
  simp only [State.accessBy]
  have h : s.Quiet (if windowOf a = .glb then (s.noteAccess b a).leaseLoad b a w else s) := by
    split
    · exact (s.quiet_noteAccess _ _).trans (State.quiet_leaseLoad _ _ _ _)
    · exact State.Quiet.refl s
  split
  · split
    · exact h.trans (State.quiet_requests _ _ _ _)
    · exact h
  · exact h

theorem State.quiet_access (s : State) (g : Group) (a n : Nat) (l : Loc) (w : Bool) : s.Quiet (s.access g a n l w) :=
  s.quiet_accessBy _ _ _ _ _ _ _

theorem State.quiet_touch (s : State) (g : Group) (a : Nat) : s.Quiet (s.touch g a) := by
  simp only [State.touch]
  split
  · exact s.quiet_noteAccess _ _
  · exact State.Quiet.refl s

theorem State.Quiet.byte {s t : State} (h : s.Quiet t) (j : Nat) : t.byte j = s.byte j := Memory.get_of_cells h.cells j
theorem State.Quiet.sameBytes {s t : State} (h : s.Quiet t) : s.sameBytes t := fun j => h.byte j
theorem State.Quiet.sameBut {s t : State} (h : s.Quiet t) (gid : Nat) : s.SameBut t gid :=
  ⟨fun j _ => by rw [h.groups], h.teams, h.grids, h.eng, h.spire, h.ctrl, h.fw, h.disp, h.regs⟩

theorem State.SameBut.refl (s : State) (gid : Nat) : s.SameBut s gid := ⟨fun _ _ => rfl, rfl, rfl, rfl, rfl, rfl, rfl, rfl, fun _ _ _ => rfl⟩
theorem State.SameBut.trans {s t u : State} {gid : Nat} (a : s.SameBut t gid) (b : t.SameBut u gid) : s.SameBut u gid :=
  ⟨fun j hj => (b.1 j hj).trans (a.1 j hj), b.2.trans a.2, b.3.trans a.3, b.4.trans a.4, b.5.trans a.5, b.6.trans a.6,
   b.7.trans a.7, b.8.trans a.8, fun r u h => (b.9 r u h).trans (a.9 r u h)⟩
theorem State.sameBut_setGroup (s : State) (gid : Nat) (g : Group) : s.SameBut (s.setGroup gid g) gid :=
  ⟨fun j hj => by simp only [State.setGroup, Store.get?_set, if_neg (Ne.symm hj)], rfl, rfl, rfl, rfl, rfl, rfl, rfl, fun _ _ _ => rfl⟩

/-- A change of one group leaves the others. -/
theorem State.sameBut_modGroup (s : State) (gid : Nat) (f : Group → Group) : s.SameBut (s.modGroup gid f) gid := by
  refine ⟨fun j hj => ?_, rfl, rfl, rfl, rfl, rfl, rfl, rfl, fun _ _ _ => rfl⟩
  simp only [State.modGroup, Store.modify]
  split
  · rw [Store.get?_set, if_neg (Ne.symm hj)]
  · rfl

/-! ## Memory as a function -/

theorem Memory.bytes_num (m : Memory) (k n : Nat) : fromLe (m.bytes k n) = Bytes.num m.get k n := by
  induction n generalizing k with
  | zero => rfl
  | succ n ih =>
    simp only [Memory.bytes, fromLe, ih, Bytes.num, List.range_succ_eq_map, List.map_cons, List.sum_cons, List.map_map]
    have : ∀ l : List Nat, 256 * (l.map (fun i => (m.get (keyAdd k 1 + 4 * i)).toNat * 256 ^ i)).sum =
        (l.map ((fun i => (m.get (k + 4 * i)).toNat * 256 ^ i) ∘ Nat.succ)).sum := by
      intro l
      induction l with
      | nil => rfl
      | cons x t iht =>
        have e : keyAdd k 1 + 4 * x = k + 4 * Nat.succ x := by simp only [keyAdd]; omega
        rw [List.map_cons, List.map_cons, List.sum_cons, List.sum_cons, ← iht, Nat.mul_add, e]
        simp only [Function.comp, Nat.pow_succ, Nat.mul_assoc, Nat.mul_comm]
    rw [this]; simp

/-- A read of the state is the little-endian number of its bytes. -/
theorem State.readMem_eq (s : State) (k n : Nat) : s.readMem k n = Bytes.num s.byte k n := Memory.bytes_num _ _ _

theorem State.byte_writeMem_stored (s : State) (k n w : Nat) : (s.writeMem k n w).byte = Bytes.stored s.byte k n w := by
  funext j
  rw [State.byte_writeMem]; rfl

/-! ## Loads -/

theorem Store.get?_modify_self {α : Type} (m : Store α) (k : Nat) (f : α → α) {x : α} (h : m.get? k = some x) :
    (m.modify k f).get? k = some (f x) := by
  rw [Store.modify_of_some _ _ _ _ h, Store.get?_set_self]

/-- A pending result joins a group. -/
theorem State.addPend {s : State} {gid : Nat} {g : Group} (h : s.groups.get? gid = some g) (p : Pend) :
    let t := s.modGroup gid (fun g => { g with pend := g.pend ++ [p] })
    t.groups.get? gid = some { g with pend := g.pend ++ [p] } ∧ s.SameBut t gid ∧ t.mem = s.mem ∧ t.fab = s.fab := by
  refine ⟨Store.get?_modify_self _ _ _ h, ⟨fun j hj => ?_, rfl, rfl, rfl, rfl, rfl, rfl, rfl, fun _ _ _ => rfl⟩, rfl, rfl⟩
  simp only [State.modGroup, Store.modify_of_some _ _ _ _ h, Store.get?_set, if_neg (Ne.symm hj)]

theorem State.loadValue_eq (s : State) (n : Nat) (x : Found) : s.loadValue n x = s.numAt n x := by
  cases x with
  | error _ => rfl
  | ok l => cases l with
    | here k => exact s.readMem_eq k n
    | away _ _ => rfl

theorem State.numAt_congr {s t : State} (h : s.sameBytes t) (n : Nat) (x : Found) : t.numAt n x = s.numAt n x := by
  have : t.byte = s.byte := funext h
  cases x with
  | error _ => rfl
  | ok l => cases l <;> simp [State.numAt, this]

/-- The state before a lane's result is made pending. -/
theorem State.sameBut_send (s : State) (m : Msg) (gid : Nat) : s.SameBut (s.send m) gid :=
  by
  simp only [State.send]
  split
  · exact ⟨fun _ _ => rfl, rfl, rfl, rfl, rfl, rfl, rfl, rfl, fun r u h => State.ctlGet_count _ _ _ _ _ _ (by rintro rfl; simp [CtlReg.tally] at h)⟩
  · exact ⟨fun _ _ => rfl, rfl, rfl, rfl, rfl, rfl, rfl, rfl, fun _ _ _ => rfl⟩
@[simp] theorem State.groups_send (s : State) (m : Msg) : (s.send m).groups = s.groups := by simp only [State.send]; split <;> rfl
@[simp] theorem State.mem_send (s : State) (m : Msg) : (s.send m).mem = s.mem := by simp only [State.send]; split <;> rfl

/-- What one lane's load does. -/
theorem ICtx.loadLane_spec (c : ICtx) (n d : Nat) (sg : Bool) (bad : List (FaultInfo × Nat)) (s : State) (q : Nat × Nat × Found)
    {g : Group} (h : s.groups.get? c.gid = some g) :
    ∃ p : Pend, (c.loadLane n d sg bad s q).groups.get? c.gid = some { g with pend := g.pend ++ [p] } ∧
      s.SameBut (c.loadLane n d sg bad s q) c.gid ∧ s.sameBytes (c.loadLane n d sg bad s q) ∧
      p.seen = (c.pc, laneBit q.1, loadRegs d n, laneWrites d q.1 (loadWords n sg (s.numAt n q.2.2)), none) ∧ p.bad = bad := by
  obtain ⟨l, a, x⟩ := q
  have key : ∀ s2 : State, s.SameBut s2 c.gid → s.sameBytes s2 → s2.groups = s.groups →
      ∀ p : Pend, let t := s2.modGroup c.gid (fun g => { g with pend := g.pend ++ [p] })
      t.groups.get? c.gid = some { g with pend := g.pend ++ [p] } ∧ s.SameBut t c.gid ∧ s.sameBytes t := by
    intro s2 hb hm hg p
    have hp := State.addPend (s := s2) (by rw [hg]; exact h) p
    exact ⟨hp.1, hb.trans hp.2.1, fun j => (show _ = s2.byte j from rfl).trans (hm j)⟩
  have q0 := s.quiet_useIds 1
  cases x with
  | error f =>
    simp only [ICtx.loadLane]
    have r := key _ (q0.sameBut _) q0.sameBytes q0.groups
    exact ⟨_, (r _).1, (r _).2.1, (r _).2.2, by rw [Pend.seen, State.loadValue_eq], rfl⟩
  | ok loc =>
    cases loc with
    | here k =>
      simp only [ICtx.loadLane, State.askRemote]
      have q1 := (q0.trans (State.quiet_accessBy _ ((s.useIds 1).accOf c.g) c.g a n (.here k) false (some s.freshId))).trans
        (State.quiet_combine _ k n)
      have r := key _ (q1.sameBut _) q1.sameBytes q1.groups
      exact ⟨_, (r _).1, (r _).2.1, (r _).2.2, by rw [Pend.seen, State.loadValue_eq], rfl⟩
    | away p pa =>
      simp only [ICtx.loadLane, State.askRemote]
      have q1 := q0.trans (State.quiet_accessBy _ ((s.useIds 1).accOf c.g) c.g a n (.away p pa) false (some s.freshId))
      have r := key (((s.useIds 1).accessBy ((s.useIds 1).accOf c.g) c.g a n (.away p pa) false (some s.freshId)).send
        ((s.askFor (s.accOf c.g) c.g a false none).msg p 0 0 [pa, n] (some (c.gid, l)))) ((q1.sameBut _).trans (State.sameBut_send _ _ _))
        (fun j => (by simp only [State.byte, State.mem_send]; exact q1.sameBytes j)) ((State.groups_send _ _).trans q1.groups)
      exact ⟨_, (r _).1, (r _).2.1, (r _).2.2, by rw [Pend.seen, State.loadValue_eq], rfl⟩

/-- What the loads of the lanes of a path do. -/
theorem ICtx.loadLanes_spec (c : ICtx) (n d : Nat) (sg : Bool) (bad : List (FaultInfo × Nat)) (xs : List (Nat × Nat × Found))
    (s : State) {g : Group} (h : s.groups.get? c.gid = some g) :
    ∃ items : List Pend, (xs.foldl (c.loadLane n d sg bad) s).groups.get? c.gid = some { g with pend := g.pend ++ items } ∧
      s.SameBut (xs.foldl (c.loadLane n d sg bad) s) c.gid ∧ s.sameBytes (xs.foldl (c.loadLane n d sg bad) s) ∧
      items.map Pend.seen = xs.map (fun q => (c.pc, laneBit q.1, loadRegs d n, laneWrites d q.1 (loadWords n sg (s.numAt n q.2.2)), none)) ∧
      ∀ p ∈ items, p.bad = bad := by
  induction xs generalizing s g with
  | nil => exact ⟨[], by simpa using h, .refl _ _, fun _ => rfl, rfl, by simp⟩
  | cons q t ih =>
    obtain ⟨p, hp, hs, hm, hv, hb⟩ := c.loadLane_spec n d sg bad s q h
    obtain ⟨items, ht, hs', hm', hv', hb'⟩ := ih _ hp
    refine ⟨p :: items, ?_, hs.trans hs', fun j => (hm' j).trans (hm j), ?_, ?_⟩
    · simpa using ht
    · rw [List.map_cons, List.map_cons, hv, hv']
      simp only [List.cons.injEq, true_and]
      exact List.map_congr_left (fun x _ => by rw [State.numAt_congr hm])
    · intro x hx
      rcases List.mem_cons.1 hx with rfl | hx
      · exact hb
      · exact hb' x hx

theorem Turn.part_list (q : Turn) (i : Instr) : lanesOf (q.ctx i).part = q.parts i := by
  simp only [lanesOf, Turn.parts]
  apply List.filter_congr
  intro l hl
  exact Turn.part_lane q i l (List.mem_range.1 hl)

theorem perLane_ok {α : Type} (f : Nat → Except FaultInfo α) (v : Nat → α) (l : List Nat) (h : ∀ x ∈ l, f x = .ok (v x)) :
    perLane f l = .ok (l.map (fun x => (x, v x))) := by
  induction l with
  | nil => rfl
  | cons a t ih =>
    simp only [perLane, h a (List.mem_cons_self ..), ih (fun x hx => h x (List.mem_cons_of_mem _ hx)), List.map_cons]

theorem Turn.mem_parts {q : Turn} {i : Instr} {l : Nat} : l ∈ q.parts i ↔ l < 32 ∧ q.takes i l = true := by
  simp [Turn.parts]

theorem Turn.at_eq (q : Turn) (a o : BitVec 7) (n l : Nat) : q.g.flAddr a.toNat l o n = q.at a o n l := by
  simp only [Group.flAddr, Turn.at, add64, Turn.w]
  have h : ∀ x : BitVec 7, ((sext64 7 x.toNat : Nat) : Int) % 18446744073709551616 = x.toInt % 18446744073709551616 := by
    intro x; revert x; decide
  have h2 := h o
  generalize sext64 7 o.toNat = e at *
  generalize o.toInt = z at *
  have : (((q.g.wget a.toNat l).toNat + e * n : Nat) : Int) % 18446744073709551616 = (((q.g.wget a.toNat l).toNat : Int) + z * n) % 18446744073709551616 := by
    push_cast
    rw [Int.add_emod, Int.mul_emod, h2, ← Int.mul_emod, ← Int.add_emod]
  omega

theorem loadRegs_eq (d : BitVec 7) (n : Nat) (h : n ∈ [1,2,4,8,16]) : loadRegs d.toNat n = fills d n := by
  simp only [List.mem_cons, List.not_mem_nil, or_false] at h
  rcases h with rfl | rfl | rfl | rfl | rfl <;> rfl
theorem ofInt_congr {a b : Int} (h : a % 4294967296 = b % 4294967296) : BitVec.ofInt 32 a = BitVec.ofInt 32 b := by
  apply BitVec.eq_of_toNat_eq
  simp only [BitVec.toNat_ofInt, Nat.reducePow]
  have : ((2 ^ 32 : Nat) : Int) = 4294967296 := by decide
  omega
theorem laneWrites_eq (d : BitVec 7) (n : Nat) (sg : Bool) (l x : Nat) (h : (n, sg) ∈ [(1,false),(1,true),(2,false),(2,true),(4,false),(8,false),(16,false)]) (hx : x < 2^(8*n)) :
    laneWrites d.toNat l (loadWords n sg x) = loaded d n sg l x := by
  simp only [List.mem_cons, List.not_mem_nil, or_false, Prod.mk.injEq] at h
  rcases h with ⟨rfl, rfl⟩ | ⟨rfl, rfl⟩ | ⟨rfl, rfl⟩ | ⟨rfl, rfl⟩ | ⟨rfl, rfl⟩ | ⟨rfl, rfl⟩ | ⟨rfl, rfl⟩ <;>
    simp [laneWrites, loadWords, loaded, List.range, List.range.loop, word, List.zipIdx, ← BitVec.ofInt_natCast]
  · refine ofInt_congr ?_
    have hx : x < 256 := hx
    rcases Nat.lt_or_ge x 128 with h | h
    · have hb : bit x 7 = false := by simp only [bit, beq_eq_false_iff_ne]; omega
      simp only [sext64, asSigned, Nat.reduceSub, Nat.reducePow, Nat.reduceMul, hb, if_pos h]; simp; omega
    · have hb : bit x 7 = true := by simp only [bit, beq_iff_eq]; omega
      simp only [sext64, asSigned, Nat.reduceSub, Nat.reducePow, Nat.reduceMul, hb, if_neg (Nat.not_lt.2 h)]; simp; omega
  · refine ofInt_congr ?_
    have hx : x < 65536 := hx
    rcases Nat.lt_or_ge x 32768 with h | h
    · have hb : bit x 15 = false := by simp only [bit, beq_eq_false_iff_ne]; omega
      simp only [sext64, asSigned, Nat.reduceSub, Nat.reducePow, Nat.reduceMul, hb, if_pos h]; simp; omega
    · have hb : bit x 15 = true := by simp only [bit, beq_iff_eq]; omega
      simp only [sext64, asSigned, Nat.reduceSub, Nat.reducePow, Nat.reduceMul, hb, if_neg (Nat.not_lt.2 h)]; simp; omega

theorem Bytes.num_lt (m : Bytes) (k n : Nat) : Bytes.num m k n < 256 ^ n := by
  induction n generalizing k with
  | zero => simp [Bytes.num]
  | succ n ih =>
    have := ih k
    simp only [Bytes.num, List.range_succ, List.map_append, List.map_cons, List.map_nil, List.sum_append, List.sum_cons, List.sum_nil] at *
    have hb := (m (k + 4 * n)).isLt
    have : (m (k + 4 * n)).toNat * 256 ^ n ≤ 255 * 256 ^ n := Nat.mul_le_mul_right _ (by omega)
    rw [Nat.pow_succ]; omega

/-- The writes of the loads of R346 are the ones of R347. -/
theorem loads_eq {i : Instr} {d a o : BitVec 7} {n : Nat} {sg : Bool} (h : loadForm i = some (d, a, o, n, sg)) (s : State) (l : Nat) (x : Found) :
    loadRegs d.toNat n = fills d n ∧
    laneWrites d.toNat l (loadWords n sg (s.numAt n x)) = loaded d n sg l (s.numAt n x) := by
  have hn : (n, sg) ∈ [(1,false),(1,true),(2,false),(2,true),(4,false),(8,false),(16,false)] := by
    cases i <;> simp [loadForm] at h <;> obtain ⟨-, -, -, rfl, rfl⟩ := h <;> simp
  refine ⟨loadRegs_eq d n ?_, laneWrites_eq d n sg l _ hn ?_⟩
  · simp only [List.mem_cons, Prod.mk.injEq, List.not_mem_nil, or_false] at hn ⊢; omega
  · have : s.numAt n x < 256 ^ n := by
      cases x with
      | error _ => simp only [State.numAt]; exact Nat.pow_pos (by decide)
      | ok lc => cases lc with
        | here k => exact Bytes.num_lt _ _ _
        | away _ _ => simp only [State.numAt]; exact Nat.pow_pos (by decide)
    rwa [show (256 : Nat) = 2 ^ 8 from rfl, ← Nat.pow_mul] at this
/-- The checks of an address see the state and the group as they were before the issue. -/
theorem checkAddr_start (s : State) (q : Turn) (l a n m : Nat) (k : AKind) :
    (q.start s).checkAddr (q.g.unwait q.lanes) l a n m k = s.checkAddr q.g l a n m k := rfl
theorem checkLoad_start (s : State) (q : Turn) (l a n : Nat) :
    (q.start s).checkLoad (q.g.unwait q.lanes) l a n = s.checkLoad q.g l a n := rfl
theorem checkAtom_start (s : State) (q : Turn) (l a n : Nat) :
    (q.start s).checkAtom (q.g.unwait q.lanes) l a n = s.checkAtom q.g l a n := rfl
theorem start_group (s : State) (q : Turn) : (q.start s).groups.get? q.gid = some (q.g.unwait q.lanes) := State.get?_setGroup _ _ _

/-! ## Stores, atomics and reductions of this part's memory -/

theorem Memory.write_byte (s : State) (k n w : Nat) : (s.writeMem k n w).byte = Bytes.stored s.byte k n w := State.byte_writeMem_stored s k n w

/-- What a store to this part's memory does. -/
structure State.Wrote (s t : State) (m : Bytes) : Prop where
  groups : t.groups = s.groups
  rest : ∀ gid, s.SameBut t gid
  byte : t.byte = m
  fab : t.fab = s.fab

theorem State.Quiet.wrote {s t : State} (h : s.Quiet t) : s.Wrote t s.byte :=
  ⟨h.groups, h.sameBut, funext h.byte, h.fab⟩
theorem State.wrote_writeMem (s : State) (k n w : Nat) : s.Wrote (s.writeMem k n w) (Bytes.stored s.byte k n w) :=
  ⟨rfl, fun _ => ⟨fun _ _ => rfl, rfl, rfl, rfl, rfl, rfl, rfl, rfl, fun _ _ _ => rfl⟩, State.byte_writeMem_stored s k n w, rfl⟩
theorem State.wrote_reduceAt (s : State) (k n w : Nat) : s.Wrote (s.reduceAt k n w) (Bytes.stored s.byte k n w) := by
  have q := s.quiet_combine k n
  refine ⟨q.groups, fun g => ⟨fun j _ => by rw [State.reduceAt_groups], q.teams, q.grids, q.eng, q.spire, q.ctrl, q.fw, q.disp, q.regs⟩, ?_, q.fab⟩
  funext j
  have hc : (s.combine k n).mem.get j = s.mem.get j := q.byte j
  simp only [State.byte, State.reduceAt, Memory.write, Memory.get_putBytes, length_toLe, hc, Bytes.stored, within]
  split
  · rw [getD_toLe]; omega
  · rfl
theorem State.Wrote.trans {s t u : State} {m m' : Bytes} (a : s.Wrote t m) (b : t.Wrote u m') : s.Wrote u m' :=
  ⟨b.groups.trans a.groups, fun g => (a.rest g).trans (b.rest g), b.byte, b.fab.trans a.fab⟩

theorem State.quiet_markDirty (s : State) (b : Acc) (a k : Nat) : s.Quiet (s.markDirty b a k) := by
  simp only [State.markDirty]
  split
  · exact s.quiet_mmu _
  · exact State.Quiet.refl s

/-- Keeping a written word for the monitors changes nothing else. -/
theorem State.quiet_noteWord (s : State) (k : Nat) : s.Quiet (s.noteWord k) := s.quiet_msys _

theorem ICtx.storeLane_here (c : ICtx) (n : Nat) (s : State) (l a k x : Nat) :
    s.Wrote (c.storeLane n s (l, a, .here k, x)) (Bytes.stored s.byte k n x) := by
  have h := (((s.quiet_access c.g a n (.here k) true).trans (State.quiet_markDirty _ (s.accOf c.g) a k)).trans
    (State.quiet_combine _ k n)).wrote
  have h2 := h.trans (State.wrote_writeMem _ k n x)
  rw [h.byte] at h2
  exact h2

theorem State.ctlN_of_regs {s t : State} {gid : Nat} (h : s.SameBut t gid) {r : CtlReg} (hr : r.tally = false) (u : Nat) :
    t.ctlN r u = s.ctlN r u := by simp only [State.ctlN, h.regs r u hr]

theorem State.goEntry_congr {s t : State} {gid : Nat} (h : s.SameBut t gid) (l : Loc) (n : Nat) : t.goEntry l n = s.goEntry l n := by
  cases l with
  | away _ _ => rfl
  | here k =>
    simp only [State.goEntry]
    simp only [State.ctlN_of_regs h (r := .fabGrpCtl) rfl, State.ctlN_of_regs h (r := .fabGrpWin) rfl]

/-- An entry of a path's stores whose location is this part's. -/
def storeHere (q : Nat × Nat × Nat × Nat) : Nat × Nat × Loc × Nat := (q.1, q.2.1, .here q.2.2.1, q.2.2.2)

/-- What the stores of the lanes of a path do, where no GO word is stored to: those whose location no higher lane names write. -/
theorem ICtx.storeLanes_spec (c : ICtx) (n : Nat) (all : List (Nat × Nat × Loc × Nat)) (xs : List (Nat × Nat × Nat × Nat)) (s : State)
    (m : Mask) (es : List Nat) (h : ∀ q ∈ xs, s.goEntry (.here q.2.2.1) n = none) :
    ∃ t, (xs.map storeHere).foldl (c.storeStep n all) (s, m, es) = (t, m, es) ∧
      s.Wrote t (Bytes.storedAll s.byte n ((xs.filter (fun q => !overwritten all (storeHere q))).map (fun q => (q.2.2.1, q.2.2.2)))) := by
  induction xs generalizing s with
  | nil => exact ⟨s, rfl, (State.Quiet.refl s).wrote⟩
  | cons q t ih =>
    obtain ⟨l, a, k, x⟩ := q
    have h0 := h _ (List.mem_cons_self ..)
    by_cases ho : overwritten all (storeHere (l, a, k, x)) = true
    · have hq := s.quiet_touch c.g a
      obtain ⟨u, hu, hwu⟩ := ih (s.touch c.g a) (fun q hq' => by
        rw [State.goEntry_congr (hq.sameBut 0)]; exact h q (List.mem_cons_of_mem _ hq'))
      refine ⟨u, ?_, ?_⟩
      · simp only [storeHere] at ho
        simp only [List.map_cons, List.foldl_cons, ICtx.storeStep, storeHere, State.goBusy, h0, Option.filter, ho, if_true]
        exact hu
      · have := hq.wrote.trans hwu
        rw [hq.wrote.byte] at this
        rw [List.filter_cons_of_neg (by simp [ho])]
        exact this
    have ho' : overwritten all (l, a, .here k, x) = false := Bool.eq_false_iff.2 ho
    have hw := c.storeLane_here n s l a k x
    have hg : (c.storeLane n s (l, a, .here k, x)).goEntry (.here k) n = none := by
      rw [State.goEntry_congr (hw.rest 0)]; exact h0
    obtain ⟨u, hu, hwu⟩ := ih (c.storeLane n s (l, a, .here k, x)) (fun q hq => by
      rw [State.goEntry_congr (hw.rest 0)]; exact h q (List.mem_cons_of_mem _ hq))
    refine ⟨u, ?_, ?_⟩
    · simp only [List.map_cons, List.foldl_cons, ICtx.storeStep, storeHere, State.goBusy, h0, Option.filter, ho', Bool.false_eq_true, if_false,
        State.goStored, hg]
      exact hu
    · have := hw.trans hwu
      rw [hw.byte] at this
      rw [List.filter_cons_of_pos (by simp [ho])]
      exact this

/-- A pending result joins a group, and a number is taken for it. -/
theorem State.addPendId {s : State} {gid : Nat} {g : Group} (h : s.groups.get? gid = some g) (p : Pend) :
    let t := (s.modGroup gid (fun g => { g with pend := g.pend ++ [p] })).useIds 1
    t.groups.get? gid = some { g with pend := g.pend ++ [p] } ∧ s.SameBut t gid ∧ t.mem = s.mem ∧ t.fab = s.fab :=
  have a := State.addPend h p
  ⟨a.1, a.2.1.trans ((State.quiet_useIds _ 1).sameBut _), a.2.2⟩

/-- One lane's atomic on this part's memory. -/
theorem ICtx.atomLane_here (c : ICtx) (n d op : Nat) (f : Nat → Nat → Nat) (args : Nat → List Nat) (s : State) (l a k : Nat)
    {g : Group} (h : s.groups.get? c.gid = some g) :
    ∃ p : Pend, (c.atomLane n d op f args s (l, a, .here k)).groups.get? c.gid = some { g with pend := g.pend ++ [p] } ∧
      s.SameBut (c.atomLane n d op f args s (l, a, .here k)) c.gid ∧
      (c.atomLane n d op f args s (l, a, .here k)).byte =
        (if f l (Bytes.num s.byte k n) = Bytes.num s.byte k n then s.byte else Bytes.stored s.byte k n (f l (Bytes.num s.byte k n))) ∧
      p.seen = (c.pc, laneBit l, loadRegs d n, laneWrites d l (loadWords n false (Bytes.num s.byte k n)), none) ∧ p.bad = [] ∧
      (c.atomLane n d op f args s (l, a, .here k)).fab = s.fab := by
  generalize hs1 : ((s.useIds 1).accessBy (s.accOf c.g) c.g a n (.here k) true (some s.freshId)).combine k n = s1
  have q1 : s.Quiet s1 := by
    rw [← hs1]; exact ((s.quiet_useIds 1).trans (State.quiet_accessBy _ _ _ _ _ _ _ _)).trans (State.quiet_combine _ k n)
  have ho : s1.readMem k n = Bytes.num s.byte k n := by rw [State.readMem_eq, funext q1.byte]
  simp only [ICtx.atomLane, hs1, ho]
  split
  · have hp := State.addPend (s := s1) (by rw [q1.groups]; exact h)
    exact ⟨_, (hp _).1, (q1.sameBut _).trans (hp _).2.1, funext (fun j => q1.byte j), rfl, rfl, ((hp _).2.2.2).trans q1.fab⟩
  · have hw := (q1.wrote.trans (State.wrote_writeMem s1 k n (f l (Bytes.num s.byte k n)))).trans (State.quiet_noteWord _ k).wrote
    rw [show ((s1.writeMem k n (f l (Bytes.num s.byte k n)))).byte = Bytes.stored s.byte k n (f l (Bytes.num s.byte k n)) by
      rw [Memory.write_byte, q1.wrote.byte]] at hw
    have hp := State.addPend (s := (s1.writeMem k n (f l (Bytes.num s.byte k n))).noteWord k) (by rw [hw.groups]; exact h)
    exact ⟨_, (hp _).1, (hw.rest _).trans (hp _).2.1, hw.byte, rfl, rfl, ((hp _).2.2.2).trans hw.fab⟩

theorem Bytes.num_succ (m : Bytes) (k n : Nat) : Bytes.num m k (n + 1) = Bytes.num m k n + (m (k + 4 * n)).toNat * 256 ^ n := by
  simp [Bytes.num, List.range_succ]

/-- A byte of the number in memory. -/
theorem Bytes.num_byte (m : Bytes) (k n i : Nat) (h : i < n) : Bytes.num m k n / 256 ^ i % 256 = (m (k + 4 * i)).toNat := by
  induction n with
  | zero => omega
  | succ n ih =>
    rw [Bytes.num_succ]
    have hl := Bytes.num_lt m k n
    have hp : 0 < 256 ^ i := Nat.pow_pos (by decide)
    have hb := (m (k + 4 * n)).isLt
    by_cases e : i = n
    · subst e
      rw [Nat.add_mul_div_right _ _ hp, Nat.div_eq_of_lt hl, Nat.zero_add]
      exact Nat.mod_eq_of_lt hb
    · rw [← ih (by omega)]
      have : ∃ j, n = i + (j + 1) := ⟨n - i - 1, by omega⟩
      obtain ⟨j, rfl⟩ := this
      have e2 : (m (k + 4 * (i + (j + 1)))).toNat * 256 ^ (i + (j + 1)) = (m (k + 4 * (i + (j + 1)))).toNat * 256 ^ j * 256 * 256 ^ i := by
        rw [Nat.pow_add, Nat.pow_succ]; simp only [Nat.mul_comm, Nat.mul_left_comm]
      rw [e2, Nat.add_mul_div_right _ _ hp, Nat.add_mul_mod_self_right]

/-- Storing what is there changes nothing. -/
theorem Bytes.stored_self (m : Bytes) (k n : Nat) : Bytes.stored m k n (Bytes.num m k n) = m := by
  funext j
  simp only [Bytes.stored]
  split
  · rename_i h
    obtain ⟨h1, h2, h3⟩ := h
    apply BitVec.eq_of_toNat_eq
    have := Bytes.num_byte m k n (j / 4 - k / 4) (by omega)
    rw [BitVec.toNat_ofNat, show (2 ^ 8 : Nat) = 256 from rfl, this]
    congr 2; omega
  · rfl

/-- What the atomics of the lanes of a path do. -/
theorem ICtx.atomLanes_spec (c : ICtx) (n d op : Nat) (f : Nat → Nat → Nat) (args : Nat → List Nat) (xs : List (Nat × Nat × Nat)) (s : State)
    {g : Group} (h : s.groups.get? c.gid = some g) :
    ∃ items : List Pend,
      ((xs.map (fun q => (q.1, q.2.1, Loc.here q.2.2))).foldl (c.atomLane n d op f args) s).groups.get? c.gid =
        some { g with pend := g.pend ++ items } ∧
      s.SameBut ((xs.map (fun q => (q.1, q.2.1, Loc.here q.2.2))).foldl (c.atomLane n d op f args) s) c.gid ∧
      ((xs.map (fun q => (q.1, q.2.1, Loc.here q.2.2))).foldl (c.atomLane n d op f args) s).byte =
        Bytes.changedAll s.byte n f (xs.map (fun q => (q.1, q.2.2))) ∧
      items.map Pend.seen = ((xs.map (·.1)).zip (Bytes.found s.byte n f (xs.map (fun q => (q.1, q.2.2))))).map (fun q =>
        (c.pc, laneBit q.1, loadRegs d n, laneWrites d q.1 (loadWords n false q.2), none)) ∧
      (∀ p ∈ items, p.bad = []) ∧
      ((xs.map (fun q => (q.1, q.2.1, Loc.here q.2.2))).foldl (c.atomLane n d op f args) s).fab = s.fab := by
  induction xs generalizing s g with
  | nil => exact ⟨[], by simpa using h, .refl _ _, rfl, rfl, by simp, rfl⟩
  | cons q t ih =>
    obtain ⟨l, a, k⟩ := q
    obtain ⟨p, hp, hs, hm, hv, hb, hf⟩ := c.atomLane_here n d op f args s l a k h
    obtain ⟨items, ht, hs', hm', hv', hb', hf'⟩ := ih _ hp
    have hm2 : (c.atomLane n d op f args s (l, a, .here k)).byte = Bytes.stored s.byte k n (f l (Bytes.num s.byte k n)) := by
      rw [hm]; split
      · rename_i e; rw [e, Bytes.stored_self]
      · rfl
    refine ⟨p :: items, by simpa using ht, hs.trans hs', ?_, ?_, ?_, hf'.trans hf⟩
    · rw [List.map_cons, List.foldl_cons, hm', hm2]; rfl
    · rw [List.map_cons, hv, hv', hm2]; rfl
    · intro x hx
      rcases List.mem_cons.1 hx with rfl | hx
      · exact hb
      · exact hb' x hx

/-- What the exact reductions of the lanes of a path do. -/
theorem ICtx.redLanes_spec (c : ICtx) (n d op : Nat) (f : Nat → Nat → Nat) (xs : List (Nat × Nat × Nat)) (s : State) :
    s.Wrote ((xs.map (fun q => (q.1, q.2.1, Loc.here q.2.2))).foldl (c.redLane n d op (redExact n f)) s)
      (Bytes.changedAll s.byte n (fun l o => f o (c.g.operand d l n)) (xs.map (fun q => (q.1, q.2.2)))) := by
  induction xs generalizing s with
  | nil => exact (State.Quiet.refl s).wrote
  | cons q t ih =>
    obtain ⟨l, a, k⟩ := q
    have q1 := (s.quiet_access c.g a n (.here k) true).wrote
    have hw : s.Wrote (c.redLane n d op (redExact n f) s (l, a, .here k))
        (Bytes.stored s.byte k n (f (Bytes.num s.byte k n) (c.g.operand d l n))) := by
      have := (q1.trans (State.wrote_reduceAt (s.access c.g a n (.here k) true) k n
        (f ((s.access c.g a n (.here k) true).readMem k n) (c.g.operand d l n)))).trans (State.quiet_noteWord _ k).wrote
      rw [(State.wrote_reduceAt _ _ _ _).byte, State.readMem_eq, q1.byte] at this
      simp only [ICtx.redLane, redExact, State.readMem_eq, q1.byte]
      exact this
    have := hw.trans (ih (c.redLane n d op (redExact n f) s (l, a, .here k)))
    rw [hw.byte] at this
    exact this

/-- The registers that hold `n` bytes, summed. -/
theorem sumRegs (f : Nat → Nat) (n : Nat) (h : n ∈ [1, 2, 4, 8, 16]) :
    (List.range ((n + 3) / 4)).foldl (fun x j => x + f j) 0 = ((List.range 4).map (fun j => if 4 * j < n then f j else 0)).sum := by
  have e4 : List.range 4 = [0, 1, 2, 3] := by decide
  simp only [List.mem_cons, List.not_mem_nil, or_false] at h
  rcases h with rfl | rfl | rfl | rfl | rfl <;> rw [e4] <;>
    simp [List.range, List.range.loop, Nat.add_assoc]

/-- The data of a store, an atomic or a reduction. -/
theorem storeData_eq (q : Turn) (d : BitVec 7) (n l : Nat) (h : n ∈ [1, 2, 4, 8, 16]) : q.g.storeData d.toNat l n = q.data d n l := by
  simp only [Group.storeData, Turn.data, sumRegs (fun j => (q.g.vget (d.toNat + j) l).toNat * 2 ^ (32 * j)) n h]

/-- The group after the path goes on. -/
theorem advance_group (q : Turn) (i : Instr) {t : State} {h : Group} (hg : t.groups.get? q.gid = some h) :
    ((q.ctx i).advance t).groups.get? q.gid = some (h.setPc q.lanes (q.pc + i.size)) := Store.get?_modify_self _ _ _ hg

end Sys2Proof.Machine
end

