-- ==== Sys2Proof/Tests/Slice0.lean ====
section
/-! SUPPORT. Small tests: ill-formed terms, words that the spec writes out, values that the spec works out, and for every statement with
hypotheses a state and operands that meet them. -/
namespace Sys2Proof.Tests
open Sys2Proof Sys2Proof.Machine
set_option Elab.async false

/-! ## Ill-formed terms, one for each check (15 R267, R271, R272, R276 to R278; 08 R161) -/

theorem test_wf_guard : (Instr.add 5 6 7 8).wf = false ∧ (Instr.exit 8).wf = false ∧ (Instr.badge 5 3 8).wf = false ∧
    (Instr.bra 1 8).wf = false ∧ (Instr.add 5 6 7 9).wf = true := by decide +kernel
theorem test_wf_mov16 : (Instr.mov16 0 0).wf = false ∧ (Instr.mov16 1 0).wf = true ∧ (Instr.mov16 0 1).wf = true := by decide +kernel
theorem test_wf_cmp : (Instr.cmp 1 2 3 10 0).wf = false ∧ (Instr.cmp 1 2 3 9 0).wf = true := by decide +kernel
theorem test_wf_fcmp : (Instr.fcmp 1 2 3 7 0).wf = false ∧ (Instr.fcmp 1 2 3 15 0).wf = false ∧ (Instr.fcmp 1 2 3 14 0).wf = true := by decide +kernel
theorem test_wf_fence : (Instr.fence 7 0).wf = false ∧ (Instr.fence 6 0).wf = true := by decide +kernel
theorem test_wf_bar : (Instr.bar 1 4).wf = false ∧ (Instr.bararr 2 7).wf = false ∧ (Instr.barwt 3 5).wf = false ∧
    (Instr.bar 0 7).wf = true ∧ (Instr.bar 3 3).wf = true := by decide +kernel
theorem test_wf_role : (Instr.role 0).wf = false ∧ (Instr.role 3).wf = true := by decide +kernel
theorem test_wf_sysr : (Instr.sysr 5 0 0).wf = false ∧ (Instr.sysr 5 0x14 0).wf = false ∧ (Instr.sysr 5 0x13 0).wf = true ∧
    (Instr.sysrV 5 0x13 0).wf = false ∧ (Instr.sysrV 5 0x12 0).wf = true ∧ (Instr.sysw 7 0x10 0).wf = false ∧
    (Instr.sysw 7 0x12 0).wf = true := by decide +kernel

/-! ## Words that the spec writes out (15 R270 and the chapters of each form) -/

theorem test_decode_alu : decodeTableWord 32 0x0E182803 = some (.add 5 6 7 0) ∧ decodeTableWord 32 0x0A10189D = some (.sel 3 4 5 1) ∧
    decodeTableWord 32 0x080C101F = some (.shfl 2 3 4 0) := by decide +kernel
theorem test_decode_float : decodeTableWord 16 0x4896 = some (.fadd16 4 9) ∧ decodeTableWord 32 0x0E182831 = some (.fadd 5 6 7 0) ∧
    decodeTableWord 32 0x08138849 = some (.fcmp 1 4 4 14 0) ∧ decodeTableWord 32 0x0404183D = some (.fdiv 3 1 2 0) := by decide +kernel
theorem test_decode_packed : decodeTableWord 32 0x04041837 = some (.ffma 3 1 2 0) ∧ decodeTableWord 32 0x0E182841 = some (.hadd2 5 6 7 0) ∧
    decodeTableWord 32 0x04041845 = some (.hfma2 3 1 2 0) := by decide +kernel
theorem test_decode_unary : decodeTableWord 32 0x080C1079 = some (.clz 2 3 0) ∧ decodeTableWord 32 0x48142079 = some (.cvt 4 5 4 0) ∧
    decodeTableWord 32 0x240C1079 = some (.frndRne 2 3 0) ∧ decodeTableWord 32 0x1A182879 = some (.fsqrt 5 6 0) ∧
    decodeTableWord 32 0x0CFC1079 = some (.movs 2 63 0) ∧ decodeTableWord 32 0x0EFC1879 = some (.movsHi 3 63 0) ∧
    decodeTableWord 32 0x101C1879 = some (.rdlane 3 7 0) ∧ decodeTableWord 32 0x62182079 = some (.rzadd 4 6 0) ∧
    decodeTableWord 32 0x60102879 = some (.rzcvt 5 4 0) := by decide +kernel
theorem test_decode_lanes : decodeTableWord 32 0x040C287B = some (.badge 5 3 0) ∧ decodeTableWord 32 0x0008087B = some (.vsome 1 2 0) ∧
    decodeTableWord 32 0x1408087B = some (.pand 1 2 0) ∧ decodeTableWord 32 0x1000287B = some (.ppack 5 0) ∧
    decodeTableWord 32 0x1214007B = some (.punpack 5 0) ∧ decodeTableWord 32 0x2210107B = some (.sptest 2 4 1 0) ∧
    decodeTableWord 32 0x300C307B = some (.spcastScrgen 6 3 0) := by decide +kernel
theorem test_decode_memory : decodeTableWord 32 0x3418207B = some (.lda 4 6 0) ∧ decodeTableWord 32 0x3610007B = some (.pref 4 0) ∧
    decodeTableWord 32 0x3A18007B = some (.cflush 6 0) ∧ decodeTableWord 32 0x4018407B = some (.atomAdd 8 6 0 0) ∧
    decodeTableWord 32 0x5210507B = some (.atomMaxU 10 4 1 0) ∧ decodeTableWord 32 0x6418207B = some (.atomcas 4 6 0 0) ∧
    decodeTableWord 32 0x6608407B = some (.atomcas 8 2 1 0) ∧ decodeTableWord 32 0x7018407B = some (.redAdd32 8 6 0) ∧
    decodeTableWord 32 0x7410507B = some (.redMaxU64 10 4 0) := by decide +kernel
theorem test_decode_branches : decodeTableWord 32 0x000044ED = some (.bra 8 9) ∧ decodeTableWord 32 0xFFFFD1ED = some (.bra (-6) 3) ∧
    decodeTableWord 32 0x300000FD = some (.exit 1) ∧ decodeTableWord 32 0x3200017D = some (.ret 2) ∧
    decodeTableWord 32 0x3430007D = some (.brx 12 0) ∧ decodeTableWord 32 0x3630007D = some (.callx 12 0) ∧
    decodeTableWord 32 0x3E00497D = some (.trap 9 2) ∧ decodeTableWord 16 0 = some .nop := by decide +kernel
theorem test_decode_sync : decodeTableWord 32 0x1600007D = some (.bar 3 0) ∧ decodeTableWord 32 0x1C04107D = some (.rarrive 1 2) ∧
    decodeTableWord 32 0x2824207D = some (.chwait 4 9 0) ∧ decodeTableWord 32 0x2200287D = some (.mwait 5 0) := by decide +kernel
theorem test_decode_copies : decodeTableWord 32 0x5024007D = some (.bcopy 9 0) ∧ decodeTableWord 32 0x5224007D = some (.bcast 9 0) := by decide +kernel
theorem test_decode_matrix : decodeTableWord 32 0x6024207D = some (.mxissue 4 9 0 0) ∧ decodeTableWord 32 0x6C24007D = some (.mxdrain 9 0) ∧
    decodeTableWord 32 0x708C807D = some (.mxrd 16 2 3 0) ∧ decodeTableWord 32 0x7C28207D = some (.ringget 4 1 2 0) ∧
    decodeTableWord 32 0x7A48307D = some (.ringput 6 2 2 0) := by decide +kernel
theorem test_decode_launches : decodeTableWord 32 0x0024287F = some (.launch 5 9 0) ∧ decodeTableWord 32 0x0424287F = some (.tspawn 5 9 0) ∧
    decodeTableWord 32 0x0624087F = some (.twait 1 9 0) ∧ decodeTableWord 32 0x0628507F = some (.twaitLock 2 10 0) ∧
    decodeTableWord 32 0x0824087F = some (.cancelKill 9 0) := by decide +kernel
theorem test_decode_rays : decodeTableWord 32 0x1041407F = some (.trace 40 16 0) ∧ decodeTableWord 32 0x1204A07F = some (.callret 20 1 0) ∧
    decodeTableWord 32 0x1430A07F = some (.repack 20 12) ∧ decodeTableWord 32 0x1624287F = some (.treelock 5 9 0) ∧
    decodeTableWord 32 0x1824307F = some (.treepub 6 9 0) := by decide +kernel
theorem test_decode_system : decodeTableWord 32 0x2210607F = some (.lfetchTri 12 4 0) ∧ decodeTableWord 32 0x2420A07F = some (.hgrid 20 8 0) ∧
    decodeTableWord 32 0x3018287F = some (.sysr 5 6 0) ∧ decodeTableWord 32 0x3002187F = some (.sysrV 3 0 0) ∧
    decodeTableWord 32 0x323C387F = some (.sysw 7 0x0F 0) ∧ decodeTableWord 32 0x3400A07F = some (.rdtime 20 0) := by decide +kernel

/-! ## Values that the spec works out -/

/-- Lane 5 of group 2 of team 37 loads at PC 0x1A4 from an address whose level-3 entry has V = 0 (12 R217). -/
theorem test_fault_record : FRec.words (FRec.mk 7 0 5 2 37 0x00A0000000000013 0x00007F3AC1234560 0x1A4 (pfDetail 1 3)) =
    [0x0000000000254507, 0x00A0000000000013, 0x00007F3AC1234560, 0x00000301000001A4] := by decide +kernel
/-- 03 R59 to R62. -/
theorem test_residues : rzOf (-3) = 0x0000FFFEFFFDFFFC ∧ rzAdd 0x0000BDD0BDC0BDB0 0x0000425642654274 = 0x0000002500250025 ∧
    ofInt (rzInt 0x0000002500250025) = 0x42140000 ∧ ofInt 16777217 = 0x4B800000 := by decide +kernel
/-- 1.0 and 65,504, with 2^-11 and 16 added, in each rounding mode (24 R343). -/
theorem test_hadd2 :
    let h (m : RM) (k : Nat) (a b : W32) := fadd .f16 m (unpack .f16 (a.toNat / 2 ^ (16 * k) % 65536)) (unpack .f16 (b.toNat / 2 ^ (16 * k) % 65536))
    let both (m : RM) : W32 := BitVec.ofNat 32 (h m 0 0x7BFF3C00 0x4C001000 + 65536 * h m 1 0x7BFF3C00 0x4C001000)
    both .rne = 0x7C003C00 ∧ both .rtz = 0x7BFF3C00 ∧ both .rup = 0x7C003C01 ∧ both .rdn = 0x7BFF3C00 := by decide +kernel
/-- The ray from (0, 0, 0) along (0, 0, 1) and triangle 7 (10 R193). -/
theorem test_triangle : triTest { o := [0, 0, 0], d := [0, 0, 0x3F800000], inst := 0xFFFFFFFF, off := 0 } 0
    [0xBF800000, 0xBF800000, 0x40000000, 0x3F800000, 0xBF800000, 0x40000000, 0xBF800000, 0x3F800000, 0x40000000] =
    some (0x40000000, 0x3F000000, 0x3F000000, true) := by decide +kernel

/-- Equality of results is decided by cases. -/
def exDec {ε α : Type} [DecidableEq ε] [DecidableEq α] : DecidableEq (Except ε α)
  | .ok a, .ok b => decidable_of_iff (a = b) ⟨congrArg _, fun h => by cases h; rfl⟩
  | .error a, .error b => decidable_of_iff (a = b) ⟨congrArg _, fun h => by cases h; rfl⟩
  | .ok _, .error _ => isFalse nofun
  | .error _, .ok _ => isFalse nofun

theorem yes {P : Prop} (i : Decidable P) (h : @decide P i = true) : P := of_decide_eq_true h

/-! ## A small world: one grid, one team, one group on core 0 -/

/-- Memory that lists numbers that do not overlap: key, bytes, value. -/
def filled (l : List (Nat × Nat × Nat)) : Memory := { State.reset.mem with
  cells := (sortBy (·.1) l).flatMap (fun q => (List.range q.2.1).filterMap (fun i =>
    let b : Byte := BitVec.ofNat 8 (q.2.2 / 256 ^ i)
    if Memory.reset? (q.1 + 4 * i) = some b then none else some (q.1 + 4 * i, b))) }
/-- A grid of one team, whose code starts at 0x20000, whose completion word is at 0x10000 and whose fault area at 0x11000. -/
def grid : Grid := { noGrid with r := { noGrid.r with
  budC := 64
  scr := 4096
  tiles := 4
  priv := 4096
  stack := 256
  codeBase := 0x20000
  cw := 0x10000
  fa := 0x11000 } }
/-- Its team. -/
def team : Team := { noTeam with
  grid := 1
  scr := 4096
  scrId := 2
  tiles := 4
  tileId := 3
  groups := 1 }
/-- Its group: all lanes live at PC 0, registers 0. -/
def group : Group := newGroup .team 1 grid 1 0 0 0 .compute 64 0 0 5
/-- The group with vector registers: register, lane, value. -/
def Vs (l : List (Nat × Nat × W32)) (g : Group) : Group := l.foldl (fun h x => { h with v := Store.put h.v (x.1 * 32 + x.2.1) x.2.2 0 }) g
/-- The group with scalar registers. -/
def Ss (l : List (Nat × W64)) (g : Group) : Group := l.foldl (fun h x => h.sset x.1 x.2) g
/-- A page that a grid (or an owner) holds: its virtual page, and the frame that maps it, readable, writable and executable. -/
def page (owner va pa : Nat) : Held :=
  { part := 0, ctx := 0, asid := 0, page := va, leaf := { pte := 0xFFF0000000000207 + 4096 * pa, level := 4, base := 4096 * va, size := 4096 }, task := false,
    owner := owner }
/-- The world: the group issues its instruction at PC 0 with all live lanes. Pages 0x10 to 0x27 are held by the grid, each at itself. -/
def world (g : Group) (m : List (Nat × Nat × Nat)) : State := { State.reset with
  cur := some { gid := 1, pc := 0, lanes := g.live, wait := 0 }
  groups := [(1, g)]
  teams := [(1, team)]
  grids := [(1, grid)]
  mem := filled m
  mmu := { State.reset.mmu with held := (List.range 24).map (fun i => page 1 (16 + i) (16 + i)) }
  env := { State.reset.env with
    cycle := 1000000
    fresh := 10 } }
/-- The path that issues in it. -/
def turn (g : Group) : Turn := { gid := 1, g := g, pc := 0, lanes := g.live }
/-- The decidable content of State.Issues. -/
def issuesB (s : State) (q : Turn) (i : Instr) : Bool :=
  decide (s.cur = some { gid := q.gid, pc := q.pc, lanes := q.lanes, wait := 0 }) && decide (s.groups.get? q.gid = some q.g) && decide (q.lanes ≠ 0) &&
  decide (q.lanes &&& q.g.live = q.lanes) && i.wf && decide (regsFail q.g.budget (s.tilesFor q) (regsOf i) = none) &&
  (readCodes i).all (fun r => decide (r ∉ q.g.poison))
theorem issues_of {s : State} {q : Turn} {i : Instr} (h : issuesB s q i = true) : s.Issues q i := by
  simp only [issuesB, Bool.and_eq_true, decide_eq_true_eq, List.all_eq_true] at h
  exact { cur := h.1.1.1.1.1.1, group := h.1.1.1.1.1.2, some_lane := h.1.1.1.1.2, live := h.1.1.1.2, fields := h.1.1.2, regs := h.1.2,
          clean := h.2 }
/-- A path of a lane that takes part. -/
theorem acts_of {q : Turn} {i : Instr} (h : (List.range 32).any (fun l => q.takes i l) = true) : q.acts i := by
  simp only [List.any_eq_true, List.mem_range] at h
  exact h

/-- The instruction issues in the world, and some lane takes part. -/
def Ok (s : State) (q : Turn) (i : Instr) : Prop := s.Issues q i ∧ q.acts i
theorem ok_of {s : State} {q : Turn} {i : Instr} (h : (issuesB s q i && (List.range 32).any (fun l => q.takes i l)) = true) : Ok s q i := by
  rw [Bool.and_eq_true] at h
  exact ⟨issues_of h.1, acts_of h.2⟩

theorem performed_of {q : Turn} {i : Instr} {pod : Prop} (h : q.g.pend = []) (k : q.g.unacked = []) : q.Performed i pod := by
  simp [Turn.Performed, h, k]

/-- Lanes that wait at a PC for a reason, with nothing remembered. -/
def aWait (pc : Nat) (lanes : Mask) (why : Why) (i : Instr) : Wait :=
  { pc := pc, lanes := lanes, why := why, since := 0, seq := 7, i := i, snap := [], found := [], plans := [], tried := [], met := false }

/-- Lane 0 alone is live. -/
def one (g : Group) : Group := { g with live := 1 }

theorem wit_wide : (world group []).Issues (turn group) (.add 5 6 7 0) := issues_of (by decide +kernel)
/-- The outcome is a next state. -/
def goesOn : Host.Outcome State Fault Refusal → Bool | .next _ => true | _ => false
theorem next_of {o : Host.Outcome State Fault Refusal} (h : goesOn o = true) : ∃ t, o = .next t := by
  cases o <;> simp_all [goesOn]
theorem wit_StepKeepsMemoryCanonical : ∃ s t : State, s.mem.wf = true ∧ step s = .next t :=
  ⟨State.reset, (next_of (by decide +kernel)).imp fun _ h => ⟨by decide +kernel, h⟩⟩

/-! ## Every statement's hypotheses can be met: encoding, the step, the checks, faults -/

theorem wit_RoundTrip : (Instr.add 5 6 7 0).wf = true ∧ encode (.add 5 6 7 0) = some 0x0E182803 := by decide +kernel
theorem wit_OnlyEncodingsDecode : ∃ bs rest i, decode bs = .ok (i, rest) := ⟨[0x03, 0x28, 0x18, 0x0E], [], .add 5 6 7 0, yes (by haveI := @exDec; infer_instance) (by decide +kernel)⟩
/-- A path that waits to issue the word at 0x20000. -/
def waiting (w : Nat) : State := { (world group [(physKey 0x20000, 4, w)]) with
  cur := none
  pendB := some { gid := 1, pc := 0, lanes := group.live, wait := 0 } }
theorem wit_StepIssuesTheDecodedInstruction : ∃ (s : State) (p : Issue) (g : Group) (i : Instr) (w : Nat), s.pendB = some p ∧
    let s0 : State := { s.settled with pendB := none }
    s0.groups.get? p.gid = some g ∧ s0.mayIssue g = true ∧ s0.issueLanes p g ≠ 0 ∧ i.wf = true ∧ encode i = some w ∧
    s0.codeHalf g p.pc = .ok (w % 65536) ∧ i.size = 4 ∧ p.pc % 2 ^ 32 ≠ 0xFFFFFFFE ∧ s0.codeHalf g (p.pc + 2) = .ok (w / 65536) :=
  ⟨waiting 0x0E182803, { gid := 1, pc := 0, lanes := group.live, wait := 0 }, group, .add 5 6 7 0, 0x0E182803, yes (by haveI := @exDec; infer_instance) (by decide +kernel)⟩
/-- Two paths of equal size: the one at the lower PC issues first, the other second. -/
theorem wit_PathWithMostLanesIssues : ∃ (s s' : State) (gid : Nat) (g : Group) (paths : List (Nat × Mask)) (a : Issue),
    (∀ p ∈ paths, p.1 < 2 ^ 32) ∧ s.choosePaths gid g paths = (s', some a) ∧ s'.pendB ≠ none :=
  ⟨world group [], ((world group []).choosePaths 1 group [(8, 0xF), (4, 0xF0)]).1, 1, group, [(8, 0xF), (4, 0xF0)],
    { gid := 1, pc := 4, lanes := 0xF0, wait := 0 }, by decide +kernel⟩
theorem wit_PathWithMostLanesIssues_aged : ∃ (g : Group) (paths : List (Nat × Mask)) (apc : Nat),
    ∃ p ∈ paths, p.1 ≠ apc ∧ 2 ≤ g.passedOver p.1 :=
  ⟨{ group with paths := [{ pc := 8, passed := 2 }] }, [(8, 0xF), (4, 0xF0)], 4, (8, 0xF), by decide +kernel⟩
theorem wit_StarvedThenHighestPriorityGroup : ∃ (l m : List Cand) (c d : Cand),
    (∀ x ∈ l ++ m, x.prio < 2 ^ 16 ∧ x.g.yielded = none ∧ x.g.lastIssue < 2 ^ 64) ∧ (chooseGroup 100 l).map (·.gid) = some c.gid ∧
    (∃ x ∈ l, 48 ≤ 100 - x.g.lastIssue) ∧ (chooseGroup 100 m).map (·.gid) = some d.gid ∧ ∀ x ∈ m, 100 - x.g.lastIssue < 48 :=
  ⟨[{ gid := 1, g := group, prio := 3, paths := [(0, 1)] }], [{ gid := 2, g := { group with lastIssue := 80 }, prio := 3, paths := [(0, 1)] }],
    { gid := 1, g := group, prio := 3, paths := [(0, 1)] }, { gid := 2, g := group, prio := 3, paths := [(0, 1)] }, by decide +kernel⟩
theorem wit_BadFetchEndsTheGroup : ∃ (s t : State) (p : Issue) (g : Group) (f : FaultInfo) (h h2 : Nat),
    let s0 : State := { s.settled with pendB := none }
    let t0 : State := { t.settled with pendB := none }
    s.pendB = some p ∧ s0.groups.get? p.gid = some g ∧ s0.mayIssue g = true ∧ s0.issueLanes p g ≠ 0 ∧ s0.codeHalf g p.pc = .error f ∧
    t.pendB = some p ∧ t0.groups.get? p.gid = some g ∧ t0.mayIssue g = true ∧ t0.issueLanes p g ≠ 0 ∧
    t0.codeHalf g p.pc = .ok h ∧ h < 65536 ∧ h % 2 = 1 ∧ p.pc % 2 ^ 32 ≠ 0xFFFFFFFE ∧ t0.codeHalf g (p.pc + 2) = .ok h2 ∧ h2 < 65536 ∧ decodeTableWord 32 (h + 65536 * h2) = none :=
  ⟨{ (waiting 0) with mmu := State.reset.mmu, mem := filled [(0, 8, 0)] }, waiting 0x2F, { gid := 1, pc := 0, lanes := group.live, wait := 0 }, group,
    { code := 7, addr := 0x20000, detail := 0x001 }, 0x2F, 0, yes (by haveI := @exDec; infer_instance) (by decide +kernel)⟩
theorem wit_DueInputComes : ∃ (s : State) (i : Instr) (t : List (Nat × Instr)), s.settled.pendB = none ∧ s.settled.env.agenda = (0, i) :: t ∧
    ({ s.settled with cur := none } : State).inputHeld i = false :=
  ⟨{ State.reset with env := { State.reset.env with agenda := [(0, .linkUp 3)] } }, .linkUp 3, [], by decide +kernel⟩
theorem wit_path : (world group []).Path (turn group) := wit_wide.toPath
theorem wit_IllegalFieldsEndTheGroup : (Instr.add 5 6 7 8).wf = false ∧ ∃ w, encode (.add 5 6 7 8) = some w :=
  ⟨by decide +kernel, 0x0E182C03, by decide +kernel⟩
theorem wit_IllegalRegistersEndTheGroup : (Instr.add 64 6 7 0).wf = true ∧
    (regsFail group.budget ((world group []).tilesFor (turn group)) (regsOf (.add 64 6 7 0))).isSome = true ∧
    (regsFail group.budget ((world group []).tilesFor (turn group)) (regsOf (.mxzero 4 0))).isSome = true := by decide +kernel
theorem wit_PoisonedRegistersEndTheGroup :
    let g : Group := { group with poison := [6] }
    (world g []).Path (turn g) ∧ regsFail g.budget ((world g []).tilesFor (turn g)) (regsOf (.add 5 6 7 0)) = none ∧
    (turn g).acts (.add 5 6 7 0) ∧ wantsBaton (.add 5 6 7 0) = false ∧ ∃ r ∈ readCodes (.add 5 6 7 0), r ∈ g.poison :=
  ⟨{ cur := by decide +kernel, group := by decide +kernel, some_lane := by decide +kernel, live := by decide +kernel }, by decide +kernel,
    acts_of (by decide +kernel), rfl, 6, by decide +kernel⟩
/-- The guard p1 is poisoned. -/
theorem wit_PoisonedRegistersEndTheGroup_guard :
    let g : Group := { group with poison := [poisonP 1] }
    (world g []).Path (turn g) ∧ regsFail g.budget ((world g []).tilesFor (turn g)) (regsOf (.add 5 6 7 1)) = none ∧
    poisonP ((guardOf (.add 5 6 7 1)).toNat % 8) ∈ g.poison :=
  ⟨{ cur := by decide +kernel, group := by decide +kernel, some_lane := by decide +kernel, live := by decide +kernel }, by decide +kernel⟩
theorem wit_NoLaneNoEffect : (encode (.add 5 6 7 1)).isSome = true ∧ (world group []).Issues (turn group) (.add 5 6 7 1) ∧
    ¬ (turn group).acts (.add 5 6 7 1) :=
  ⟨by decide +kernel, issues_of (by decide +kernel), by unfold Turn.acts; decide +kernel⟩
theorem wit_FaultEndsTheGroup : ∃ (s : State) (g : Group) (gr : Grid) (t : Team), s.groups.get? 1 = some g ∧ g.kind = .team ∧
    s.grids.get? g.grid = some gr ∧ s.teams.get? g.team = some t ∧
    ¬ (s.busyUnit 1 true = true ∨ g.unacked ≠ [] ∨ ∃ p ∈ g.pend, p.atHome = true) :=
  ⟨world group [], group, grid, team, by decide +kernel⟩
theorem wit_FaultEndsTheGroup_busy : ∃ (s : State) (g : Group) (gr : Grid) (t : Team), s.groups.get? 1 = some g ∧ g.kind = .team ∧
    s.grids.get? g.grid = some gr ∧ s.teams.get? g.team = some t ∧ g.unacked ≠ [] :=
  ⟨world { group with unacked := [(0, 0, 3)] } [], { group with unacked := [(0, 0, 3)] }, grid, team, by decide +kernel⟩

/-! ## Register forms -/

theorem wit_IntegerVectorResults : ∃ (s : State) (q : Turn) (i : Instr) (w : VWrite), intWrite i = some w ∧ s.Issues q i :=
  ⟨_, _, .add 5 6 7 0, _, rfl, wit_wide⟩
theorem wit_CrossLaneResults : ∃ (s : State) (q : Turn) (i : Instr) (w : VWrite), laneWrite i = some w ∧ s.Issues q i ∧ q.g.core < 256 :=
  ⟨world group [], turn group, .shfl 5 6 7 0, _, rfl, issues_of (by decide +kernel), by decide +kernel⟩
theorem wit_LaneReadIsPending : Ok (world group []) (turn group) (.rdlane 5 6 0) := ok_of (by decide +kernel)
theorem wit_FloatVectorResults : ∃ (s : State) (q : Turn) (i : Instr) (w : VWrite), floatWrite i = some w ∧ s.Issues q i ∧
    s.Issues q (.rzadd 4 6 0) :=
  ⟨world group [], turn group, .fadd 5 6 7 0, _, rfl, issues_of (by decide +kernel), issues_of (by decide +kernel)⟩
/-- Of 3 in lane 0: an addition, and a root. -/
theorem wit_ExactResultsAreRounded : ∃ (s : State) (q : Turn) (i j : Instr) (v w : VWrite), floatWrite i = some v ∧ s.Issues q i ∧
    floatWrite j = some w ∧ s.Issues q j ∧ q.takes i 0 = true ∧ (q.exacts i 0).length = 1 ∧ (q.exacts j 0).length = 1 :=
  let g := Vs [(6, 0, 0x40400000), (7, 0, 0x33800000)] group
  ⟨world g [], turn g, .fadd 5 6 7 0, .fsqrt 5 6 0, _, _, rfl, issues_of (by decide +kernel), rfl, issues_of (by decide +kernel), by decide +kernel⟩
theorem wit_MinMaxOrderZerosAndDropNaNs : ∃ (s : State) (q : Turn) (i : Instr) (d a b : BitVec 7) (isMax : Bool),
    minMaxForm i = some (d, a, b, isMax) ∧ s.Issues q i ∧ q.takes i 0 = true :=
  ⟨world group [], turn group, .fmin 5 6 7 0, 5, 6, 7, false, rfl, issues_of (by decide +kernel), by decide +kernel⟩
theorem wit_ScalarResults : ∃ (s : State) (q : Turn) (i : Instr) (d : BitVec 6) (x : Int), scalWrite q i = some (d, x) ∧ Ok s q i ∧ d ≠ 62 :=
  ⟨world group [], turn group, .sadd 5 6 7, 5, _, rfl, ok_of (by decide +kernel), by decide⟩
/-- The stack pointer moves to the floor, and one byte below it. -/
theorem wit_ResidueAdditionIsExact : (world group []).Issues (turn group) (.rzadd 10 6 0) := issues_of (by decide +kernel)
theorem wit_StackLimit : ∃ (s : State) (q : Turn) (i j : Instr) (x y : Int), scalWrite q i = some (62, x) ∧ Ok s q i ∧
    q.g.inStack (BitVec.ofInt 64 x).toNat ∧ scalWrite q j = some (62, y) ∧ Ok s q j ∧ ¬ q.g.inStack (BitVec.ofInt 64 y).toNat :=
  let g := Ss [(5, 0xFC00000000000F00)] group
  ⟨world g [], turn g, .smov 62 5, .ssubImm 62 5 1, _, _, rfl, ok_of (by decide +kernel), by unfold Group.inStack; decide +kernel, rfl,
    ok_of (by decide +kernel), by unfold Group.inStack; decide +kernel⟩
theorem wit_PredicateResults : ∃ (s : State) (q : Turn) (i : Instr) (w : PWrite), predWrite i = some w ∧ s.Issues q i ∧ s.Issues q (.spset 1 5) :=
  ⟨world group [], turn group, .cmp 1 6 7 2 0, _, rfl, issues_of (by decide +kernel), issues_of (by decide +kernel)⟩

/-! ## Memory -/

/-- Tables from 0x1000 down to a page at 0x6000 and a large page at 0x400000. Entries 1 of the five tables are not valid. -/
def tables : List (Nat × Nat × Nat) :=
  [(physKey 0x1000, 16, 0x2001), (physKey 0x2000, 16, 0x3001), (physKey 0x3000, 16, 0x4001),
   (physKey 0x4000, 24, 0x5001 + (0xFFF000000040000F) * 2 ^ 128), (physKey 0x5000, 16, 0xFFF0000000006007)]
/-- Who translates through those tables. -/
def walker : Acc := { place := 0, core := 0, asid := 0, root := 0x1000, part := 0, strict := false, task := false, owner := 7 }
theorem wit_AddressChecks : 0xFC00000000000FFF / 2 ^ 56 = 0xFC ∧ 0xFE00000000000FF0 / 2 ^ 56 = 0xFE ∧ 0xFBFFFFFFFFFFFFFF / 2 ^ 56 < 0xFC ∧
    0xFF00000000000000 / 2 ^ 56 = 0xFF := by decide
/-- A team of two on cores 0 and 1, and the window of the second; a third core has none. -/
theorem wit_AddressChecks_cluster :
    let mate : Team := { team with index := 1, core := 1, scrId := 5 }
    let s : State := { world group [] with teams := [(1, team), (2, mate)], grids := [(1, { grid with r := { grid.r with cset := 2 } })] }
    let a := 0xFD00000001000010
    a / 2 ^ 56 = 0xFD ∧ a / 2 ^ 26 % 2 ^ 30 = 0 ∧ group.kind = .team ∧ s.teams.get? 2 = some mate ∧ mate.grid = group.grid ∧
    mate.index / 2 = (s.teamOf group).index / (s.gridOf group).r.cset ∧ mate.core = group.core / 4 * 4 + a / 2 ^ 24 % 4 ∧ mate.saved = false ∧
    (∀ e ∈ s.teams, e.2.core = mate.core → e.1 = 2) ∧ (0xFD00000002000010 : Nat) / 2 ^ 24 % 4 = 2 ∧ (∀ e ∈ s.teams, e.2.core ≠ 2) ∧
    (0xFD00000004000000 : Nat) / 2 ^ 26 % 2 ^ 30 ≠ 0 := by decide +kernel
/-- A page of 1 GiB, a leaf where only tables may be, a table outside memory, and the upper half. -/
theorem wit_PageWalk_large :
    let s := world group [(physKey 0x1000, 32, 0x2001 + 0x9 * 2 ^ 64 + 0x0008000000000001 * 2 ^ 128), (physKey 0x1FF8, 8, 0x2001), (physKey 0x2000, 16, 0x3001 + 9 * 2 ^ 64),
      (physKey 0x2FF8, 8, 0x3001), (physKey 0x3000, 8, 0xFFF000004000000F), (physKey 0x3FF8, 8, 0xFFF000004000000F)]
    let e (t va level : Nat) := s.entryAt t va level
    (∀ va ∈ [0, 2 ^ 48, 2 ^ 49, 2 ^ 39, 2 ^ 64 - 16], va < 2 ^ 64 ∧ s.heldLeaf walker va = none ∧ s.tlbFind walker va = none) ∧
    s.tableOk 0 0x1000 = true ∧ e 0x1000 (2 ^ 48) 0 % 2 = 1 ∧ e 0x1000 (2 ^ 48) 0 / 8 % 2 = 1 ∧ e 0x1000 (2 ^ 49) 0 % 2 = 1 ∧
    e 0x1000 (2 ^ 49) 0 / 8 % 2 = 0 ∧ s.tableOk 0 (pteFrame (e 0x1000 (2 ^ 49) 0)) = false ∧ s.goesDown 0 (e 0x1000 0 0) ∧
    e 0x2000 (2 ^ 39) 1 / 8 % 2 = 1 ∧ s.goesDown 0 (e 0x2000 0 1) ∧ e 0x3000 0 2 / 8 % 2 = 1 ∧ e 0x3000 0 2 % 2 = 1 ∧
    s.goesDown 0 (e 0x1000 (2 ^ 64 - 16) 0) ∧ s.goesDown 0 (e 0x2000 (2 ^ 64 - 16) 1) ∧ e 0x3000 (2 ^ 64 - 16) 2 % 2 = 1 ∧
    s.tableOk 0 (2 ^ 47) = false := by
  simp only [State.goesDown]
  decide +kernel
theorem wit_PageWalk :
    let s := world group tables
    let e (t va level : Nat) := s.entryAt t va level
    (∀ va ∈ [0, 2 ^ 48, 2 ^ 39, 2 ^ 30, 2 ^ 21, 2 ^ 22, 4096], va < 2 ^ 57 ∧ s.heldLeaf walker va = none ∧ s.tlbFind walker va = none) ∧
    s.tableOk 0 0x1000 = true ∧ e 0x1000 (2 ^ 48) 0 % 2 = 0 ∧ s.goesDown 0 (e 0x1000 0 0) ∧ e 0x2000 (2 ^ 39) 1 % 2 = 0 ∧
    s.goesDown 0 (e 0x2000 0 1) ∧ e 0x3000 (2 ^ 30) 2 % 2 = 0 ∧ s.goesDown 0 (e 0x3000 0 2) ∧ e 0x4000 (2 ^ 21) 3 % 2 = 0 ∧
    e 0x4000 (2 ^ 22) 3 / 8 % 2 = 1 ∧ s.mayMap 0 (pteFrame (e 0x4000 (2 ^ 22) 3)) (2 ^ 21) = true ∧
    pteFrame (e 0x4000 (2 ^ 22) 3) % 2 ^ 21 = 0 ∧ e 0x4000 (2 ^ 22) 3 / 2 ^ 52 = 0xFFF ∧
    s.goesDown 0 (e 0x4000 0 3) ∧ e 0x5000 4096 4 % 2 = 0 ∧
    e 0x5000 0 4 % 2 = 1 ∧ e 0x5000 0 4 / 16 % 2 = 0 ∧ e 0x5000 0 4 / 32 % 4 = 0 ∧ e 0x5000 0 4 / 128 % 4 ≠ 3 ∧
    e 0x5000 0 4 / 2 ^ 52 = 0xFFF ∧ s.mayMap 0 (pteFrame (e 0x5000 0 4)) 4096 = true ∧ pteFrame (e 0x5000 0 4) % 4096 = 0 := by
  simp only [State.goesDown]
  decide +kernel
/-- Lane 0 alone, with w4 = w6 = 0x10040 and w8 = 0x10080, s9 = 0x10040. -/
def addressed : Group := Ss [(9, 0x10040)] (Vs [(4, 0, 0x10040), (6, 0, 0x10040), (8, 0, 0x10080)] (one group))
/-- Its world, with 64 bytes of memory written. -/
def memory : State := world addressed [(physKey 0x10040, 64, 0x0123456789ABCDEF)]
theorem wit_LoadsArePending : ∃ (s : State) (q : Turn) (i : Instr) (d a o : BitVec 7) (n : Nat) (sg : Bool) (found : Nat → Found),
    loadForm i = some (d, a, o, n, sg) ∧ Ok s q i ∧
    (∀ l < 32, q.takes i l = true → s.checkLoad q.g l (q.at a o n l) n = .ok (found l)) ∧
    (∀ l < 32, q.takes i l = true → s.badLoad (q.at a o n l) n (found l) = none) :=
  ⟨memory, turn addressed, .ldS8 10 6 1 0, 10, 6, 1, 1, true, fun _ => .ok (.here (physKey 0x10041)), rfl, ok_of (by decide +kernel),
    yes (by haveI := @exDec; infer_instance) (by decide +kernel), by decide +kernel⟩
theorem wit_ReadOnlyLoads : ∃ (s : State) (q : Turn) (key : Nat → Nat), Ok s q (.ldro128 12 6 0 0) ∧
    ∀ l < 32, q.takes (.ldro128 12 6 0 0) l = true → s.checkLoad q.g l (q.at 6 0 16 l) 16 = .ok (.ok (.here (key l))) ∧
      (windowOf (q.at 6 0 16 l) = .glb → key l % 4 = 0) :=
  ⟨memory, turn addressed, fun _ => physKey 0x10040, ok_of (by decide +kernel),
    yes (by haveI := @exDec; infer_instance) (by decide +kernel)⟩
/-- A result of vR in lane 0. -/
def result : Pend := { id := 3, src := .ready, pc := 0, lanes := 1, regs := [10], sreg := none, writes := [(10, 0, 7)], swrite := 0, bad := [],
                       due := [(7, 0)] }
theorem wit_PendingResultsLand : ∃ (s : State) (g h : Group) (p b : Pend) (f : FaultInfo), s.groups.get? 1 = some g ∧
    g.pend.find? (fun x => x.id == p.id) = some p ∧ p.src = .ready ∧ p.bad = [] ∧ p.sreg = none ∧ p.due ≠ [] ∧ (∀ w ∈ p.writes, w.2.1 < 32) ∧
    (p.writes.map (fun w => (w.1, w.2.1))).Nodup ∧ h.pend.find? (fun x => x.id == b.id) = some b ∧ b.src = .ready ∧ b.bad.find? (fun x => h.live.getLsbD x.2) = some (f, 0) ∧ b.regs ≠ [] ∧ h.live ≠ 0 ∧ s.hasLeft p.msg = true ∧
    h.live.getLsbD 0 = true :=
  let g := { group with pend := [result] }
  let b := { result with bad := [({ code := 0x12, addr := 0, detail := 0 }, 0)] }
  ⟨world g [], g, { group with pend := [b] }, result, b, { code := 0x12, addr := 0, detail := 0 }, by decide +kernel⟩
theorem wit_PendingResultsLand_scalar : ∃ (g : Group) (p : Pend), (world g []).groups.get? 1 = some g ∧
    g.pend.find? (fun x => x.id == p.id) = some p ∧ p.src = .ready ∧ p.bad = [] ∧ p.writes = [] ∧ p.sreg = some 62 ∧ g.inStack p.swrite.toNat :=
  let p := { result with writes := [], regs := [], sreg := some 62, swrite := 0xFC00000000000F00 }
  ⟨{ group with pend := [p] }, p, by unfold Group.inStack; decide +kernel⟩
/-- A scalar result that brings a fault of a lane that has exited, and a result of a unit that has ended. -/
theorem wit_PendingResultsLand_ended : ∃ (g h : Group) (p b : Pend) (f : FaultInfo), (world g []).groups.get? 1 = some g ∧
    g.pend.find? (fun x => x.id == b.id) = some b ∧ b.src = .ready ∧ b.regs = [] ∧ b.bad.head? = some (f, 5) ∧ g.live ≠ 0 ∧ g.live.getLsbD 5 = false ∧
    (world h []).groups.get? 1 = some h ∧ h.pend.find? (fun x => x.id == p.id) = some p ∧ p.bad ≠ [] ∧ p.sreg = none ∧ h.live = 0 :=
  let f : FaultInfo := { code := 0x12, addr := 0, detail := 0 }
  let b := { result with writes := [], regs := [], sreg := some 7, bad := [(f, 5)] }
  let p := { result with bad := [(f, 0)] }
  ⟨one { group with pend := [b] }, { group with pend := [p], live := 0, place := .ending none }, p, b, f, by decide +kernel⟩
theorem wit_FailingAddressEndsTheGroup : ∃ (s : State) (q : Turn) (f : FaultInfo), Ok s q (.ld32 10 6 0 0) ∧ q.takes (.ld32 10 6 0 0) 0 = true ∧
    s.checkLoad q.g 0 (q.at 6 0 4 0) 4 = .error f ∧ Ok s q (.st32 10 6 0 0) ∧ s.checkAddr q.g 0 (q.at 6 0 4 0) 4 4 .store = .error f :=
  let g := Vs [(6, 0, 0x10042)] (one group)
  ⟨world g [], turn g, { code := 3, addr := 0x10042, detail := 4 }, ok_of (by decide +kernel), by decide +kernel,
    yes (by haveI := @exDec; infer_instance) (by decide +kernel), ok_of (by decide +kernel),
    yes (by haveI := @exDec; infer_instance) (by decide +kernel)⟩
theorem wit_StoresWriteTheirBytes : ∃ (s : State) (q : Turn) (key : Nat → Nat), Ok s q (.st64 8 6 0 0) ∧
    ∀ l < 32, q.takes (.st64 8 6 0 0) l = true → s.checkAddr q.g l (q.at 6 0 8 l) 8 8 .store = .ok (.here (key l)) ∧
      s.pinned (key l) 8 = false ∧ s.goEntry (.here (key l)) 8 = none :=
  ⟨memory, turn addressed, fun _ => physKey 0x10040, ok_of (by decide +kernel),
    yes (by haveI := @exDec; infer_instance) (by decide +kernel)⟩
theorem wit_ScalarLoadsAndStores : ∃ (s : State) (q : Turn) (k : Nat), Ok s q (.sld 5 9 1) ∧ Ok s q (.sst 5 9 1) ∧
    s.checkLoad q.g 0 0x10048 8 = .ok (.ok (.here k)) ∧ s.mem.poisonAt k 8 = none ∧
    s.checkAddr q.g 0 0x10048 8 8 .store = .ok (.here k) ∧ s.pinned k 8 = false ∧ s.goEntry (.here k) 8 = none ∧
    ((q.su 9 + 8 * (1 : BitVec 9).toInt) % 2 ^ 64).toNat = 0x10048 ∧ lowest (fun l => q.lanes.getLsbD l) = 0 :=
  ⟨memory, turn addressed, physKey 0x10048, ok_of (by decide +kernel), ok_of (by decide +kernel),
    yes (by haveI := @exDec; infer_instance) (by decide +kernel)⟩
theorem wit_AtomicsReadAndWrite : ∃ (s : State) (q : Turn) (key : Nat → Nat), Ok s q (.atomAdd 10 6 0 0) ∧ Ok s q (.atomcas 12 6 1 0) ∧
    (∀ l < 32, q.takes (.atomAdd 10 6 0 0) l = true → s.checkAtom q.g l (q.w 6 l).toNat 4 = .ok (.here (key l)) ∧ s.pinned (key l) 4 = false) ∧
    (∀ l < 32, q.takes (.atomcas 12 6 1 0) l = true → s.checkAtom q.g l (q.w 6 l).toNat 8 = .ok (.here (key l)) ∧ s.pinned (key l) 8 = false) :=
  ⟨memory, turn addressed, fun _ => physKey 0x10040, ok_of (by decide +kernel), ok_of (by decide +kernel),
    yes (by haveI := @exDec; infer_instance) (by decide +kernel), yes (by haveI := @exDec; infer_instance) (by decide +kernel)⟩
theorem wit_ReductionsCombine : ∃ (s : State) (q : Turn) (key : Nat → Nat), Ok s q (.redAdd32 10 6 0) ∧ Ok s q (.redFaddF32 10 6 0) ∧
    (∀ l < 32, q.takes (.redAdd32 10 6 0) l = true → s.checkAddr q.g l (q.w 6 l).toNat 4 4 .store = .ok (.here (key l)) ∧ s.pinned (key l) 4 = false) ∧
    (∀ l < 32, q.takes (.redFaddF32 10 6 0) l = true → s.checkAddr q.g l (q.w 6 l).toNat 4 4 .store = .ok (.here (key l)) ∧ s.pinned (key l) 4 = false) ∧
    q.parts (.redFaddF32 10 6 0) = [0] ∧ s.mem.red.get? (key 0) = none :=
  ⟨memory, turn addressed, fun _ => physKey 0x10040, ok_of (by decide +kernel), ok_of (by decide +kernel),
    yes (by haveI := @exDec; infer_instance) (by decide +kernel), yes (by haveI := @exDec; infer_instance) (by decide +kernel), by decide +kernel⟩
/-- The page 0x10 lies on part 3, coherent, with its home there. -/
def farPage : Held :=
  { part := 0, ctx := 0, asid := 0, page := 0x10, leaf := { pte := 0x0020000000010227, level := 4, base := 0x10000, size := 4096 }, task := false, owner := 1 }
theorem wit_RemoteStoresAreMessages : ∃ (s : State) (q : Turn) (part pa : Nat → Nat), Ok s q (.st64 8 6 0 0) ∧
    (∀ l < 32, q.takes (.st64 8 6 0 0) l = true → s.checkAddr q.g l (q.at 6 0 8 l) 8 8 .store = .ok (.away (part l) (pa l))) ∧
    q.g.place = .resident :=
  ⟨{ memory with mmu := { memory.mmu with held := [farPage] } }, turn addressed, fun _ => 3, fun _ => 0x10040, ok_of (by decide +kernel),
    yes (by haveI := @exDec; infer_instance) (by decide +kernel), rfl⟩
theorem wit_RemoteStoresAreMessages_acknowledged : let g := { addressed with unacked := [(0, 0, 3)] }
    (world g []).groups.get? 1 = some g ∧ g.place = .resident ∧ 0 < g.unacked.length ∧ (world g []).fab.stalled.getD 0 0 = 0 := ⟨rfl, rfl, by decide, rfl⟩
/-- FENCE.POD with nothing under way, and with a write that is not acknowledged. -/
theorem wit_FencesAndCacheForms : ∃ (s t : State) (q r : Turn), Ok s q (.fence 6 0) ∧ q.Performed (.fence 6 0) True ∧
    (∀ u ∈ q.g.dropped, q.takes (.fence 6 0) u.1 = false) ∧ Ok t r (.fence 6 0) ∧ ¬ r.Performed (.fence 6 0) True := by
  refine ⟨memory, world { addressed with unacked := [(0, 0, 3)] } [], turn addressed, turn { addressed with unacked := [(0, 0, 3)] },
    ok_of (by decide +kernel), ⟨?_, ?_⟩, ?_, ok_of (by decide +kernel), ?_⟩
  · intro p h
    cases h
  · intro _ u h
    cases h
  · decide +kernel
  · intro h
    exact absurd (h.2 trivial (0, 0, 3) (by decide +kernel)) (by decide +kernel)
/-- FENCE.POD of a lane with a discarded write. -/
theorem wit_FencesAndCacheForms_dropped : ∃ (s : State) (q : Turn), Ok s q (.fence 6 0) ∧ q.Performed (.fence 6 0) True ∧
    ∃ u ∈ q.g.dropped, q.takes (.fence 6 0) u.1 = true :=
  ⟨_, turn { addressed with dropped := [(0, 0x10040)] }, ok_of (s := world { addressed with dropped := [(0, 0x10040)] } []) (by decide +kernel),
    performed_of rfl rfl, (0, 0x10040), by decide +kernel⟩
theorem wit_FencesAndCacheForms_caches : ∃ (s : State) (q : Turn) (key : Nat → Nat), Ok s q (.invro 0) ∧ Ok s q (.pref 6 0) ∧ Ok s q (.cflush 6 0) ∧
    ∀ l < 32, q.takes (.cflush 6 0) l = true → windowOf (q.w 6 l).toNat = .glb ∧ s.checkAddr q.g l (q.w 6 l).toNat 1 1 .load = .ok (.here (key l)) :=
  ⟨memory, turn addressed, fun _ => physKey 0x10040, ok_of (by decide +kernel), ok_of (by decide +kernel), ok_of (by decide +kernel),
    yes (by haveI := @exDec; infer_instance) (by decide +kernel)⟩

/-! ## Control, barriers, waits -/

theorem wit_BranchesDivideThePath : Ok (world group []) (turn group) (.bra 8 0) ∧ Ok (world group []) (turn group) (.callx 6 0) ∧
    (∀ l < 32, ((turn group).g.vget 6 l).toNat % 2 = 0) ∧ (∃ q : Turn, Ok (world q.g []) q (.brx 6 0) ∧ (q.g.vget 6 0).toNat % 2 = 1) :=
  let g := Vs [(6, 0, 5)] group
  ⟨ok_of (by decide +kernel), ok_of (by decide +kernel), by decide +kernel, turn g, ok_of (by decide +kernel), by decide +kernel⟩
/-- EXIT of lane 0 of two, and of the only lane. -/
theorem wit_ExitEndsLanes : (∃ (s : State) (q : Turn), Ok s q (.exit 0) ∧ ∃ l < 32, q.g.live.getLsbD l = true ∧ q.takes (.exit 0) l = false) ∧
    ∃ (s : State) (q : Turn) (t : Team), Ok s q (.exit 0) ∧ (∀ l < 32, q.g.live.getLsbD l = true → q.takes (.exit 0) l = true) ∧
      q.g.kind = .team ∧ q.g.place = .resident ∧ s.teams.get? q.g.team = some t ∧
      ¬ (s.busyUnit q.gid false = true ∨ q.g.unacked ≠ [] ∨ ∃ p ∈ q.g.pend, p.atHome = true) :=
  let q : Turn := { (turn { group with live := 3 }) with lanes := 1 }
  ⟨⟨{ (world q.g []) with cur := some { gid := 1, pc := 0, lanes := 1, wait := 0 } }, q, ok_of (by decide +kernel), 1, by decide +kernel⟩,
    memory, turn addressed, team, ok_of (by decide +kernel), by decide +kernel⟩
theorem wit_ExitEndsLanes_busy : ∃ (s : State) (q : Turn), Ok s q (.exit 0) ∧ q.g.unacked ≠ [] :=
  let g := { addressed with unacked := [(0, 0, 3)] }
  ⟨world g [], turn g, ok_of (by decide +kernel), by decide⟩
/-- An atomic of the group is under way at another part. -/
theorem wit_ExitEndsLanes_atomic : ∃ (s : State) (q : Turn), Ok s q (.exit 0) ∧ (∀ l < 32, q.g.live.getLsbD l = true → q.takes (.exit 0) l = true) ∧
    ∃ p ∈ q.g.pend, p.atHome = true :=
  let p : Pend := { result with regs := [], writes := [], src := .remote 3 0x10040 4 true, atom := true }
  let g := { (one group) with pend := [p] }
  ⟨world g [], turn g, ok_of (by decide +kernel), by decide +kernel, p, List.mem_singleton.2 rfl, by decide +kernel⟩
/-- A world whose grid is changed. -/
def worldOf (gr : Grid) (g : Group) : State := { (world g []) with grids := [(1, gr)] }
theorem wit_LaneControl : Ok (world group []) (turn group) .nop ∧ Ok (world group []) (turn group) (.yield 0) ∧
    Ok (world group []) (turn group) (.safept 1) ∧ ((world group []).gridOf group).killed = false ∧ ((world group []).gridOf group).pre ≠ .pending ∧
    Ok (worldOf { grid with killed := true } group) (turn group) (.safept 1) ∧ ((worldOf { grid with killed := true } group).gridOf group).killed = true ∧
    Ok (worldOf { grid with pre := .pending } group) (turn group) (.safept 1) ∧
    ((worldOf { grid with pre := .pending } group).gridOf group).pre = .pending ∧ group.place = .resident :=
  by refine ⟨ok_of ?_, ok_of ?_, ok_of ?_, ?_, ?_, ok_of ?_, ?_, ok_of ?_, ?_, rfl⟩ <;> decide +kernel
theorem wit_LaneControl_conv : Ok (world group []) (turn group) (.conv 0) ∧
    (∀ l < 32, group.live.getLsbD l = true → (turn group).takes (.conv 0) l = true) ∧
    ∃ (s : State) (q : Turn), Ok s q (.conv 0) ∧ q.g.waits = [] ∧ ∃ l < 32, q.g.live.getLsbD l = true ∧ q.takes (.conv 0) l = false :=
  let q : Turn := { (turn { group with live := 3 }) with lanes := 1 }
  ⟨ok_of (by decide +kernel), by decide +kernel, { (world q.g []) with cur := some { gid := 1, pc := 0, lanes := 1, wait := 0 } }, q,
    ok_of (by decide +kernel), by decide +kernel, 1, by decide +kernel⟩
/-- Lane 1 waits at a CONV of its own as lane 0 issues one; and it waits for a batch. -/
theorem wit_LaneControl_convs : ∃ (s r : State) (q p : Turn), Ok s q (.conv 0) ∧ (∀ l < 32, q.g.live.getLsbD l = true → q.takes (.conv 0) l = true ∨
      q.lanes.getLsbD l = false ∧ ∃ w ∈ q.g.waits, w.lanes.getLsbD l = true ∧ w.why = .conv) ∧
    (∃ w ∈ q.g.waits, w.why = .conv ∧ w.lanes.getLsbD 1 = true ∧ q.lanes.getLsbD 1 = false) ∧
    Ok r p (.conv 0) ∧ p.g.live.getLsbD 1 = true ∧ p.takes (.conv 0) 1 = false ∧ ∃ w ∈ p.g.waits, w.lanes.getLsbD 1 = true ∧ w.why = .batch 3 :=
  let g (why : Why) : Group := { group with live := 3, waits := [aWait 0x40 2 why (.conv 0)] }
  let q (why : Why) : Turn := { (turn (g why)) with lanes := 1 }
  let s (why : Why) : State := { (world (g why) []) with cur := some { gid := 1, pc := 0, lanes := 1, wait := 0 } }
  ⟨s .conv, s (.batch 3), q .conv, q (.batch 3), ok_of (by decide +kernel), by decide +kernel, by decide +kernel, ok_of (by decide +kernel),
    by decide +kernel⟩
theorem wit_TrapAndBreak : Ok (world group []) (turn group) (.trap 9 0) ∧ Ok (world group []) (turn group) (.brk 9 0) ∧
    ((world group []).ctlGet .dbgCtl 0).getLsbD 0 = false ∧
    Ok ((world group []).ctlSet .dbgCtl 0 1) (turn group) (.brk 9 0) ∧ (((world group []).ctlSet .dbgCtl 0 1).ctlGet .dbgCtl 0).getLsbD 0 = true :=
  ⟨ok_of (by decide +kernel), ok_of (by decide +kernel), by decide +kernel, ok_of (by decide +kernel), by decide +kernel⟩
theorem wit_SystemRegisters : ∃ (s : State) (q : Turn) (x : W64), q.g.kind = .team ∧ s.sysReg q.g 0x06 = some x ∧ Ok s q (.sysr 5 6 0) ∧
    Ok s q (.sysrV 5 6 0) ∧ Ok s q (.sysrV 5 0 0) ∧ Ok s q (.rdtime 5 0) ∧ Ok s q (.sysw 5 0x0F 0) ∧ Ok s q (.sysw 5 0x12 0) :=
  by refine ⟨world group [], turn group, 0, ?_, ?_, ok_of ?_, ok_of ?_, ok_of ?_, ok_of ?_, ok_of ?_, ok_of ?_⟩ <;> decide +kernel
/-- A team of a grid of 4 by 1, a task, and forms at registers that they may not name. -/
theorem wit_SystemRegisters_forms : (world group []).Path (turn group) ∧ (∃ q : Turn, q.g.kind = .task ∧ (world q.g []).Path q) ∧
    (∃ (s : State) (g : Group), g.kind = .team ∧ (s.teamOf g).index = 3 + (s.gridOf g).r.x * (0 + (s.gridOf g).r.y * 0) ∧ 3 < (s.gridOf g).r.x ∧
      0 < (s.gridOf g).r.y) :=
  ⟨(issues_of (i := .nop) (by decide +kernel)).toPath, ⟨turn { group with kind := .task }, rfl, (issues_of (i := .nop) (by decide +kernel)).toPath⟩,
    { (worldOf { grid with r := { grid.r with x := 4, y := 1 } } group) with teams := [(1, { team with index := 3 })] }, group, by decide +kernel⟩
theorem wit_SystemRegisters_ticket : ∃ (s : State) (q : Turn) (gr : Grid), Ok s q (.sysr 5 0x13 0) ∧ s.grids.get? q.g.grid = some gr ∧
    gr.r.m ≠ 0 ∧ gr.cancelled = false ∧ (gr.work.getD (q.g.core / 48) (0, 0)).1 < (gr.work.getD (q.g.core / 48) (0, 0)).2 :=
  let gr := { grid with r := { grid.r with m := 8 }, work := [(3, 4), (0, 0), (0, 0), (0, 0)] }
  ⟨worldOf gr group, turn group, gr, ok_of (by decide +kernel), by decide +kernel⟩
theorem wit_BarrierArrivals : ∃ (s : State) (q : Turn), s.grids.get? q.g.grid ≠ none ∧ s.teams.get? q.g.team ≠ none ∧ q.g.kind = .team ∧
    Ok s q (.bar 0 7) ∧ Ok s q (.bararr 0 0) ∧ Ok s q (.barwt 0 0) ∧ q.Whole ∧ q.g.arrivals = [] ∧ q.Performed (.bar 0 7) False ∧
    q.Performed (.bararr 0 0) False :=
  ⟨world group [], turn group, by decide +kernel, by decide +kernel, rfl, ok_of (by decide +kernel), ok_of (by decide +kernel), ok_of (by decide +kernel),
    rfl, rfl, performed_of rfl rfl, performed_of rfl rfl⟩
/-- A load from another part is under way in lane 0. -/
def loading : Group := { group with pend := [{ result with src := .remote 3 0x10040 4 false }] }
theorem not_performed (i : Instr) (pod : Prop) (h : (turn loading).takes i 0 = true) : ¬ (turn loading).Performed i pod := fun p =>
  absurd (p.1 { result with src := .remote 3 0x10040 4 false } (List.mem_singleton.2 rfl) ⟨3, 0x10040, 4, false, rfl⟩ 0 (by decide) h)
    (by decide +kernel)
theorem wit_BarrierArrivals_first : ∃ (s : State) (q : Turn), s.grids.get? q.g.grid ≠ none ∧ s.teams.get? q.g.team ≠ none ∧ q.g.kind = .team ∧
    Ok s q (.bar 0 7) ∧ q.Whole ∧ ¬ q.Performed (.bar 0 7) False :=
  ⟨world loading [], turn loading, by decide +kernel, by decide +kernel, rfl, ok_of (by decide +kernel), rfl, not_performed _ _ (by decide +kernel)⟩
theorem wit_BarrierArrivals_waits : ∃ (s : State) (q : Turn) (p : Nat), Ok s q (.barwt 0 2) ∧
    q.g.arrivals.find? (fun a => a.1 == 0 && a.2.1 == 2) = some (0, 2, p) ∧ (s.getBar 0 q.g.grid (s.barOwner q.g 0) 2).phase ≤ p :=
  let g := { group with arrivals := [(0, 2, 0)] }
  ⟨world g [], turn g, 0, ok_of (by decide +kernel), by decide +kernel⟩
theorem wit_BarrierChecks : Ok (world group []) (turn group) (.bar 2 3) ∧ ((world group []).gridOf group).r.coRes = false ∧
    (∃ (s : State) (q : Turn), Ok s q (.bar 1 0) ∧ Ok s q (.bar 0 0) ∧ q.g.kind ≠ .team ∧ q.Whole ∧ q.g.arrivals = [] ∧
      q.Performed (.bar 0 0) False) ∧
    ∃ (s : State) (q : Turn) (gr : Grid), Ok s q (.bar 3 0) ∧ s.grids.get? q.g.grid = some gr ∧ gr.r.coRes = true :=
  let g := { group with kind := .callout }
  let gr := { grid with r := { grid.r with coRes := true }, bars := grid.beginBars 0 }
  ⟨ok_of (by decide +kernel), by decide +kernel, ⟨world g [], turn g, ok_of (by decide +kernel), ok_of (by decide +kernel), by decide, rfl, rfl,
    performed_of rfl rfl⟩, worldOf gr group, turn group, gr, ok_of (by decide +kernel), by decide +kernel⟩
/-- The team's barrier 2 when its group has arrived, and when none has. -/
def arrivedTeam : Team := { team with bars := Store.set [] (barKey 0 0 2) { newBar with came := true, arr := [(1, 0, 0)] } }
theorem wit_BarrierPhases : ∃ (s : State) (t : Team), s.teams.get? 1 = some t ∧ (s.getBar 0 1 1 2).came = true ∧
    (∀ e ∈ s.groups, e.2.kind = .team ∧ e.2.grid = 1 ∧ e.2.team = 1 → ∃ a ∈ (s.getBar 0 1 1 2).arr, a.1 = e.1) ∧ s.barDone 0 1 1 2 = true :=
  ⟨{ (world group []) with teams := [(1, arrivedTeam)] }, arrivedTeam, by decide +kernel⟩
theorem wit_BarrierPhases_open : ∃ (s : State) (t : Team), s.teams.get? 1 = some t ∧
    ∃ e ∈ s.groups, (e.2.kind = .team ∧ e.2.grid = 1 ∧ e.2.team = 1) ∧ ¬ ∃ a ∈ (s.getBar 0 1 1 2).arr, a.1 = e.1 :=
  ⟨world group [], team, by decide +kernel⟩
theorem wit_BarrierPhases_levels :
    let gr := { grid with r := { grid.r with coRes := true }, bars := Store.set (grid.beginBars 0) (barKey 2 0 1) { newBar with came := true, arr := [(1, 0, 0)] } }
    (worldOf gr group).barDone 2 1 0 1 = true ∧ (worldOf gr group).grids.get? 1 ≠ none := by decide +kernel
/-- A grid of parts 0 and 1, launched here. -/
def podGrid : Grid := { grid with r := { grid.r with pod := true, partCount := 2, coRes := true } }
theorem wit_BarrierPhases_token : ∃ (s : State) (gr : Grid) (count : Nat), s.grids.get? 1 = some gr ∧ gr.r.pod = true ∧
    (s.getBar 3 1 0 3).phase ≤ 0 ∧ 0 < count :=
  ⟨worldOf { podGrid with bars := grid.beginBars 0 } group, { podGrid with bars := grid.beginBars 0 }, 1, by decide +kernel⟩
theorem wit_RemoteArrivals : ∃ (s : State) (q : Turn) (u : Nat) (t : Team), Ok s q (.rarrive 0 3) ∧ q.g.kind = .team ∧
    s.setTeamOn q.g.grid (s.barOwner q.g 1) (q.g.core / 4 * 4 + 0) = some u ∧ s.teams.get? u = some t ∧ t.remote.getD 3 0 ≠ 65535 ∧
    q.Performed (.rarrive 0 3) False ∧ Ok (world loading []) (turn loading) (.rarrive 0 3) ∧ ¬ (turn loading).Performed (.rarrive 0 3) False ∧
    Ok s q (.rarrive 1 0) ∧ s.setTeamOn q.g.grid (s.barOwner q.g 1) (q.g.core / 4 * 4 + 1) = none ∧ Ok s q (.barwtRemote 0) ∧
    (s.gridOf q.g).setSize t.index - 1 ≤ t.remote.getD 0 0 :=
  ⟨world group [], turn group, 1, team, ok_of (by decide +kernel), rfl, by decide +kernel, by decide +kernel, by decide +kernel,
    performed_of rfl rfl, ok_of (by decide +kernel), not_performed _ _ (by decide +kernel),
    ok_of (by decide +kernel), by decide +kernel, ok_of (by decide +kernel), by decide +kernel⟩
theorem wit_RemoteArrivals_full : ∃ (s : State) (q : Turn) (t : Team), Ok s q (.rarrive 0 3) ∧ s.teams.get? 1 = some t ∧
    s.setTeamOn q.g.grid (s.barOwner q.g 1) (q.g.core / 4 * 4 + 0) = some 1 ∧ t.remote.getD 3 0 = 65535 ∧ Ok s q (.barwtRemote 0) ∧
    t.remote.getD 0 0 < (s.gridOf q.g).setSize t.index - 1 :=
  let t := { team with remote := [0, 0, 0, 65535] }
  let gr := { grid with r := { grid.r with x := 4, cset := 4 } }
  ⟨{ (worldOf gr group) with teams := [(1, t)] }, turn group, t, ok_of (by decide +kernel), by decide +kernel, by decide +kernel, by decide +kernel,
    ok_of (by decide +kernel), by decide +kernel⟩
/-- s9 names a word of the scratchpad; the group watches it, and it held 5. -/
def watching : Group := { (Ss [(9, 0xFE00000000000100), (5, 2)] (one group)) with monitor := some (0xFE00000000000100, scrKey 2 0x100, 5) }
/-- A group that waits in MWAIT for any change. -/
def waitsMw : Group := { watching with waits := [aWait 0 1 (.mwait 0) (.mwait 0 0)] }
theorem wit_MonitorsAndWords : ∃ (s : State) (q : Turn), Ok s q (.monitor 9 0) ∧ windowOf (q.g.sget 9).toNat = .scr ∧
    s.checkAddr q.g (lowest (q.takes (.monitor 9 0))) (q.g.sget 9).toNat 8 8 .load = .ok (.here (scrKey 2 0x100)) ∧
    s.mem.poisonAt (scrKey 2 0x100) 8 = none ∧
    -- the word holds 7: a change, and bit 1 is set
    Ok s q (.mwait 0 0) ∧ Ok s q (.mwait 5 0) ∧ q.g.monitor = some (0xFE00000000000100, scrKey 2 0x100, 5) ∧
    Bytes.num s.byte (scrKey 2 0x100) 8 = 7 ∧ (q.g.sget 5).toNat = 2 ∧ Ok s q (.chwait 5 9 0) :=
  ⟨world watching [(scrKey 2 0x100, 8, 7)], turn watching, ok_of (by decide +kernel), by decide +kernel,
    yes (by haveI := @exDec; infer_instance) (by decide +kernel), by decide +kernel, ok_of (by decide +kernel), ok_of (by decide +kernel),
    by decide +kernel, by decide +kernel, by decide +kernel, ok_of (by decide +kernel)⟩
theorem wit_MonitorsAndWords_waits : ∃ (s : State) (q : Turn), Ok s q (.mwait 0 0) ∧ Ok s q (.chwait 5 9 0) ∧
    Bytes.num s.byte (scrKey 2 0x100) 8 = 5 ∧ (s.gridOf q.g).pre ≠ .pending ∧
    Ok (world group []) (turn group) (.mwait 0 0) ∧ group.monitor = none ∧
    ∃ (r : State) (w : Wait), r.groups.get? 1 = some waitsMw ∧ waitsMw.place = .resident ∧ waitsMw.waits = [w] ∧ w.why = .mwait 0 ∧
      Bytes.num r.byte (scrKey 2 0x100) 8 ≠ 5 :=
  ⟨world watching [(scrKey 2 0x100, 8, 5)], turn watching, ok_of (by decide +kernel), ok_of (by decide +kernel), by decide +kernel, by decide +kernel,
    ok_of (by decide +kernel), rfl, world waitsMw [(scrKey 2 0x100, 8, 7)], aWait 0 1 (.mwait 0) (.mwait 0 0),
    by decide +kernel⟩
/-- A copy of 1024 bytes of group 1, between pages 0x10 and 0x12, in the batch `b`. -/
def copy (id b : Nat) : Copy :=
  { id := id, gid := 1, core := 0, ent := 2, src := [{ key := physKey 0x10000, len := 1024 }], dst := [{ key := physKey 0x12000, len := 1024 }],
    cap := none, n := 1024, left := [0, 1], sent := [], bits := [], bitmap := none, batch := b, cls := 0, tags := [] }
theorem wit_Batches : ∃ (s : State) (q : Turn), Ok s q (.batseal 5 0) ∧ (s.openBatches q.gid q.g).length < 16 ∧
    Ok s q (.batwait 9 0) ∧ (q.g.sget 9).toNat % 2 ^ 32 = 0 ∧ Ok s q (.batwait 8 0) ∧ (q.g.sget 8).toNat % 2 ^ 32 = 3 ∧ q.g.lastBatch = 3 ∧
    q.g.sealSeq = 3 ∧ ∃ c ∈ s.eng.copies, c.gid = q.gid ∧ c.batch < 3 :=
  let g := { (Ss [(8, 3)] (one group)) with lastBatch := 3, sealSeq := 3 }
  ⟨{ (world g []) with eng := { State.reset.eng with copies := [copy 4 2] } }, turn g, ok_of (by decide +kernel), by decide +kernel,
    ok_of (by decide +kernel), by decide +kernel, ok_of (by decide +kernel), by decide +kernel, rfl, rfl, copy 4 2, by decide +kernel⟩
theorem wit_Batches_full : ∃ (s : State) (q : Turn), Ok s q (.batseal 5 0) ∧ 16 ≤ (s.openBatches q.gid q.g).length :=
  let g := { (one group) with lastBatch := 17, sealSeq := 17 }
  ⟨{ (world g []) with eng := { State.reset.eng with copies := (List.range 16).map (fun i => copy (20 + i) i) } }, turn g, ok_of (by decide +kernel),
    by decide +kernel⟩
/-- The team whose baton group 1 holds. -/
def fed : Team := { team with holder := some 1, fed := true }
def worldT (t : Team) (g : Group) (m : List (Nat × Nat × Nat)) : State := { (world g m) with teams := [(1, t)] }
theorem wit_TheBaton : (Ok (worldT fed group []) (turn group) .btake ∧ Ok (worldT fed group []) (turn group) .bgive) ∧
    (Ok (world group []) (turn group) .btake ∧ team.holder = none ∧ team.batonQ = [] ∧ Ok (world group []) (turn group) .bgive ∧
      team.holder ≠ some 1) ∧
    (∃ t : Team, Ok (worldT t group []) (turn group) .btake ∧ t.holder ≠ some 1 ∧ t.holder ≠ none ∧ 1 ∉ t.batonQ) ∧
    ∃ (t : Team) (g : Group), (worldT t g []).teams.get? 1 = some t ∧ t.holder = none ∧ t.batonQ = [1] ∧ (worldT t g []).groups.get? 1 = some g :=
  ⟨⟨ok_of (by decide +kernel), ok_of (by decide +kernel)⟩,
    ⟨ok_of (by decide +kernel), rfl, rfl, ok_of (by decide +kernel), by decide⟩,
    ⟨{ team with holder := some 2 }, ok_of (by decide +kernel), by decide⟩,
    { team with batonQ := [1] }, group, by decide +kernel⟩
/-- A grid whose kernel header declares roles. -/
def roled : Grid := { grid with h := { grid.h with roles := true, nL := 1, nC := 1, nS := 1 } }
theorem wit_RoleChanges : Ok (world group []) (turn group) .roleOffer ∧ (turn group).Whole ∧ group.pend = [] ∧ group.posted = none ∧
    Ok (worldOf roled group) (turn group) (.role 1) ∧ Ok (worldOf roled group) (turn group) (.role 2) ∧ roled.h.roles = true ∧ group.role = .compute ∧
    (let g := { group with posted := some .storer }; Ok (worldOf roled g) (turn g) .roleOffer) ∧
    Ok (world group []) (turn group) (.role 1) ∧ grid.h.roles = false :=
  ⟨ok_of (by decide +kernel), rfl, rfl, rfl, ok_of (by decide +kernel), ok_of (by decide +kernel), rfl, rfl, ok_of (by decide +kernel),
    ok_of (by decide +kernel), rfl⟩
/-- Ring 0: 2 entries at 0x400 of the scratchpad. -/
def ringMem : List (Nat × Nat × Nat) := [(scrKey 2 0, 16, 0x400 + 2 * 2 ^ 32)]
/-- The team whose ring 0 has counted `p` puts and `t` takes. -/
def ringTeam (p t : Nat) : Team := { team with rings := Store.set [] 0 { put := p, get := t } }
theorem wit_Rings : ∃ (s : State) (q : Turn) (t : Team), q.g.kind = .team ∧ s.teams.get? q.g.team = some t ∧
    Bytes.num s.byte (scrKey t.scrId 0) 4 = 0x400 ∧ Bytes.num s.byte (scrKey t.scrId 0 + 16) 2 = 2 ∧ 0x400 + 128 * 2 ≤ t.scr ∧
    Ok s q (.ringput 5 1 0 0) ∧ Ok s q (.ringget 5 1 0 0) ∧ t.rings.getD 0 { put := 0, get := 0 } = { put := 1, get := 0 } ∧
    s.pinned (scrKey t.scrId (0x400 + 128 * (1 % 2))) 128 = false ∧
    s.mem.poisonAt (scrKey t.scrId 0) 8 = none ∧ q.Performed (.ringput 5 1 0 0) False ∧
    ∀ l < 32, s.mem.poisonAt (scrKey t.scrId 0x400 + 16 * l) 4 = none :=
  by refine ⟨worldT (ringTeam 1 0) group ringMem, turn group, ringTeam 1 0, rfl, rfl, ?_, ?_, ?_, ok_of ?_, ok_of ?_, ?_, ?_, ?_, performed_of rfl rfl, ?_⟩ <;> decide +kernel
theorem wit_Rings_full : Ok (worldT (ringTeam 2 0) group ringMem) (turn group) (.ringput 5 1 0 0) ∧
    Ok (worldT (ringTeam 2 2) group ringMem) (turn group) (.ringget 5 1 0 0) ∧ group.posted = none ∧
    ((worldT (ringTeam 2 0) group ringMem).gridOf group).pre ≠ .pending :=
  ⟨ok_of (by decide +kernel), ok_of (by decide +kernel), rfl, by decide +kernel⟩

/-! ## Copies, the matrix engine, power -/

/-- A result of some kind, without saying which. -/
theorem some_ok {E A : Type} : ∀ {r : Except E A}, r.toBool = true → ∃ x, r = .ok x
  | .ok y, _ => ⟨y, rfl⟩
/-- The block at an address is read. -/
def blockB (s : State) (g : Group) (lane a n k : Nat) : Bool :=
  decide (windowOf a ≠ .prv) && decide (windowOf a ≠ .clu) && decide (a % n = 0) &&
  (match s.checkRange g lane a n .load with | .ok l => decide (l = [(.here k, n)]) | .error _ => false) && decide (s.mem.poisonAt k n = none)
theorem block_of {s : State} {g : Group} {lane a n k : Nat} (h : blockB s g lane a n k = true) : s.Block g lane a n k := by
  simp only [blockB, Bool.and_eq_true, decide_eq_true_eq] at h
  refine { scr := h.1.1.1.1, own := h.1.1.1.2, aligned := h.1.1.2, ok := ?_, clean := h.2 }
  have h1 := h.1.2
  split at h1
  · rename_i hl
    rw [hl, of_decide_eq_true h1]
  · cases h1
/-- A descriptor at 0x10040: 1 KiB from page 0x12 to page 0x13, no bitmap; and at 0x10060 the same to scratchpad offset 0x200, which also
stands as entry 0 of a schedule at 0x10080. -/
def descriptors : List (Nat × Nat × Nat) :=
  [(physKey 0x10040, 32, 0x12000 + 0x13000 * 2 ^ 64 + 1024 * 2 ^ 128 + 0xFFFFFFFF * 2 ^ 160),
   (physKey 0x10060, 32, 0x12000 + 0x200 * 2 ^ 64 + 1024 * 2 ^ 128 + 0xFFFFFFFF * 2 ^ 160),
   (physKey 0x100A0, 32, 0x12000 + 0x200 * 2 ^ 64 + 1024 * 2 ^ 96 + 0xFFFFFFFF * 2 ^ 128)]
def copier : Group := Ss [(9, 0x10040), (8, 0x10060)] (one group)
theorem wit_CopiesAreAccepted : ∃ (s : State) (q : Turn) (ps pd : List (Loc × Nat)), Ok s q (.bcopy 9 0) ∧
    s.Block q.g 0 (q.g.sget 9).toNat 32 (physKey 0x10040) ∧ lowest (q.takes (.bcopy 9 0)) = 0 ∧
    Bytes.num s.byte (physKey 0x10040) 8 = 0x12000 ∧ Bytes.num s.byte (physKey 0x10040 + 32) 8 = 0x13000 ∧
    Bytes.num s.byte (physKey 0x10040 + 64) 4 = 1024 ∧ Bytes.num s.byte (physKey 0x10040 + 80) 4 = 0xFFFFFFFF ∧
    Bytes.num s.byte (physKey 0x10040 + 96) 8 = 0 ∧ s.checkRangeBy (s.copyAcc q.g) q.g 0 0x12000 1024 .load = .ok ps ∧ s.checkRangeBy (s.copyAcc q.g) q.g 0 0x13000 1024 .store = .ok pd ∧
    checkBitmap (s.copyOwner q.g 0x13000) 1024 0xFFFFFFFF = .ok none :=
  ⟨world copier descriptors, turn copier, [(.here (physKey 0x12000), 1024)], [(.here (physKey 0x13000), 1024)], ok_of (by decide +kernel),
    block_of (by decide +kernel), yes (by haveI := @exDec; infer_instance) (by decide +kernel)⟩
theorem wit_CopiesAreAccepted_bcast : ∃ (s : State) (q : Turn) (ps : List (Loc × Nat)), Ok s q (.bcast 8 0) ∧ q.g.kind = .team ∧
    s.Block q.g 0 (q.g.sget 8).toNat 32 (physKey 0x10060) ∧ lowest (q.takes (.bcast 8 0)) = 0 ∧
    Bytes.num s.byte (physKey 0x10060) 8 = 0x12000 ∧ Bytes.num s.byte (physKey 0x10060 + 32) 8 = 0x200 ∧
    Bytes.num s.byte (physKey 0x10060 + 64) 4 = 1024 ∧ Bytes.num s.byte (physKey 0x10060 + 96) 8 = 0 ∧ 0x200 + 1024 ≤ (s.teamOf q.g).scr ∧
    s.checkRangeBy (s.copyAcc q.g) q.g 0 0x12000 1024 .load = .ok ps ∧ checkBitmap (s.teamOf q.g) 1024 0xFFFFFFFF = .ok none :=
  ⟨world copier descriptors, turn copier, [(.here (physKey 0x12000), 1024)], ok_of (by decide +kernel), rfl,
    block_of (by decide +kernel), yes (by haveI := @exDec; infer_instance) (by decide +kernel)⟩
/-- An earlier store of lane 1 waits at a pin, and then at a GO word. -/
def behind (e : Bool) : Group := { copier with live := 3, waits := [aWait 0x40 2 (if e then .go [] else .pin []) (.st32 4 6 0 0)] }
theorem wit_CopiesAreAccepted_held : ∃ (s r : State) (q p : Turn), Ok s q (.bcopy 9 0) ∧ Ok s q (.bcast 9 0) ∧ s.Block q.g 0 (q.g.sget 9).toNat 32 (physKey 0x10040) ∧
    s.storeHeld q ∧ Ok r p (.bcopy 9 0) ∧ r.storeHeld p ∧ r.Block p.g 0 (p.g.sget 9).toNat 32 (physKey 0x10040) :=
  let q (e : Bool) : Turn := { (turn (behind e)) with lanes := 1 }
  let s (e : Bool) : State := { (world (behind e) descriptors) with cur := some { gid := 1, pc := 0, lanes := 1, wait := 0 } }
  ⟨s false, s true, q false, q true, ok_of (by decide +kernel), ok_of (by decide +kernel), block_of (by decide +kernel),
    ⟨aWait 0x40 2 (.pin []) (.st32 4 6 0 0), by decide +kernel, by decide +kernel, .inl ⟨_, rfl⟩⟩, ok_of (by decide +kernel),
    ⟨aWait 0x40 2 (.go []) (.st32 4 6 0 0), by decide +kernel, by decide +kernel, .inr ⟨_, rfl⟩⟩, block_of (by decide +kernel)⟩
theorem wit_CopiesAreAccepted_stage : ∃ (s : State) (q : Turn) (ps pd : List (Loc × Nat)) (t : Team), Ok s q (.stage 0) ∧ q.g.kind = .team ∧
    s.teams.get? q.g.team = some t ∧ q.g.waits = [] ∧ (s.gridOf q.g).r.schedp = 0x10080 ∧ t.cursor % (s.gridOf q.g).cs.n = 0 ∧
    s.Block q.g 0 ((0x10080 + 0x20 + 32 * 0) % 2 ^ 64) 32 (physKey 0x100A0) ∧ lowest (q.takes (.stage 0)) = 0 ∧
    Bytes.num s.byte (physKey 0x100A0) 8 = 0x12000 ∧ Bytes.num s.byte (physKey 0x100A0 + 32) 4 = 0x200 ∧
    Bytes.num s.byte (physKey 0x100A0 + 48) 4 = 1024 ∧ Bytes.num s.byte (physKey 0x100A0 + 80) 12 = 0 ∧ 0x200 + 1024 ≤ t.scr ∧
    s.checkRangeBy (s.copyAcc q.g) q.g 0 0x12000 1024 .load = .ok ps ∧ s.checkRangeBy (s.copyAcc q.g) q.g 0 0xFE00000000000200 1024 .store = .ok pd ∧
    checkBitmap t 1024 (Bytes.num s.byte (physKey 0x100A0 + 64) 4) = .ok none :=
  ⟨{ (world copier descriptors) with grids := [(1, { grid with r := { grid.r with schedp := 0x10080 } })] }, turn copier,
    [(.here (physKey 0x12000), 1024)], [(.here (scrKey 2 0x200), 1024)], team, ok_of (by decide +kernel), rfl, rfl, rfl, by decide +kernel,
    by decide +kernel, block_of (by decide +kernel), yes (by haveI := @exDec; infer_instance) (by decide +kernel)⟩
theorem wit_CopiesWriteTheirChunks : ∃ (s : State) (q : Turn) (src dst : Nat → Loc), Ok s q (.lda 8 6 0) ∧
    ∀ l < 32, q.takes (.lda 8 6 0) l = true →
      windowOf (q.w 8 l).toNat ≠ .prv ∧ windowOf (q.w 6 l).toNat ≠ .prv ∧ windowOf (q.w 6 l).toNat ≠ .clu ∧
      s.checkAddrBy (s.copyAcc q.g) q.g l (q.w 6 l).toNat 16 16 .load = .ok (src l) ∧ s.checkAddrBy (s.copyAcc q.g) q.g l (q.w 8 l).toNat 16 16 .store = .ok (dst l) :=
  ⟨memory, turn addressed, fun _ => .here (physKey 0x10040), fun _ => .here (physKey 0x10080), ok_of (by decide +kernel),
    yes (by haveI := @exDec; infer_instance) (by decide +kernel)⟩
theorem wit_CopiesWriteTheirChunks_chunks : ∃ (s : State) (c : Copy) (a b : Nat) (g : Group), s.eng.copies.find? (fun x => x.id == c.id) = some c ∧
    1 ∈ c.left ∧ c.left.Nodup ∧ c.cap = none ∧ c.src = [{ key := a, len := c.n }] ∧ c.dst = [{ key := b, len := c.n }] ∧
    s.groups.get? c.gid = some g ∧ g.place = .resident ∧ s.active (s.gridOf g) = true ∧ 1 ∉ c.bits ∧ s.storesBefore c.gid c.id = false ∧ 512 * 1 < c.n ∧ isAway (b + 4 * (512 * 1)) = false ∧
    s.pinned (b + 4 * (512 * 1)) (min 512 (c.n - 512 * 1)) = false :=
  ⟨{ (world group []) with eng := { State.reset.eng with copies := [copy 4 0] } }, copy 4 0, physKey 0x10000, physKey 0x12000, group, by decide +kernel⟩
/-- An engine instruction that pins the second chunk of that copy. -/
def pinning : MxOp :=
  { seq := 0, team := 1, gid := 1, core := 0, pinFlag := true, chain := 0, tainted := false,
    rows := [(true, [[{ key := physKey 0x12200, len := 64 }]])], kind := .issue 0 0 0 1 32 true 0 none none [] [] 0 }
theorem wit_CopiesWriteTheirChunks_pinned : ∃ (s : State), s.eng.copies = [copy 4 0] ∧ s.pinned (physKey 0x12000 + 4 * 512) 512 = true :=
  ⟨{ (world group []) with eng := { State.reset.eng with copies := [copy 4 0], ops := [pinning] } }, by decide +kernel⟩
/-- A bitmap's word that is pinned, and one that is not. -/
theorem wit_CopiesWriteTheirChunks_bits : ∃ (s : State) (c : Copy), s.eng.copies = [c] ∧ c.bitmap = some (scrKey 2 0x40) ∧
    s.pinned (scrKey 2 0x40 + 32 * (1 / 64)) 8 = false ∧ ∃ r : State, r.eng.copies = [c] ∧ r.pinned (scrKey 2 0x40 + 32 * (1 / 64)) 8 = true :=
  let c := { (copy 4 0) with bitmap := some (scrKey 2 0x40) }
  ⟨{ (world group []) with eng := { State.reset.eng with copies := [c] } }, c, rfl, rfl, by decide +kernel,
    { (world group []) with eng := { State.reset.eng with
      copies := [c]
      ops := [{ pinning with rows := [(true, [[{ key := scrKey 2 0x40, len := 64 }]])] }] } }, rfl, by decide +kernel⟩
theorem wit_PowerGrants : ∃ (s t : State) (x : Nat × Holder × Nat), s.eng.asking.find? (fun y => y.1 == 0) = some x ∧
    (s.eng.grants.filter (fun y => y.1 == 0)).length < max 1 (min 48 ((s.ctlGet .pwrGrants 0).toNat % 256)) ∧
    t.eng.asking.find? (fun y => y.1 == 0) = some x ∧ max 1 (min 48 ((t.ctlGet .pwrGrants 0).toNat % 256)) ≤ (t.eng.grants.filter (fun y => y.1 == 0)).length :=
  let s : State := { State.reset with eng := { State.reset.eng with asking := [(0, .engine 3, 5)] } }
  ⟨s, ({ s with eng := { s.eng with grants := [(0, .engine 4)] } }).ctlSet .pwrGrants 0 0, (0, .engine 3, 5), by decide +kernel⟩
theorem wit_PowerGrants_return : ∃ (s : State) (since : Nat), ((0 : Nat), Holder.engine 0) ∈ s.eng.grants ∧ (∀ o ∈ s.eng.ops, o.core = 0 → o.complete = true) ∧
    (∀ e ∈ s.groups, e.2.core = 0 → ∀ w ∈ e.2.waits, ∀ i, w.why ≠ .mxAccept i) ∧ s.eng.idle.get? 0 = some since ∧ since + 4800 ≤ s.env.cycle :=
  by
  let s : State := { (world group []) with eng := { State.reset.eng with grants := [(0, .engine 0)], idle := [(0, 995200)] } }
  have h : ∀ e ∈ s.groups, e.2.waits = [] := by decide +kernel
  exact ⟨s, 995200, by decide +kernel, by decide +kernel, fun e he _ w hw => absurd (h e he ▸ hw) (by simp), by decide +kernel, by decide +kernel⟩

/-- A parameter block at 0x10040: FP16 by FP16 into FP32 over tile 1, K = 32; A at 0x12000, B at 0x13000, rows 64 bytes apart; the program
STORE at 0x14000, the output at 0x15000, its rows 128 bytes apart. -/
def mxMem : List (Nat × Nat × Nat) :=
  [(physKey 0x10040, 64, 32 * 2 ^ 32 + 0x12000 * 2 ^ 64 + (64 + 64 * 2 ^ 32) * 2 ^ 128 + 0x13000 * 2 ^ 192 + 1 * 2 ^ 256 + 0x14000 * 2 ^ 320 +
     0x15000 * 2 ^ 384 + 128 * 2 ^ 448), (physKey 0x14000, 32, 0xC000)]
/-- The state in which the baton's holder issues, the engine having a grant and the instructions `ops`. -/
def mxWorld (t : Team) (ops : List MxOp) (g : Group) : State := { (worldT t g mxMem) with
  eng := { State.reset.eng with
    grants := [(0, .engine 0)]
    ops := ops } }
/-- The decidable content of State.Feeds. -/
theorem feeds_of {s : State} {q : Turn} {i : Instr} {t : Team} (h : Ok s q i) (hk : q.g.kind = .team) (ht : s.teams.get? q.g.team = some t)
    (hb : t.holder = some q.gid) (hf : t.fed = true) (hw : q.g.waits = []) : s.Feeds q i t :=
  { h.1 with
    acts := h.2
    kind := hk
    team := ht
    baton := hb
    fed := .inl hf
    first := by
      rw [hw]
      intro _ hx
      cases hx }
theorem wit_IssuesAreCaptured : ∃ (s : State) (q : Turn) (t : Team) (x : MxKind × List (Bool × List (List Seg)) × Bool), s.Feeds q (.mxissue 0 9 0 0) t ∧ q.g.waits = [] ∧
    s.Block q.g (lowest (q.takes (.mxissue 0 9 0 0))) (q.g.sget 9).toNat 64 (physKey 0x10040) ∧
    s.mxIssueCheck q.g (lowest (q.takes (.mxissue 0 9 0 0))) 0 (q.g.sget 9).toNat 0 = .ok x ∧
    (q.g.core / 48, Holder.engine q.g.core) ∈ s.eng.grants ∧
    ((s.mxQueue q.g.team).filter (fun o => match o.kind with | .issue .. => true | _ => false)).length < 8 ∧
    (∀ r < 32, s.checkRange q.g (lowest (q.takes (.mxissue 0 9 0 0))) ((0x12000 + r * 64) % 2 ^ 64) 64 .load = .ok [(.here (physKey (0x12000 + r * 64)), 64)]) := by
  obtain ⟨x, hx⟩ := some_ok (r := (mxWorld fed [] copier).mxIssueCheck copier (lowest ((turn copier).takes (.mxissue 0 9 0 0))) 0 (copier.sget 9).toNat 0)
    (by decide +kernel)
  exact ⟨mxWorld fed [] copier, turn copier, fed, x, feeds_of (ok_of (by decide +kernel)) rfl rfl rfl rfl rfl, rfl, block_of (by decide +kernel), hx,
    by decide +kernel, by decide +kernel, yes (by haveI := @exDec; infer_instance) (by decide +kernel)⟩
/-- No grant: the issue waits. No baton: it ends its group. -/
theorem wit_IssuesAreCaptured_waits : (∃ (s : State) (q : Turn), s.Feeds q (.mxissue 0 9 0 0) fed ∧ s.eng.grants = []) ∧
    ∃ (s : State) (q : Turn) (t : Team), Ok s q (.mxissue 0 9 0 0) ∧ q.g.kind = .team ∧ s.teams.get? q.g.team = some t ∧ t.holder ≠ some q.gid :=
  ⟨⟨worldT fed copier mxMem, turn copier, feeds_of (ok_of (by decide +kernel)) rfl rfl rfl rfl rfl, rfl⟩,
    mxWorld team [] copier, turn copier, team, ok_of (by decide +kernel), by decide +kernel⟩
theorem wit_IssuesAreCaptured_accept : ∃ (s : State) (h : Group) (w : Wait) (x : MxKind × List (Bool × List (List Seg)) × Bool), s.groups.get? 1 = some h ∧ h.waits = [w] ∧
    w.why = .mxAccept (.mxissue 0 9 0 0) ∧ h.kind = .team ∧ s.teams.get? h.team = some fed ∧ fed.fed = true ∧ s.active (s.gridOf h) = true ∧
    (h.core / 48, Holder.engine h.core) ∈ s.eng.grants ∧ s.eng.ops = [] ∧
    (∀ r ∈ readsOf (.mxissue 0 9 0 0), r ∉ h.poison) ∧
    s.mxIssueCheck h (lowest (fun l => w.lanes.getLsbD l)) 0 (if (9 : BitVec 6) = 0 then 0 else (w.snap.getD 9 0).toNat) 0 = .ok x ∧ w.lanes ≠ 0 := by
  let w : Wait := { (aWait 0 1 (.mxAccept (.mxissue 0 9 0 0)) (.mxissue 0 9 0 0)) with snap := [(9, 0x10040)] }
  let h : Group := { copier with waits := [w] }
  obtain ⟨x, hx⟩ := some_ok (r := (mxWorld fed [] h).mxIssueCheck h (lowest (fun l => w.lanes.getLsbD l)) 0 (if (9 : BitVec 6) = 0 then 0 else (w.snap.getD 9 0).toNat) 0) (by decide +kernel)
  exact ⟨mxWorld fed [] h, h, w, x, by decide +kernel, rfl, rfl, rfl, rfl, rfl, by decide +kernel, by decide +kernel, rfl,
    by decide +kernel, hx, by decide +kernel⟩
/-- An issue at the engine: FP16, K = 64, one k-step done or none. -/
def issued (k done : Nat) : MxOp :=
  { seq := 0, team := 1, gid := 1, core := 0, rows := [], pinFlag := false, chain := 0, tainted := false,
    kind := .issue 0 0 0 1 k true 0 none none (List.replicate (32 * k) 0x3C00) (List.replicate (32 * k) 0x3C00) done }
theorem wit_TilesAndChains : (∃ (s : State) (q : Turn), s.Feeds q (.mxchain 0) fed ∧ s.Feeds q (.mxend 0) fed ∧ s.Feeds q (.mxzero 1 0) fed ∧ s.Feeds q (.mxwr 8 3 1 0) fed ∧
      s.Feeds q (.mxrd 8 3 1 0) fed ∧ fed.chain = none ∧ s.mxQueue q.g.team = [] ∧ 7 ∉ fed.poisonCols ∧ q.g.waits = [] ∧ (∀ p ∈ q.g.pend, p.id < s.env.fresh)) ∧
    (∃ (s : State) (q : Turn) (t : Team), s.Feeds q (.mxchain 0) t ∧ s.Feeds q (.mxend 0) t ∧ t.chain ≠ none ∧ (s.eng.ops.map (fun o => (o.team, o.seq))).Nodup) ∧
    (∃ (s : State) (q : Turn) (t : Team), s.Feeds q (.mxrd 8 3 1 0) t ∧ 7 ∈ t.poisonCols) :=
  ⟨⟨mxWorld fed [] copier, turn copier, feeds_of (ok_of (by decide +kernel)) rfl rfl rfl rfl rfl, feeds_of (ok_of (by decide +kernel)) rfl rfl rfl rfl rfl,
      feeds_of (ok_of (by decide +kernel)) rfl rfl rfl rfl rfl, feeds_of (ok_of (by decide +kernel)) rfl rfl rfl rfl rfl,
      feeds_of (ok_of (by decide +kernel)) rfl rfl rfl rfl rfl, by decide +kernel⟩,
    ⟨mxWorld { fed with chain := some 0 } [issued 64 0] copier, turn copier, { fed with chain := some 0 },
      feeds_of (ok_of (by decide +kernel)) rfl rfl rfl rfl rfl, feeds_of (ok_of (by decide +kernel)) rfl rfl rfl rfl rfl, by decide +kernel⟩,
    mxWorld { fed with poisonCols := [7] } [] copier, turn copier, { fed with poisonCols := [7] },
      feeds_of (ok_of (by decide +kernel)) rfl rfl rfl rfl rfl, by decide +kernel⟩
theorem wit_TilesAndChains_works : ∃ (s : State) (q : Turn), s.Feeds q (.mxzero 1 0) fed ∧ s.Feeds q (.mxrd 8 3 1 0) fed ∧ s.engineWorks q.g.team :=
  ⟨mxWorld fed [issued 64 0] copier, turn copier, feeds_of (ok_of (by decide +kernel)) rfl rfl rfl rfl rfl,
    feeds_of (ok_of (by decide +kernel)) rfl rfl rfl rfl rfl, issued 64 0, [], rfl, .inl ⟨_, _, _, _, _, _, _, _, _, _, _, _, rfl⟩⟩
theorem wit_TilesAndChains_drain : ∃ (s : State) (q : Turn) (k : MxKind), s.Feeds q (.mxdrain 9 0) fed ∧ q.g.waits = [] ∧
    s.mxDrainCheck q.g (lowest (q.takes (.mxdrain 9 0))) (q.g.sget 9).toNat = .ok k := by
  obtain ⟨x, hx⟩ := some_ok (r := (mxWorld fed [] copier).mxDrainCheck copier (lowest ((turn copier).takes (.mxdrain 9 0))) (copier.sget 9).toNat)
    (by decide +kernel)
  exact ⟨mxWorld fed [] copier, turn copier, x, feeds_of (ok_of (by decide +kernel)) rfl rfl rfl rfl rfl, rfl, hx⟩
theorem wit_TilesAndChains_wait : ∃ (s : State) (q : Turn), Ok s q (.mxwait 0) ∧ q.g.waits = [] ∧ q.g.kind = .team ∧
    (∃ o ∈ s.mxQueue q.g.team, o.seq < (s.teamOf q.g).mxSeq) ∧ Ok (world group []) (turn group) (.mxwait 0) ∧ (world group []).mxQueue 1 = [] :=
  ⟨mxWorld { fed with mxSeq := 1 } [issued 64 0] copier, turn copier, ok_of (by decide +kernel), rfl, rfl, ⟨issued 64 0, by decide +kernel⟩,
    ok_of (by decide +kernel), by decide +kernel⟩
theorem wit_IssuesAreCaptured_held : ∃ (s : State) (q : Turn), s.Feeds q (.mxissue 0 9 0 0) fed ∧ s.storeHeld q :=
  ⟨{ (mxWorld fed [] (behind true)) with cur := some { gid := 1, pc := 0, lanes := 1, wait := 0 } }, { (turn (behind true)) with lanes := 1 },
    { (issues_of (by decide +kernel) : State.Issues _ _ _) with
      acts := acts_of (by decide +kernel)
      kind := rfl
      team := rfl
      baton := rfl
      fed := .inl rfl
      first := by
        intro w hw
        have h : w = aWait 0x40 2 (.go []) (.st32 4 6 0 0) := List.mem_singleton.1 hw
        subst h
        exact nofun },
    aWait 0x40 2 (.go []) (.st32 4 6 0 0), by decide +kernel, by decide +kernel, .inr ⟨_, rfl⟩⟩
/-- Products of FP16: numbers, one of them scaled; an infinity; a NaN; and an infinity times zero. -/
theorem wit_KStepSumsAreExact :
    let num : List Product := [⟨0x3C00, 0xBC01, none, none⟩, ⟨1, 0x7BFF, some 0x10, none⟩]
    (∀ p ∈ num, p.a < 2 ^ 16 ∧ p.b < 2 ^ 16 ∧ p.sa.getD 0 < 256 ∧ p.sb.getD 0 < 256 ∧ p.isNum .f16 .f16 = true ∧ p.tooLarge .f16 .f16 = false) ∧
    Fmt.f32.isFinite 0x80000000 = true ∧ (Product.mk 0x7C00 0x3C00 none none).isInf .f16 .f16 false = true ∧
    (Product.mk 0x3C00 0xBC00 (some 0xFE) (some 0x81)).isInf .f16 .f16 true = true ∧
    (Product.mk 0x7C00 0 none none).nan .f16 .f16 = true ∧ (Product.mk 0x3C00 0x3C00 (some 0xFF) none).nan .f16 .f16 = true ∧
    (Product.mk 0x8000 0x3C00 none none).term .f16 .f16 = 0 ∧ (Product.mk 0x8000 0x3C00 none none).minus .f16 .f16 = true := by decide +kernel
theorem wit_StepsOfTheEngine : ∃ (s : State) (t : Team) (o : MxOp) (k : Nat), s.teams.get? 1 = some t ∧ s.mxQueue 1 = [o] ∧ (s.eng.ops.map (fun o => (o.team, o.seq))).Nodup ∧
    o.kind = .issue 0 0 0 1 k true 0 none none (List.replicate (32 * k) 0x3C00) (List.replicate (32 * k) 0x3C00) 1 ∧ o.tainted = false ∧
    s.active (s.teamGrid t) = true ∧ kStep 0 0 0 = some 32 ∧ (1 + 1) * 32 ≤ k ∧ (∀ e ∈ s.groups, e.2.team = 1 → e.2.place ≠ .saving) :=
  ⟨mxWorld fed [issued 64 1] copier, fed, issued 64 1, 64, rfl, rfl, by decide +kernel, rfl, rfl, by decide +kernel, by decide +kernel, by decide +kernel, by decide +kernel⟩
/-- A drain of tile 1 at the engine: RELU and STORE to page 0x15, no data. -/
def draining : MxOp :=
  { seq := 0, team := 1, gid := 1, core := 0, rows := [], pinFlag := false, chain := 0, tainted := false,
    kind := .drain 0 1 [0x7000, 0xC000] [] ((List.range 32).map (fun i => [{ key := physKey (0x15000 + 128 * i), len := 128 }])) }
theorem wit_DrainsStoreRows : ∃ (s : State) (t : Team) (g : Group), s.teams.get? 1 = some t ∧ s.mxQueue 1 = [draining] ∧
    s.active (s.teamGrid t) = true ∧ (∀ e ∈ s.groups, e.2.team = 1 → e.2.place ≠ .saving) ∧ s.groups.get? 1 = some g ∧ g.place = .resident ∧
    (∀ i < 32, isAway (physKey (0x15000 + 128 * i)) = false) ∧ (∀ c ∈ t.poisonCols, c / 4 ≠ 1) ∧
    ∀ i < 32, s.pinned (physKey (0x15000 + 128 * i)) 128 = false :=
  ⟨mxWorld fed [draining] copier, fed, copier, by decide +kernel⟩
theorem wit_DrainsStoreRows_pinned : ∃ (s : State) (o : MxOp), s.mxQueue 1 = [draining] ∧ o ∈ s.eng.ops ∧ o.team ≠ 1 ∧ s.pinned (physKey 0x15000) 128 = true :=
  let o := { pinning with team := 2, rows := [(true, [[{ key := physKey 0x15000, len := 64 }]])] }
  ⟨mxWorld fed [draining, o] copier, o, by decide +kernel⟩
/-- Open bytes, pinned ones, an address that does not translate, and a write that waits at a pin, and no longer. -/
theorem wit_LateWritesAreMade : ∃ (s r : State) (a : Acc) (f : FaultInfo) (e : LateW), s.translate a .store 0x12200 = .ok (.here (physKey 0x12200)) ∧
    s.openTo (physKey 0x12200) 8 ∧ r.translate a .store 0x12200 = .ok (.here (physKey 0x12200)) ∧ ¬ r.openTo (physKey 0x12200) 8 ∧
    s.translate a .store 0x90000 = .error f ∧ r.msys.late = [e] ∧ r.pinned e.key e.n = true ∧ ({ r with eng := State.reset.eng } : State).pinned e.key e.n = false := by
  let s := world group []
  let e : LateW := { part := 0, key := physKey 0x12200, n := 8, w := 5, add := true }
  let r := { s with
    eng := { s.eng with ops := [pinning] }
    msys := { s.msys with late := [e] } }
  let a : Acc := { walker with root := 2 ^ 47, owner := 1 }
  refine ⟨s, r, a, { code := 0x07, addr := 0x90000, detail := 4 }, e, ?_⟩
  simp only [State.openTo]
  exact yes (by haveI := @exDec; infer_instance) (by decide +kernel)

/-! ## Launches, grids, teams, tasks, parking -/

/-- A context whose regions have room. -/
def ctx : Ctx :=
  { park := 0x1000000, priv := { base := 0x2000000, size := 0x1000000, used := 0 }, hold := { base := 0x3000000, size := 0x100000, used := 0 },
    save := { base := 0x18000, size := 0x8000, used := 0 } }
/-- A launch record: code at 0x20000, one team of one group, budget 64, completion word at 0x13000, fault area at 0x14000, header at 0x16000. -/
def record : Nat := 0x20000 + 1 * 2 ^ 128 + 1 * 2 ^ 160 + 1 * 2 ^ 176 + (1 + 64 * 2 ^ 16) * 2 ^ 192 + 0x13000 * 2 ^ 448 + 0x14000 * 2 ^ 512 +
  0x16000 * 2 ^ 576
def launchMem : List (Nat × Nat × Nat) := [(physKey 0x10080, 128, record), (physKey 0x16000, 64, 1)]
/-- s9 names the record. -/
def launcher : Group := Ss [(9, 0x10080)] (one group)
/-- A world with a context, in which something of the dispatchers stands. -/
def dispWorld (g : Group) (m : List (Nat × Nat × Nat)) (f : Disp → Disp) : State :=
  { (world g m) with disp := f { State.reset.disp with ctxs := [(0, ctx)] } }
/-- An entry of core 0's queue for that record. -/
def entry : LEntry := { core := 0, addr := 0x10080, gid := 1, pend := 3, pod := false, grid := 1, asid := 0, strict := false, task := false, owner := 1 }
/-- How the dispatcher reads for it. -/
def entryAcc (e : LEntry) : Acc := { grid.acc e.grid with
  asid := e.asid
  strict := e.strict
  task := e.task
  owner := e.owner }
theorem wit_LaunchesAreAccepted : ∃ (s : State) (q : Turn) (loc : Loc), Ok s q (.launch 5 9 0) ∧ Ok s q (.launchp 5 9 0) ∧ q.g.kind ≠ .callout ∧
    s.preempting q.g = false ∧ (s.gridOf q.g).killed = false ∧ windowOf (q.g.sget 9).toNat = .glb ∧
    s.checkAddr q.g (lowest (q.takes (.launch 5 9 0))) (q.g.sget 9).toNat 128 128 .load = .ok loc ∧
    (s.disp.lq.filter (fun e => e.core == q.g.core)).length < 4 ∧ q.Performed (.launch 5 9 0) False ∧ q.Performed (.launchp 5 9 0) True :=
  ⟨world launcher launchMem, turn launcher, .here (physKey 0x10080), ok_of (by decide +kernel), ok_of (by decide +kernel), by decide +kernel,
    by decide +kernel, by decide +kernel, by decide +kernel, yes (by haveI := @exDec; infer_instance) (by decide +kernel), by decide +kernel,
    performed_of rfl rfl, performed_of rfl rfl⟩
/-- A lane's remote write is not acknowledged: LAUNCHP waits for it. -/
theorem wit_LaunchesAreAccepted_unperformed : ∃ (s : State) (q : Turn), Ok s q (.launchp 5 9 0) ∧ ¬ q.Performed (.launchp 5 9 0) True :=
  let g := { launcher with unacked := [(0, 0, 7)] }
  ⟨world g launchMem, turn g, ok_of (by decide +kernel), fun p => absurd (p.2 trivial (0, 0, 7) (List.mem_singleton.2 rfl)) (by decide +kernel)⟩
theorem wit_LaunchesAreAccepted_full : ∃ (s : State) (q : Turn), Ok s q (.launch 5 9 0) ∧ 4 ≤ (s.disp.lq.filter (fun e => e.core == q.g.core)).length :=
  ⟨dispWorld launcher launchMem (fun d => { d with lq := List.replicate 4 entry }), turn launcher, ok_of (by decide +kernel), by decide +kernel⟩
/-- The group whose launch id is pending. -/
def launching : Group := { launcher with pend := [{ result with src := .launch, regs := [], writes := [], sreg := some 5, lanes := BitVec.allOnes 32 }] }
/-- The state in which the launch check runs: the record read, its words cleared. -/
def checking (s : State) (e : LEntry) (w : Nat) : State :=
  let own : Acc := { entryAcc e with strict := false }
  let r := recordOf e.addr w
  ((((s.sawAll (entryAcc e) [(e.addr, 128)]).useFree 1).lateWrite own r.cw 8 0).lateWrite own (e.addr + 0x70) 8
    (s.self * 2 ^ 52 + s.disp.seq % 2 ^ 52)).lateWords own r.fa (List.replicate 8 0)
theorem wit_LaunchesAreAccepted_accept : ∃ (s : State) (x : Hdr × Sched), s.nextAwaiting 0 = none ∧ s.nextEntry 0 = some entry ∧
    s.grids.get? entry.grid = some grid ∧ s.readVa (entryAcc entry) entry.addr 128 128 = .ok record ∧
    (let r := recordOf entry.addr record
     s.writable { entryAcc entry with strict := false } r.cw 8 8 = true ∧ s.writable { entryAcc entry with strict := false } r.fa 2112 64 = true ∧
     entry.pod = false ∧ r.pod = false ∧ r.holdp = 0 ∧ r.coRes = false ∧ (checking s entry record).launchCheck (entryAcc entry) record r true = .ok x) ∧
    ∃ g p, s.groups.get? entry.gid = some g ∧ p ∈ g.pend ∧ p.id = entry.pend := by
  let s := dispWorld launching launchMem (fun d => { d with lq := [entry] })
  obtain ⟨x, hx⟩ := some_ok (r := (checking s entry record).launchCheck (entryAcc entry) record (recordOf entry.addr record) true) (by decide +kernel)
  exact ⟨s, x, by decide +kernel, by decide +kernel, rfl, yes (by haveI := @exDec; infer_instance) (by decide +kernel),
    ⟨by decide +kernel, by decide +kernel, rfl, by decide +kernel, by decide +kernel, by decide +kernel, hx⟩, launching,
    { result with src := .launch, regs := [], writes := [], sreg := some 5, lanes := BitVec.allOnes 32 }, by decide +kernel⟩
/-- An entry whose record cannot be read, and one whose completion word cannot be written. -/
theorem wit_LaunchesAreAccepted_dropped : ∃ (s t : State) (e d : LEntry) (f : FaultInfo) (w : Nat), s.nextAwaiting 0 = none ∧ s.nextEntry 0 = some e ∧
    s.grids.get? e.grid = some grid ∧ s.readVa (entryAcc e) e.addr 128 128 = .error f ∧
    t.nextAwaiting 0 = none ∧ t.nextEntry 0 = some d ∧ t.readVa (entryAcc d) d.addr 128 128 = .ok w ∧
    t.writable { entryAcc d with strict := false } (recordOf d.addr w).cw 8 8 = false :=
  ⟨dispWorld launcher launchMem (fun d => { d with lq := [{ entry with addr := 0x10081 }] }),
    dispWorld launcher [(physKey 0x10080, 128, record + 4 * 2 ^ 448), (physKey 0x16000, 64, 1)] (fun d => { d with lq := [entry] }),
    { entry with addr := 0x10081 }, entry, { code := 3, addr := 0x10081, detail := 128 }, record + 4 * 2 ^ 448,
    yes (by haveI := @exDec; infer_instance) (by decide +kernel)⟩
/-- A space of partition 0, and pages that grid `id` holds, each at itself. -/
def spaced (id : Nat) (m : List (Nat × Nat × Nat)) : State := { (State.reset.ctlSet .fabDomain 0 (2 ^ 63)) with
  mem := filled m
  disp := { State.reset.disp with ctxs := [(0, ctx)] }
  mmu := { State.reset.mmu with
    spaces := [(0, { root := 0x1000, ring := 0x17000, part := 0, ctx := 0 })]
    held := (List.range 24).map (fun i => page id (16 + i) (16 + i)) }
  env := { State.reset.env with
    cycle := 1000000
    fresh := 10 } }
/-- The id of a grid that part 5 launched. -/
def farId : Nat := 5 * 2 ^ 52 + 7
theorem wit_ThePodWideStart : ∃ (s : State) (rec : List Nat) (sp : Nat × Space) (x : Hdr × Sched), s.grids.get? farId = none ∧ farId / 2 ^ 52 = 5 ∧
    s.mmu.spaces.find? (fun e => e.1 % 65536 == 0 % 65536 && e.2.root == 0x1000) = some sp ∧ (s.ctlGet .fabDomain 0).getLsbD 63 = true ∧
    (let w := (rec.drop 1).zipIdx.foldl (fun x q => x + q.1 % 2 ^ 64 * 2 ^ (64 * q.2)) 0
     let r := recordOf (rec.headD 0) w
     let acc : Acc := { place := 204, core := 4096, asid := 0, root := 0x1000, part := sp.2.part, strict := false, task := false, owner := farId }
     w = record ∧ r.holdp = 0 ∧ r.coRes = false ∧ (s.useFree 1).launchCheck acc w r true = .ok x) := by
  let rec_ : List Nat := 0x10080 :: (List.range 16).map (fun i => record / 2 ^ (64 * i) % 2 ^ 64)
  let acc : Acc := { place := 204, core := 4096, asid := 0, root := 0x1000, part := 0, strict := false, task := false, owner := farId }
  obtain ⟨x, hx⟩ := some_ok (r := ((spaced farId launchMem).useFree 1).launchCheck acc
    ((rec_.drop 1).zipIdx.foldl (fun x q => x + q.1 % 2 ^ 64 * 2 ^ (64 * q.2)) 0)
    (recordOf (rec_.headD 0) ((rec_.drop 1).zipIdx.foldl (fun x q => x + q.1 % 2 ^ 64 * 2 ^ (64 * q.2)) 0)) true) (by decide +kernel)
  exact ⟨spaced farId launchMem, rec_, (0, { root := 0x1000, ring := 0x17000, part := 0, ctx := 0 }), x, by decide +kernel, by decide +kernel, rfl,
    by decide +kernel, by decide +kernel, by decide +kernel, by decide +kernel, hx⟩
/-- A record whose header is bad: it is refused. -/
theorem wit_ThePodWideStart_refuses : ∃ (s : State) (acc : Acc) (f : FaultInfo),
    (s.useFree 1).launchCheck acc record (recordOf 0x10080 record) true = .error f :=
  ⟨spaced farId [(physKey 0x16000, 64, 2)], { place := 204, core := 4096, asid := 0, root := 0x1000, part := 0, strict := false, task := false, owner := farId },
    { code := 1, addr := 0, detail := 0 }, yes (by haveI := @exDec; infer_instance) (by decide +kernel)⟩
/-- A grid that waits for replies here, and one reserved here for part 5. -/
def asking : Grid := { podGrid with state := .replies }
theorem wit_ThePodWideStart_replies : ∃ (s : State), s.grids.get? 1 = some asking ∧ asking.launcher = true ∧ asking.gang = false ∧
    asking.cancelled = false ∧ 1 ∈ s.otherParts asking ∧ (∀ r ∈ asking.replies, r.1 ≠ 1) ∧
    (∀ i < asking.r.partCount, asking.r.firstPart + i = 1 ∨ asking.r.firstPart + i = s.self ∨ (asking.r.firstPart + i, 1) ∈ asking.replies) ∧
    asking.sent + 120000 ≤ s.env.cycle ∧ s.translate (asking.acc 1) .store asking.r.cw = .ok (.here (physKey 0x10000)) :=
  ⟨worldOf asking group, yes (by haveI := @exDec; infer_instance) (by decide +kernel)⟩
/-- Every part of the grid has answered but part 1. -/
theorem wit_ThePodWideStart_all : let g := { asking with replies := [(0, 1)] }
    ∀ i < g.r.partCount, g.r.firstPart + i = 1 ∨ (g.r.firstPart + i, 1) ∈ g.replies := by decide +kernel
theorem wit_ThePodWideStart_named : ∃ (s : State) (g : Grid), s.grids.get? farId = some g ∧ g.launcher = false ∧ g.state = .reserved :=
  let g := { podGrid with launcher := false, state := .reserved }
  ⟨{ (spaced farId []) with grids := [(farId, g)] }, g, by decide +kernel⟩
/-- A grid with tickets 0 to 3 on die 0. -/
def ticketed : Grid := { grid with tickets := [(0, 4), (4, 4), (4, 4), (4, 4)], r := { grid.r with x := 4 } }
theorem wit_TeamsBegin : ∃ (s : State) (q0 : Nat), s.grids.get? 1 = some ticketed ∧ s.dispatches ticketed = true ∧ (5 : Nat) ∈ s.coresOf ticketed.part ∧
    s.itemFirst 5 ticketed.r.prio = false ∧ ticketed.r.coRes = false ∧ ticketed.r.cset = 1 ∧ ticketed.tickets.getD (5 / 48) (0, 0) = (0, 4) ∧ 0 < ticketed.teams ∧ s.fit ticketed 5 = some q0 :=
  ⟨{ (dispWorld group [] id) with grids := [(1, ticketed)] }, 0, by decide +kernel⟩
theorem wit_TeamsBegin_reserved : ∃ (s : State) (g : Grid), s.grids.get? 1 = some g ∧ s.dispatches g = true ∧ (5 : Nat) ∈ s.coresOf g.part ∧
    s.itemFirst 5 g.r.prio = false ∧ g.r.coRes = true ∧ g.reserved.find? (fun x => x.2 / 4 == 5) = some (2, 21) ∧
    ∀ x ∈ g.reserved.filter (fun x => decide (x.1 / g.r.cset = 2 / g.r.cset)), s.itemFirst (x.2 / 4) g.r.prio = false :=
  let g := { grid with r := { grid.r with coRes := true }, reserved := [(2, 21)] }
  ⟨{ (dispWorld group [] id) with grids := [(1, g)] }, g, by decide +kernel⟩
theorem wit_TeamsBegin_admit : ∃ (s : State) (a : Nat × Nat × Nat) (win : Nat), s.grids.get? 1 = some ticketed ∧ s.active ticketed = true ∧ ticketed.pre = .none ∧
    s.disp.admits.find? (fun x => x.1 / 4 == 5 && x.2.1 == 1 && x.2.2 == 3) = some a ∧ ticketed.shades = [] ∧
    ticketed.mates 3 ((s.disp.admits.filter (fun x => x.2.1 == 1)).map (fun x => (x.2.2, x.1))) = [(3, a.1)] ∧ s.itemFirst 5 ticketed.r.prio = false ∧
    ({ s with disp := { s.disp with admits := s.disp.admits.erase a } } : State).privFree ticketed ticketed.privateBytes = some win ∧
    ({ s with disp := { s.disp with admits := s.disp.admits.erase a } } : State).fitsAt ticketed 5 (a.1 % 4) = true :=
  ⟨{ (dispWorld group [] (fun d => { d with admits := [(21, 1, 3)] })) with grids := [(1, ticketed)] }, (21, 1, 3), 0x2000000, by decide +kernel⟩
/-- A team whose group is gone; the grid, when all of it is gone. -/
theorem wit_GridsEnd : ∃ (s : State) (t : Team), s.teams.get? 1 = some t ∧ s.grids.get? t.grid = some grid ∧ t.groups ≤ t.gone.length ∧
    s.mxQueue 1 = [] ∧ grid.launcher = true ∧ s.translate (grid.acc t.grid) .store grid.r.cw = .ok (.here (physKey 0x10000)) ∧
    (physKey 0x10000) % 4 = 0 ∧ s.openTo (physKey 0x10000) 8 ∧ grid.state = .runs ∧ s.gridEmpty 1 grid = false ∧
    (∀ c ∈ grid.tickets, c.2 ≤ c.1) ∧ grid.r.stealable = false ∧ grid.reserved = [] ∧ grid.openRays = 0 ∧ (∀ x ∈ s.disp.admits, x.2.1 ≠ t.grid) ∧
    (∀ e ∈ s.teams, e.2.grid = t.grid → e.1 = 1) :=
  let t := { team with gone := [(0, 0)] }
  ⟨{ (worldT t group []) with groups := [] }, t, by
    simp only [State.openTo]
    exact yes (by haveI := @exDec; infer_instance) (by decide +kernel)⟩
theorem wit_GridsEnd_status : ∃ (s : State), s.grids.get? 1 = some grid ∧ s.gridEmpty 1 grid = true ∧ grid.launcher = true ∧ s.othersDone grid = true :=
  ⟨{ (world group []) with groups := [], teams := [], cur := none }, by decide +kernel⟩
theorem wit_GridsEnd_named : ∃ (s : State) (g : Grid), s.grids.get? farId = some g ∧ g.state = .runs ∧ s.gridEmpty farId g = true ∧ g.launcher = false :=
  let g := { grid with launcher := false }
  ⟨{ (spaced farId []) with grids := [(farId, g)] }, g, by decide +kernel⟩
theorem no_tickets (gr : Grid) (j : Nat) : (worldOf gr group).ticketWaits j = [] := by
  show (if group.grid = j then [] else []) ++ [] = ([] : List (Nat × Nat × Nat))
  split <;> rfl
theorem wit_StealsAndCancels_steals : ∃ (s : State) (g h : Grid), s.grids.get? 1 = some g ∧ 1 ∈ s.otherParts g ∧ g.r.m = 0 ∧ g.cancelled = false ∧
    g.tickets.length = 4 ∧ g.r.strag = 0 ∧ g.tickets.getD 1 (0, 0) = (3, 8) ∧ g.tickets.getD 0 (0, 0) = (1, 3) ∧ g.tickets.getD 2 (0, 0) = (8, 13) ∧
    g.tickets.getD 3 (0, 0) = (13, 13) ∧ h.stealOut ≠ none ∧ h.r.m = 0 ∧ h.cancelled = false ∧ h.tickets.length = 4 ∧ (∀ j, s.ticketWaits j = []) ∧
    (h.tickets.getD 0 (0, 0)).2 ≤ (h.tickets.getD 0 (0, 0)).1 ∧ (s.ctlGet .fabDomain 0).getLsbD 63 = false ∧
    ((s.ctlSet .fabDomain 0 (2 ^ 63)).ctlGet .fabDomain 0).getLsbD 63 = true :=
  let g := { grid with r := { grid.r with pod := true, partCount := 2 }, tickets := [(1, 3), (3, 8), (8, 13), (13, 13)] }
  ⟨worldOf g group, g, { grid with stealOut := some 1 }, by decide +kernel, by decide +kernel, by decide +kernel, by decide +kernel, by decide +kernel,
    by decide +kernel, by decide +kernel, by decide +kernel, by decide +kernel, by decide +kernel, by decide +kernel, by decide +kernel, by decide +kernel,
    by decide +kernel, no_tickets g, by decide +kernel⟩
/-- A counter with no ticket, and a thief that asks a cancelled grid. -/
theorem wit_StealsAndCancels_none : ∃ (s : State) (g h : Grid), s.grids.get? 1 = some g ∧ 1 ∈ s.otherParts g ∧ g.r.m = 0 ∧
    (∀ d < g.tickets.length, (g.tickets.getD d (0, 0)).2 - (g.tickets.getD d (0, 0)).1 = 0) ∧ h.cancelled = true ∧ 1 ∈ s.otherParts h ∧ h.r.m = 0 :=
  let g := { grid with r := { grid.r with pod := true, partCount := 2 }, tickets := [(3, 3), (8, 8), (13, 13), (13, 13)] }
  ⟨worldOf g group, g, { g with cancelled := true }, by decide +kernel⟩
theorem wit_StealsAndCancels_cancels : ∃ (s : State) (q : Turn), Ok s q (.cancel 9 0) ∧ Ok s q (.cancelKill 9 0) ∧ (q.g.sget 9).toNat = 1 ∧
    s.grids.get? 1 = some grid ∧ grid.asid = (s.gridOf q.g).asid ∧ grid.part = (s.gridOf q.g).part ∧ grid.status = 0 ∧ grid.state = .runs ∧
    Ok (worldOf { grid with status := 1 } q.g) q (.cancel 9 0) :=
  let g := Ss [(9, 1)] group
  ⟨world g [], turn g, ok_of (by decide +kernel), ok_of (by decide +kernel), by decide +kernel, rfl, by decide +kernel, by decide +kernel, rfl, rfl,
    ok_of (by decide +kernel)⟩
/-- A grid of another part. -/
theorem wit_StealsAndCancels_far : ∃ (s : State) (q : Turn), Ok s q (.cancel 9 0) ∧ s.grids.get? (q.g.sget 9).toNat = none ∧ (q.g.sget 9).toNat ≠ 0 ∧
    (q.g.sget 9).toNat / 2 ^ 52 ≠ s.self :=
  let g := Ss [(9, BitVec.ofNat 64 farId)] group
  ⟨world g [], turn g, ok_of (by decide +kernel), by decide +kernel⟩
theorem wit_StealsAndCancels_empty : ∃ (s : State) (g : Grid), s.grids.get? 1 = some g ∧ g.stealOut ≠ none ∧ ∀ j, s.ticketWaits j = [] :=
  let g := { grid with stealOut := some 1 }
  ⟨worldOf g group, g, by decide +kernel, by decide +kernel, no_tickets g⟩
/-- The grid's address space is 0: a cancel names it as 1. -/
theorem wit_StealsAndCancels_space : grid.status = 0 ∧ grid.state = .runs ∧ grid.asid % 65536 + 1 = 1 := by decide +kernel
/-- A task record at 0x10080: entry 0x20100, argument 0x77; ready at once, or with one predecessor pending. -/
def taskRec (pending : Nat) : Nat := 0x20100 + 0x77 * 2 ^ 64 + pending * 2 ^ 320
theorem wit_TasksBegin : ∃ (s t : State) (q : Turn), Ok s q (.tspawn 5 9 0) ∧ Ok t q (.tspawn 5 9 0) ∧ s.grids.get? q.g.grid = some grid ∧
    (q.g.sget 9).toNat = 0x10080 ∧ s.translate (s.accOf q.g) .store 0x10080 = .ok (.here (physKey 0x10080)) ∧ s.mem.poisonAt (physKey 0x10080) 64 = none ∧
    s.readMem (physKey 0x10080) 64 = taskRec 0 ∧ t.readMem (physKey 0x10080) 64 = taskRec 1 ∧ grid.r.codeBase ≤ 0x20100 ∧ q.Performed (.tspawn 5 9 0) False ∧ q.g.waits = [] ∧
    s.pinned (physKey 0x10080) 64 = false ∧ s.msys.late = [] :=
  ⟨world launcher [(physKey 0x10080, 64, taskRec 0)], world launcher [(physKey 0x10080, 64, taskRec 1)], turn launcher, ok_of (by decide +kernel),
    ok_of (by decide +kernel), by decide +kernel, by decide +kernel, yes (by haveI := @exDec; infer_instance) (by decide +kernel), by decide +kernel,
    by decide +kernel, by decide +kernel, by decide +kernel, performed_of rfl rfl, rfl, by decide +kernel⟩
/-- A ready task of grid 1, whose page the task holds. -/
def readyTask : State := { (dispWorld group [(physKey 0x10080, 64, taskRec 0 + 1 * 2 ^ 256)]
    (fun d => { d with pools := [(0, .task 0x10080 1 3 0)], order := 1 })) with
  mmu := { State.reset.mmu with held := [{ (page 0x10080 0x10 0x10) with task := true }] } }
theorem wit_TasksBegin_dispatch : ∃ (w q0 win : Nat) (g : Grid), readyTask.takenFor 5 .task = none ∧
    readyTask.takeable 5 = [(0, .task 0x10080 1 3 0)] ∧ readyTask.grids.get? 1 = some g ∧ g.cancelled = false ∧
    readyTask.readVa (g.taskAcc 0x10080) 0x10080 64 64 = .ok w ∧ readyTask.ownRead (g.taskAcc 0x10080) (0x10080 + 0x20) 8 = some (taskRecOf w).ctl ∧
    (taskRecOf w).check g.r.codeBase = none ∧ (taskRecOf w).holdp = 0 ∧ readyTask.fitQuarter 5 16 = some q0 ∧
    readyTask.privFree g (32 * g.r.priv) = some win ∧ readyTask.teamFirst 5 3 = false :=
  ⟨taskRec 0 + 1 * 2 ^ 256, 0, 0x2000000, grid, yes (by haveI := @exDec; infer_instance) (by decide +kernel)⟩
/-- s9 names a future word of value `w`. -/
def future (w : Nat) : State := world launcher [(physKey 0x10080, 16, w)]
theorem wit_WaitingForTasks : ∀ w ∈ [2 ^ 62, 2 ^ 63, 2 ^ 63 + 2 ^ 62, 0, (2 ^ 30 - 1) * 2 ^ 32],
    Ok (future w) (turn launcher) (.twait 1 9 0) ∧ Ok (future w) (turn launcher) (.twaitLock 1 9 0) ∧
    ((future w).gridOf launcher).killed = false ∧ (future w).preempting launcher = false ∧
    (∃ k, (future w).checkAddr launcher (lowest ((turn launcher).takes (.twait 1 9 0))) 0x10080 16 16 .load = .ok (.here k) ∧
      (future w).checkAddr launcher (lowest ((turn launcher).takes (.twaitLock 1 9 0))) 0x10080 8 8 .load = .ok (.here k) ∧
      (future w).mem.poisonAt k 8 = none ∧ Bytes.num (future w).byte k 8 = w) := by
  intro w h
  simp only [List.mem_cons, List.not_mem_nil, or_false] at h
  rcases h with rfl | rfl | rfl | rfl | rfl <;>
  exact ⟨ok_of (by decide +kernel), ok_of (by decide +kernel), by decide +kernel, by decide +kernel, physKey 0x10080,
    yes (by haveI := @exDec; infer_instance) (by decide +kernel)⟩
theorem wit_WaitingForTasks_away : ∃ (s : State), Ok s (turn launcher) (.twait 1 9 0) ∧
    s.checkAddr launcher (lowest ((turn launcher).takes (.twait 1 9 0))) 0x10080 16 16 .load = .ok (.away 3 0x10080) ∧
    Ok (worldOf { grid with killed := true } launcher) (turn launcher) (.twait 1 9 0) :=
  ⟨{ (future 0) with mmu := { memory.mmu with held := [farPage] } }, ok_of (by decide +kernel),
    yes (by haveI := @exDec; infer_instance) (by decide +kernel), ok_of (by decide +kernel)⟩
/-- A group that waits for a barrier word's bits, blocked; a team waits for its core. -/
def blockedG : Group := { group with waits := [aWait 0 (BitVec.allOnes 32) (.barwt 0 2 0) (.barwt 0 2)] }
theorem wit_ParkingAndTaking : ∃ (s : State), s.groups.get? 1 = some blockedG ∧ blockedG.blocked = true ∧ s.active (s.gridOf blockedG) = true ∧
    s.parkRoom blockedG = true ∧ blockedG.kind ≠ .task ∧ (s.gridOf blockedG).pre ≠ .pending ∧ s.teamWaits blockedG.core = true :=
  ⟨{ (dispWorld blockedG [] (fun d => { d with admits := [(0, 2, 0)] })) with
    grids := [(1, grid), (2, { grid with r := { grid.r with groups := 64, budC := 16 } })] }, by decide +kernel⟩
theorem wit_ParkingAndTaking_callout : ∃ (s : State) (g : Group), s.groups.get? 1 = some g ∧ g.kind = .callout ∧ s.active (s.gridOf g) = true ∧
    s.teamWaits g.core = true ∧ ∃ w ∈ g.waits, w.why = .mwait 0 :=
  let g := { group with kind := .callout, waits := [aWait 0 (BitVec.allOnes 32) (.mwait 0) (.mwait 0 0)] }
  ⟨{ (dispWorld g [] (fun d => { d with admits := [(0, 2, 0)] })) with
    grids := [(1, grid), (2, { grid with r := { grid.r with groups := 64, budC := 16 } })] }, g, by decide +kernel⟩
theorem wit_ParkingAndTaking_launch : ∃ (s : State) (g : Group), s.groups.get? 1 = some g ∧ g.blocked = true ∧ s.active (s.gridOf g) = true ∧
    s.parkRoom g = true ∧ g.kind ≠ .task ∧ (s.gridOf g).pre ≠ .pending ∧ ∃ w ∈ g.waits, w.why = .launch ∧ w.since + 4800 ≤ s.env.cycle :=
  let g := { group with waits := [aWait 0 (BitVec.allOnes 32) .launch (.launch 5 9 0)] }
  ⟨dispWorld g [] id, g, by decide +kernel⟩
/-- A parked group whose barrier phase has passed, and one whose phase is open. -/
theorem wit_ParkingAndTaking_restore : ∃ (s t : State) (g : Group) (q0 : Nat), s.groups.get? 1 = some g ∧ g.place = .parked ∧
    s.active (s.gridOf g) = true ∧ ({ s with groups := s.groups.erase 1 } : State).fitQuarter g.core (s.unitRegs g) = some q0 ∧ (s.gridOf g).pre ≠ .pending ∧ (s.gridOf g).pre ≠ .complete ∧ g.pend = [] ∧ g.kind ≠ .task ∧
    s.awake 1 g = true ∧ t.groups.get? 1 = some g ∧ ({ t with groups := t.groups.erase 1 } : State).fitQuarter g.core (t.unitRegs g) = some q0 ∧ t.awake 1 g = false :=
  let g := { blockedG with place := .parked }
  ⟨{ (dispWorld g [] id) with teams := [(1, { team with bars := Store.set [] (barKey 0 0 2) { newBar with phase := 1 } })] }, dispWorld g [] id, g, 0,
    by decide +kernel⟩
/-- A group at a site of a grid that is pre-empted; the safe-point table names save 0x100 and restore 0x200 for PC 0x40. -/
theorem wit_ParkingAndTaking_taken : ∃ (s : State) (g : Group) (gr : Grid), s.groups.get? 1 = some g ∧ s.gridOf g = gr ∧ gr.pre = .pending ∧
    s.active gr = true ∧ g.place = .resident ∧ g.halted = false ∧ g.live ≠ 0 ∧ g.siteOf = some (aWait 0x40 (BitVec.allOnes 32) .site (.safept 1)) ∧
    s.siteEntry gr g.grid 0x40 = some (0x100, 0x200) ∧ g.parent = none ∧ g.saveArea.or (s.freeArea gr) = some 0x18000 :=
  let g := { group with waits := [aWait 0x40 (BitVec.allOnes 32) .site (.safept 1)] }
  let gr := { grid with pre := .pending, h := { grid.h with sites := 1, saveBytes := 4096, table := 0x12000 } }
  ⟨{ (dispWorld g [(physKey 0x12000, 16, 0x40 + 0x100 * 2 ^ 32 + 0x200 * 2 ^ 64)] id) with grids := [(1, gr)] }, g, gr, by decide +kernel⟩
theorem wit_ParkingAndTaking_role : ∃ (s : State) (t : Team) (g : Group), s.teams.get? 1 = some t ∧ s.roleWanted 1 t = some (.compute, .loader) ∧
    (1, g) ∈ s.groups ∧ s.groups.get? 1 = some g ∧ g.kind = .team ∧ g.team = 1 ∧ g.role = .compute ∧ g.live ≠ 0 ∧
    (∀ e ∈ s.groups, e.2.kind = .team → e.2.team = 1 → e.2.role = .compute → e.2.live ≠ 0 → g.lastIssue ≤ e.2.lastIssue) ∧
    (∀ e ∈ s.groups, e.1 = 1 → e.2 = g) :=
  let g := { group with waits := [aWait 0 (BitVec.allOnes 32) (.ring 3 false) (.ringget 8 3 1 0)] }
  let gr := { roled with r := { roled.r with ring := 3 + 8 * 0 + 2 ^ 24 } }
  let t := { team with lowSince := some 0 }
  ⟨{ (world g []) with grids := [(1, gr)], teams := [(1, t)], groups := [(1, g), (2, { g with index := 1, lastIssue := 9 })] }, t, g, by decide +kernel⟩

/-! ## Rays, call-outs, treelets, repacking, textures -/

/-- A scene descriptor at 0x10040: table at 0x12000 with one entry, root 0, call-out table at 0x13000. -/
def sceneOf (ver : Nat) : List (Nat × Nat × Nat) :=
  [(physKey 0x10040, 64, 0x12000 + 1 * 2 ^ 64 + 0x13000 * 2 ^ 128), (physKey 0x12000, 32, 0x18000 + 4 * 2 ^ 64 + ver * 2 ^ 128)]
def sceneMem : List (Nat × Nat × Nat) := sceneOf 0
/-- Lane 0 casts a ray from (0, 0, 0) along (0, 0, 1), from 0 to 10, with its record at 0x14000. -/
def caster : Group :=
  { (Vs [(22, 0, 0x3F800000), (23, 0, 0x41200000), (24, 0, 0x14000), (26, 0, 0xFF0000), (27, 0, 77)] (one group)) with scene := 0x10040 }
/-- The world with pages that software keeps coherent (COH = 01). -/
def quietly (s : State) : State := { s with mmu := { s.mmu with held := s.mmu.held.map (fun h => { h with leaf := { h.leaf with pte := h.leaf.pte + 0x20 } }) } }
def scene (g : Group) : State := (quietly (world g sceneMem)).ctlSet .spireSpillSlots 0 64
theorem wit_RaysAreCast : ∃ (s : State) (q : Turn), Ok s q (.trace 40 16 0) ∧ q.g.kind ≠ .callout ∧ q.g.scene.toNat = 0x10040 ∧
    q.parts (.trace 40 16 0) = [0] ∧ s.Block q.g 0 0x10040 64 (physKey 0x10040) ∧
    windowOf (q.g.wget 24 0).toNat = .glb ∧ q.Performed (.trace 40 16 0) False ∧
    (∃ loc, ((s.noteRead q.g 0x10040 64).useFree 1).checkAddr q.g 0 (q.g.wget 24 0).toNat 32 32 .store = .ok loc) ∧ (q.g.vget 26 0).toNat / 16 % 4096 = 0 ∧
    Bytes.num s.byte (physKey 0x10040) 8 = 0x12000 ∧ Bytes.num s.byte (physKey 0x10040 + 32) 4 = 1 ∧ Bytes.num s.byte (physKey 0x10040 + 48) 4 = 0 ∧
    Bytes.num s.byte (physKey 0x10040 + 64) 8 = 0x13000 ∧ Bytes.num s.byte (physKey 0x10040 + 112) 36 = 0 ∧
    isNan (q.g.vget 19 0) = false ∧ isNan (q.g.vget 23 0) = false ∧ (xparam (q.g.vget 19 0)).le (xparam (q.g.vget 23 0)) = true ∧
    [q.g.vget 16 0, q.g.vget 17 0, q.g.vget 18 0, q.g.vget 20 0, q.g.vget 21 0, q.g.vget 22 0].all finite = true ∧ fx (q.g.vget 22 0) ≠ 0 ∧
    s.disp.whole = true ∧ windowOf 0x1200D = .glb ∧
    (((s.noteRead q.g 0x10040 64).useFree 1).touch q.g (q.g.wget 24 0).toNat).Block q.g 0 0x1200D 1 (physKey 0x1200D) ∧
    homeStack (s.byte (physKey 0x1200D)).toNat = 0 ∧
    (s.spire.rays.filter (fun e => e.1 / 2 ^ 32 == 0)).length + 32 ≤ (s.ctlGet .spireSpillSlots 0).toNat % 2 ^ 32 :=
  by refine ⟨scene caster, turn caster, ok_of ?_, by decide, ?_, ?_, block_of (by decide +kernel), ?_, performed_of rfl rfl,
      ⟨.here (physKey 0x14000), yes (by haveI := @exDec; infer_instance) (by decide +kernel)⟩, ?_, ?_, ?_, ?_, ?_, ?_, ?_, ?_, ?_, ?_, ?_, rfl, ?_,
      block_of (by decide +kernel), ?_, ?_⟩ <;> decide +kernel
/-- No scene, and another lane goes on; and a ray without a direction. -/
theorem wit_RaysAreCast_ends : ∃ (s t : State) (q r : Turn), Ok s q (.trace 40 16 0) ∧ q.g.scene.toNat = 0 ∧
    (∃ l < 32, q.g.live.getLsbD l = true ∧ q.takes (.trace 40 16 0) l = false) ∧ Ok t r (.trace 40 16 0) ∧ r.parts (.trace 40 16 0) = [0] ∧
    (∀ j ∈ [20, 21, 22], fx (r.g.vget j 0) = 0) ∧
    ((t.noteRead r.g 0x10040 64).useFree 1).checkAddr r.g 0 (r.g.wget 24 0).toNat 32 32 .store = .ok (.here (physKey 0x14000)) ∧
    t.pinned (physKey 0x14000) 32 = false :=
  let q : Turn := { (turn { group with live := 3 }) with lanes := 1 }
  let g := { caster with v := Store.put caster.v (22 * 32) 0 0 }
  ⟨{ (world q.g []) with cur := some { gid := 1, pc := 0, lanes := 1, wait := 0 } }, scene g, q, turn g, ok_of (by decide +kernel), by decide +kernel,
    ⟨1, by decide +kernel⟩, ok_of (by decide +kernel), yes (by haveI := @exDec; infer_instance) (by decide +kernel)⟩
theorem wit_TrianglesAreSolvedExactly : ∃ (sp : RSpace) (vs : List W32) (t u v : W32) (back : Bool), triTest sp 0 vs = some (t, u, v, back) :=
  ⟨_, _, _, _, _, _, test_triangle⟩
/-- A space along (0, 0, 1), and a ray of lane 0 of group 1 in it, inside treelet 0, which lies at 0x18000. -/
def space : RSpace := { o := [0, 0, 0], d := [0, 0, 0x3F800000], inst := 0xFFFFFFFF, off := 0 }
def inner : Inside := { treelet := 0, entry := physKey 0x12000, base := 0x18000, size := 4, ver := 0, bottom := false, old := false }
def ray : Ray :=
  { gid := 1, pend := 3, lane := 0, group := 0, team := 0, task := false, strict := false, core := 0, pc := 0, grid := 1, asid := 0, o := [0, 0, 0],
    d := [0, 0, 0x3F800000], tmin := 0, tbest := 0x41200000, tmax := 0x41200000, flags := 0, mask := 255, coi := 0, hitVa := 0x14000, id := 77,
    home := 0, stackNo := 0, src := 0, sent := 5, heldAt := 0, treelet := 0, dsp := space, dbottom := false, steps := 5, table := 0x12000, count := 1, calls := 0x13000, limit := 0,
    st := .inside, arrived := 0, inn := some inner, outer := none, rootVer := some 0, sp := space, stack := [.node 0x100], deferred := [], hit := none,
    cand := none, budget := none }
/-- The group that waits for that ray, and the world of it. -/
def rayGroup : Group := { caster with pend := [{ result with src := .ray 9, regs := [40], writes := [] }] }
def rays (rs : Store Ray) (gr : Grid) : State := { (world rayGroup (sceneOf 1 ++ [(physKey 0x18100, 128, 0)])) with
  grids := [(1, gr)]
  spire := { State.reset.spire with rays := rs } }
/-- The ray on its way, and queued. -/
def flying : Ray := { ray with st := .flight, inn := none, stack := [] }
def queuedRay : Ray := { flying with st := .queued }
theorem wit_RaysTravel_arrival : ∃ (s : State), s.spire.rays.get? 9 = some flying ∧ flying.o.length = 3 ∧ flying.d.length = 3 ∧
    (∀ e ∈ s.spire.rays, e.2.st = .flight → e.2.src = flying.src → e.2.home = flying.home → flying.sent ≤ e.2.sent) ∧ s.unitHolds flying.unit < 16384 ∧ flying.left = true ∧
    ∃ t : State, t.spire.rays.get? 9 = some { flying with left := false } :=
  ⟨rays [(9, flying)] grid, by decide +kernel, by decide +kernel, by decide +kernel, by decide +kernel, by decide +kernel, rfl,
    rays [(9, { flying with left := false })] grid, by decide +kernel⟩
/-- The unit holds 16,384 rays. -/
theorem wit_RaysTravel_full : ∃ (s : State), s.spire.rays.get? 9 = some flying ∧
    (∀ e ∈ s.spire.rays, e.2.st = .flight → e.2.src = flying.src → e.2.home = flying.home → flying.sent ≤ e.2.sent) ∧ 16384 ≤ s.unitHolds flying.unit :=
  ⟨rays ((9, flying) :: (List.range 16384).map (fun i => (10 + i, queuedRay))) grid, by decide +kernel, by simp [rays, queuedRay, flying],
    by decide +kernel⟩
theorem wit_RaysTravel_batch : ∃ (s : State), Store.wf s.spire.rays = true ∧ s.waiting 0 ≠ [] :=
  ⟨rays [(9, { ray with st := .queued, inn := none, stack := [] })] grid, by decide +kernel⟩
theorem wit_RaysTravel_visit : ∃ (s : State) (r : Ray) (x : Inside) (off w : Nat) (rest : List RItem), s.spire.rays.get? 9 = some r ∧ r.st = .inside ∧
    r.inn = some x ∧ r.stack = .node off :: rest ∧ s.rayKilled r = false ∧ s.rayPreempt r = false ∧ off % 128 = 0 ∧ off + 128 ≤ x.size * 256 ∧
    s.rayRead r ((x.base + off) % 2 ^ 64) 128 = .ok w :=
  ⟨rays [(9, ray)] grid, ray, inner, 0x100, 0, [], yes (by haveI := @exDec; infer_instance) (by decide +kernel)⟩
theorem wit_RaysTravel_locked : ∃ (s : State) (r : Ray) (w key : Nat), s.spire.rays.get? 9 = some r ∧ r.st = .taken ∧ r.inn = none ∧ s.rayKilled r = false ∧
    s.rayPreempt r = false ∧ r.treelet < r.count ∧
    s.translate (s.rayAcc r) .load ((r.table + 32 * r.treelet) % 2 ^ 64) = .ok (.here key) ∧ s.rayRead r ((r.table + 32 * r.treelet) % 2 ^ 64) 16 = .ok w ∧ w / 2 ^ 96 % 256 ≠ 0 :=
  let r := { ray with st := .taken, inn := none, stack := [] }
  ⟨{ (rays [(9, r)] grid) with mem := filled [(physKey 0x12000, 16, 0x18000 + 4 * 2 ^ 64 + 2 ^ 96)] }, r, 0x18000 + 4 * 2 ^ 64 + 2 ^ 96, physKey 0x12000,
    yes (by haveI := @exDec; infer_instance) (by decide +kernel)⟩
/-- A locked treelet's ray comes back to a unit with room, and to a full one. -/
theorem wit_RaysTravel_held : ∃ (s t : State), s.unitHolds queuedRay.unit < 16384 ∧ 16384 ≤ t.unitHolds queuedRay.unit ∧
    s.spire.rays.get? 9 = some { queuedRay with st := .taken } ∧ t.spire.rays.get? 9 = some { queuedRay with st := .taken } :=
  ⟨rays [(9, { queuedRay with st := .taken })] grid,
    rays ((9, { queuedRay with st := .taken }) :: (List.range 16384).map (fun i => (10 + i, queuedRay))) grid, by decide +kernel⟩
theorem wit_RaysTravel_end : ∃ (s : State) (r : Ray) (p : Pend) (k : Nat), s.spire.rays.get? 9 = some r ∧ r.st = .ended 1 0 0 0 ∧ r.outer = none ∧
    (∀ x, r.inn = some x → x.old = false) ∧ r.lane < 32 ∧ s.groups.get? r.gid = some rayGroup ∧ rayGroup.pend.find? (fun y => y.id == r.pend) = some p ∧ p.regs = [40] ∧
    p.sreg = none ∧ s.grids.get? r.grid = some grid ∧ grid.pre ≠ .pending ∧ r.task = false ∧
    s.translate (grid.acc r.grid) .store r.hitVa = .ok (.here k) ∧ s.pinned k 32 = false ∧ s.msys.late = [] ∧ rayGroup.place = .resident :=
  let r := { ray with st := .ended 1 0 0 0, inn := none, stack := [] }
  ⟨rays [(9, r)] grid, r, { result with src := .ray 9, regs := [40], writes := [] }, physKey 0x14000,
    by decide +kernel, rfl, rfl, nofun, by decide +kernel, rfl, by decide +kernel, rfl, rfl, rfl, by decide +kernel, rfl,
    yes (by haveI := @exDec; infer_instance) (by decide +kernel)⟩
theorem wit_RaysTravel_stops : ∃ (s t : State) (r : Ray), Store.wf s.spire.rays = true ∧ Store.wf t.spire.rays = true ∧ s.spire.rays.get? 9 = some r ∧ s.rayPreempt r = true ∧ r.st = .held ∧
    t.spire.rays.get? 9 = some r ∧ t.rayKilled r = true :=
  let r := { ray with st := .held, inn := none, stack := [] }
  ⟨rays [(9, r)] { grid with pre := .pending }, rays [(9, r)] { grid with killed := true }, r, by decide +kernel⟩
/-- A call-out of that ray. -/
def callout : Callout :=
  { ray := 9, pend := 3, stack := 0, grid := 1, entry := 0x300, budget := 32, kind := 0, regs := (List.range 16).map (BitVec.ofNat 32), since := 0 }
def called (cs : List Callout) (f : Disp → Disp) : State := { (dispWorld rayGroup sceneMem f) with
  spire := { State.reset.spire with
    rays := [(9, { ray with st := .callout })]
    gather := cs } }
theorem wit_CallOuts : ∃ (s t : State) (c : Callout), s.spire.gather.find? (fun x => x.stack == 0 && decide (32 ≤ (s.gathered 0 x).length)) = some c ∧
    t.spire.gather.find? (fun x => x.stack == 0 && decide (4800 ≤ t.env.cycle - x.since)) = some c :=
  ⟨called (List.replicate 32 callout) id, called [callout] id, callout, by decide +kernel⟩
theorem wit_CallOuts_dispatch : ∃ (s : State) (q0 win : Nat), s.takenFor 5 .callout = none ∧
    s.nextItem 5 = some (0, .calls [callout] 1 3 0) ∧ s.teamFirst 5 3 = false ∧
    s.grids.get? 1 = some grid ∧ s.fitQuarter 5 callout.budget = some q0 ∧ s.privFree grid (32 * grid.r.priv) = some win :=
  ⟨called [] (fun d => { d with pools := [(0, .calls [callout] 1 3 0)] }), 0, 0x2000000, by decide +kernel⟩
theorem wit_CallOuts_return : ∃ (s : State) (q : Turn) (r : Ray) (c : Hit), Ok s q (.callret 20 22 0) ∧ q.g.kind = .callout ∧
    q.parts (.callret 20 22 0) = [0] ∧ q.g.rays.filter (fun x => x.1 == 0) = [(0, 9, 3)] ∧ s.spire.rays.get? 9 = some r ∧ r.pend = 3 ∧
    r.cand = some c ∧ s.rayKilled r = false ∧ c.proc = false ∧ (q.g.vget 20 0).toNat = 2 ∧ ∃ m < 32, m ≠ 0 ∧ q.g.live.getLsbD m = true :=
  let c : Hit := { t := 0x40000000, u := 0, v := 0, inst := 0xFFFFFFFF, prim := 7, back := true, proc := false, verdict := false, ver := 0 }
  let g := { (Vs [(20, 0, 2)] group) with kind := .callout, live := 3, rays := [(0, 9, 3)] }
  let q : Turn := { (turn g) with lanes := 1 }
  let r := { ray with st := .callout, cand := some c }
  ⟨{ (world g []) with cur := some { gid := 1, pc := 0, lanes := 1, wait := 0 }, spire := { State.reset.spire with rays := [(9, r)] } }, q, r, c,
    ok_of (by decide +kernel), rfl, by decide +kernel, by decide +kernel, rfl, rfl, rfl, by decide +kernel, rfl, by decide +kernel, 1, by decide +kernel⟩
/-- s9 names a treelet entry that is locked (state 1) or not; s6 holds a base. -/
def treelet (st : Nat) : State := world (Ss [(9, 0x12000), (6, 0x18000)] (one group))
  [(physKey 0x12000, 32, 0x18000 + 4 * 2 ^ 64 + st * 2 ^ 96)]
theorem wit_TreeletsAndRepack : ∀ st ∈ [0, 1], let g := Ss [(9, 0x12000), (6, 0x18000)] (one group)
    Ok (treelet st) (turn g) (.treelock 5 9 0) ∧ Ok (treelet st) (turn g) (.treepub 6 9 0) ∧ windowOf (g.sget 9).toNat = .glb ∧
    (treelet st).checkAddr g (lowest ((turn g).takes (.treelock 5 9 0))) (g.sget 9).toNat 32 32 .store = .ok (.here (physKey 0x12000)) ∧
    (treelet st).mem.poisonAt (physKey 0x12000) 32 = none ∧ ((treelet st).byte (physKey 0x12000 + 48)).toNat = st ∧ (g.sget 6).toNat % 128 = 0 ∧
    windowOf (g.sget 6).toNat = .glb ∧ canonical (g.sget 6).toNat = true ∧ (turn g).Performed (.treepub 6 9 0) False := by
  intro st h
  simp only [List.mem_cons, List.not_mem_nil, or_false] at h
  rcases h with rfl | rfl <;>
  exact ⟨ok_of (by decide +kernel), ok_of (by decide +kernel), by decide +kernel, yes (by haveI := @exDec; infer_instance) (by decide +kernel),
    by decide +kernel, by decide +kernel, by decide +kernel, by decide +kernel, by decide +kernel, performed_of rfl rfl⟩
/-- An engine pins the entry. -/
theorem wit_TreeletsAndRepack_pinned : ∃ (s : State), s.pinned (physKey 0x12000) 32 = true ∧ (treelet 0).pinned (physKey 0x12000) 32 = false ∧
    Ok s (turn (Ss [(9, 0x12000), (6, 0x18000)] (one group))) (.treelock 5 9 0) :=
  ⟨{ (treelet 0) with eng := { State.reset.eng with ops := [{ pinning with rows := [(true, [[{ key := physKey 0x12000, len := 64 }]])] }] } },
    by decide +kernel, by decide +kernel, ok_of (by decide +kernel)⟩
theorem wit_TreeletsAndRepack_repack : ∃ (s : State) (q : Turn), s.Issues q (.repack 20 12) ∧
    (∀ r, (q.g.sget 12).getLsbD (r / 2) = true → r / 2 < 64 → 2 * (r / 2) < q.g.budget) ∧ Store.wf s.groups = true ∧ q.Whole ∧ q.g.pend = [] ∧
    q.g.waits = [] ∧ ∀ e ∈ s.groups, e.1 ≠ q.gid → e.2.kind = .team → e.2.team = q.g.team → e.2.holdsLanes = false := by
  refine ⟨world (Ss [(12, 3)] group) [], turn (Ss [(12, 3)] group), issues_of (by decide +kernel), ?_, by decide +kernel, rfl, rfl, rfl, by decide +kernel⟩
  intro r h hr
  have hall : ∀ i < 64, (((turn (Ss [(12, 3)] group)).g.sget 12).getLsbD i = true → 2 * i < (turn (Ss [(12, 3)] group)).g.budget) := by decide +kernel
  exact hall (r / 2) hr h
theorem wit_TreeletsAndRepack_waits : ∃ (s : State) (q : Turn) (g' : Group), s.Issues q (.repack 20 12) ∧ q.g.kind = .team ∧ (2, g') ∈ s.groups ∧
    g'.kind = .team ∧ g'.team = q.g.team ∧ g'.live ≠ 0 ∧ g'.waits = [] :=
  ⟨{ (world (Ss [(12, 3)] group) []) with groups := [(1, Ss [(12, 3)] group), (2, { group with index := 1 })] }, turn (Ss [(12, 3)] group),
    { group with index := 1 }, issues_of (by decide +kernel), by decide +kernel⟩
/-- A texture of 4 by 4 texels of format 0 at 0x12000, its descriptor at 0x10040; and a hash grid of one level at 0x13000, at 0x10080. -/
def texMem : List (Nat × Nat × Nat) :=
  [(physKey 0x10040, 32, 0x12000 + 4 * 2 ^ 64 + 4 * 2 ^ 80 + 1 * 2 ^ 104), (physKey 0x12000, 64, 0x01020304),
   (physKey 0x10080, 64, 0x13000 + 1 * 2 ^ 64 + 4 * 2 ^ 80 + 1 * 2 ^ 96 + 0x3F800000 * 2 ^ 128), (physKey 0x13000, 32, 0x3C00)]
/-- Lane 0 samples at (0.5, 0.5), level 0; or at no number. -/
def sampler (u : W32) : Group := Vs [(4, 0, 0x10040), (6, 0, u), (7, 0, 0x3F000000), (20, 0, 0x10080), (22, 0, 0x3F000000)] (one group)
/-- A Lantern unit reads a lane's bytes there. -/
def readsB (g : Group) (va n : Nat) : Bool :=
  decide (windowOf va = .glb) && (match (world g texMem).checkRangeBy ((world g texMem).lanternAcc g va) g 0 va n .load with
    | .ok l => decide (l = [(.here (physKey va), n)])
    | .error _ => false) && decide ((world g texMem).mem.poisonAt (physKey va) n = none)
def readsT (g : Group) (va n : Nat) : Prop := windowOf va = .glb ∧
  (world g texMem).checkRangeBy ((world g texMem).lanternAcc g va) g 0 va n .load = .ok [(.here (physKey va), n)] ∧
  (world g texMem).mem.poisonAt (physKey va) n = none
theorem reads_of {g : Group} {va n : Nat} (h : readsB g va n = true) : readsT g va n := by
  simp only [readsB, Bool.and_eq_true, decide_eq_true_eq] at h
  refine ⟨h.1.1, ?_, h.2⟩
  have h1 := h.1.2
  split at h1
  · rename_i hl
    rw [hl, of_decide_eq_true h1]
  · cases h1
theorem reads_all {g : Group} {α : Type} {l : List α} {f : α → Nat} {n : Nat} (h : l.all (fun x => readsB g (f x) n) = true) :
    ∀ x ∈ l, readsT g (f x) n := fun x hx => reads_of (List.all_eq_true.1 h x hx)
theorem wit_TexturesAndGrids : ∀ u ∈ [(0x3F000000 : W32), 0x7FC00000], let g := sampler u
    Ok (world g texMem) (turn g) (.lfetchBil 12 4 0) ∧ Ok (world g texMem) (turn g) (.lfetchTri 12 4 0) ∧ (turn g).parts (.lfetchTri 12 4 0) = [0] ∧
    readsT g ((turn g).w 4 0).toNat 32 ∧ texBad (Bytes.num (world g texMem).byte (physKey 0x10040) 32) 0 = none ∧
    unbounded (g.vget 7 0) = false ∧ unbounded (g.vget 8 0) = false ∧ (unbounded u = decide (u = 0x7FC00000)) ∧
    ∀ x ∈ (texOf (Bytes.num (world g texMem).byte (physKey 0x10040) 32)).bil 0 (dyOf 0x3F000000) (dyOf 0x3F000000) (1, 0), readsT g x.2 4 := by
  intro u h
  simp only [List.mem_cons, List.not_mem_nil, or_false] at h
  rcases h with rfl | rfl <;>
  refine ⟨ok_of ?_, ok_of ?_, ?_, reads_of (by decide +kernel), ?_, ?_, ?_, ?_, reads_all (by decide +kernel)⟩ <;> decide +kernel
theorem wit_TexturesAndGrids_hgrid : let g := sampler 0
    let h := hgridOf (Bytes.num (world g texMem).byte (physKey 0x10080) 64)
    Ok (world g texMem) (turn g) (.hgrid 30 20 0) ∧ (turn g).parts (.hgrid 30 20 0) = [0] ∧
    readsT g ((turn g).w 20 0).toNat 64 ∧
    hgridBad (Bytes.num (world g texMem).byte (physKey 0x10080) 64) 0 30 g.budget = none ∧ h.levels = 1 ∧ h.feats = 1 ∧
    ∀ x ∈ h.corners 0 [unitCoord (g.vget 22 0), unitCoord (g.vget 23 0), unitCoord (g.vget 24 0)], readsT g x.2 2 :=
  ⟨ok_of (by decide +kernel), by decide +kernel, reads_of (by decide +kernel), by decide +kernel, by decide +kernel, by decide +kernel,
    reads_all (by decide +kernel)⟩

/-! ## Queues and their commands -/

/-- A mapped queue in slot 0: ring at 0x11000, tail word at 0x12000, head block at 0x12040. -/
def queue : Queue := { noQueue with
  mapped := true
  slot := some 0
  base := 0x11000
  root := 0x1000
  tail := 0x12000
  headBlk := 0x12040
  seen := 1
  state := 0 }
/-- Queue 5 with its next entry; pages 0x10 to 0x27 are held for it. -/
def queued (x : Queue) (e : Nat) (m : List (Nat × Nat × Nat)) : State := { (spaced 0 ((physKey 0x11000, 32, e) :: m)) with
  ctrl := { State.reset.ctrl with
    queues := [(5, x)]
    accept := 0x1FF } }
/-- The decidable content of State.Commands. -/
def commandsB (s : State) (n op : Nat) (x : Queue) (w : Nat) : Bool :=
  decide (s.ctrl.queues.get? n = some x) && x.mapped && s.served n x && decide (x.state ≤ 1) && decide (x.head < x.seen) &&
  decide (x.seen ≤ x.head + x.size) &&
  @decide (s.readVa x.acc ((x.base + 32 * (x.head % x.size)) % 2 ^ 64) 32 32 = .ok w) (exDec _ _) && decide (w % 2 ^ 8 = op) &&
  decide (w / 2 ^ 9 % 2 ^ 23 = 0 ∧ w / 2 ^ 192 = 0) && decide (w / 2 ^ 8 % 2 = 1 → x.run.all (s.cmdDone ·) = true)
theorem commands_of {s : State} {n op : Nat} {x : Queue} {w : Nat} (h : commandsB s n op x w = true) : s.Commands n op x w := by
  simp only [commandsB, Bool.and_eq_true, decide_eq_true_eq, List.all_eq_true] at h
  exact { queue := h.1.1.1.1.1.1.1.1.1, mapped := h.1.1.1.1.1.1.1.1.2, served := h.1.1.1.1.1.1.1.2, state := h.1.1.1.1.1.1.2, more := h.1.1.1.1.1.2,
          room := h.1.1.1.1.2, entry := h.1.1.1.2, op := h.1.1.2, clear := h.1.2, barrier := h.2 }
theorem wit_QueueCommandsRun_head : ∃ (v : State) (y : Queue),
    (∀ m, ({ v with mem := m } : State).translate y.acc .store y.headBlk = .ok (.here (physKey 0x12040))) ∧
    (∀ m, ({ v with mem := m } : State).translate y.acc .store ((y.headBlk + 8) % 2 ^ 64) = .ok (.here (physKey 0x12040 + 32))) ∧
    v.pinned (physKey 0x12040) 8 = false ∧ v.pinned (physKey 0x12040 + 32) 8 = false ∧ v.msys.late = [] :=
  ⟨queued queue 0 [], queue, fun _ => rfl, fun _ => rfl, by decide +kernel⟩
/-- An entry of opcode `op` with word N, A and B. -/
def cmd (op n a b : Nat) : Nat := op + n * 2 ^ 32 + a * 2 ^ 64 + b * 2 ^ 128
/-- A queue whose Turret waits for a permit: nothing of it is accepted. -/
theorem wit_QueueCommandsRun_unserved : ∃ (s : State), s.ctrl.queues.get? 5 = some queue ∧ s.served 5 queue = false :=
  ⟨{ (queued queue 0 []) with ctrl := { (queued queue 0 []).ctrl with down := [(0, 5)] } }, by decide +kernel⟩
theorem wit_QueueCommandsRun_plain : ∃ (nop fence wait off : State), nop.Commands 5 0 queue 0 ∧ fence.Commands 5 7 queue 7 ∧ wait.Commands 5 4 queue (cmd 4 0 0x13000 9) ∧
    off.Commands 5 4 queue (cmd 4 0 0x13000 9) ∧ (∀ c ∈ queue.run, fence.cmdDone c = true) ∧ (wait.sawEntry queue).readVa queue.acc 0x13000 8 8 = .ok 9 ∧
    (off.sawEntry queue).readVa queue.acc 0x13000 8 8 = .ok 8 :=
  ⟨queued queue 0 [], queued queue 7 [], queued queue (cmd 4 0 0x13000 9) [(physKey 0x13000, 8, 9)],
    queued queue (cmd 4 0 0x13000 9) [(physKey 0x13000, 8, 8)], commands_of (by decide +kernel), commands_of (by decide +kernel),
    commands_of (by decide +kernel), commands_of (by decide +kernel), by decide, yes (by haveI := @exDec; infer_instance) (by decide +kernel)⟩
theorem wit_QueueCommandsRun_stores : ∃ (store add time : State), store.Commands 5 3 queue (cmd 3 0 0x13000 9) ∧
    add.Commands 5 3 queue (cmd 3 1 0x13000 9) ∧ time.Commands 5 8 queue (cmd 8 0 0x13000 0) ∧ (add.sawEntry queue).mem.poisonAt (physKey 0x13000) 8 = none ∧
    (windowOf 0x13000 = .glb ∧ canonical 0x13000 = true) ∧ (store.sawEntry queue).translate queue.acc .store 0x13000 = .ok (.here (physKey 0x13000)) ∧
    (add.sawEntry queue).translate queue.acc .store 0x13000 = .ok (.here (physKey 0x13000)) ∧ (time.sawEntry queue).translate queue.acc .store 0x13000 = .ok (.here (physKey 0x13000)) :=
  ⟨queued queue (cmd 3 0 0x13000 9) [], queued queue (cmd 3 1 0x13000 9) [], queued queue (cmd 8 0 0x13000 0) [], commands_of (by decide +kernel),
    commands_of (by decide +kernel), commands_of (by decide +kernel), yes (by haveI := @exDec; infer_instance) (by decide +kernel)⟩
/-- An engine pins the word. -/
theorem wit_QueueCommandsRun_pinned : ∃ (s : State), s.Commands 5 3 queue (cmd 3 0 0x13000 9) ∧
    (s.sawEntry queue).translate queue.acc .store 0x13000 = .ok (.here (physKey 0x13000)) ∧ s.pinned (physKey 0x13000) 8 = true :=
  ⟨{ (queued queue (cmd 3 0 0x13000 9) []) with eng := { State.reset.eng with ops := [{ pinning with rows := [(true, [[{ key := physKey 0x13000, len := 64 }]])] }] } },
    commands_of (by decide +kernel), yes (by haveI := @exDec; infer_instance) (by decide +kernel)⟩
theorem wit_QueueCommandsRun_tail : ∃ (s : State), s.ctrl.queues.get? 5 = some queue ∧ queue.mapped = true ∧ s.pinned (physKey 0x12000) 8 = false ∧ s.msys.late = [] ∧
    s.canReport 5 queue = true ∧ ({ s with ctrl := { s.ctrl with up := List.replicate 9 (0, queue.event 6 0 0) } } : State).canReport 5 queue = false ∧
    s.translate queue.acc .load queue.tail = .ok (.here (physKey 0x12000)) ∧ 16 ≤ queue.head + queue.size ∧ queue.head + queue.size < 17 ∧ queue.state ≠ 2 :=
  ⟨queued queue 0 [], yes (by haveI := @exDec; infer_instance) (by decide +kernel)⟩
theorem wit_QueueCommandsRun_timeout : ∃ (s : State) (x : Queue), s.ctrl.queues.get? 5 = some x ∧ x.mapped = true ∧ x.state ≠ 2 ∧ x.head < x.seen ∧
    (∀ k, x.slot = some k → s.turretWaits (k % 48) = false) ∧
    s.readVa x.acc ((x.base + 32 * (x.head % x.size)) % 2 ^ 64) 32 32 = .ok (cmd 4 1 0x13000 9) ∧ x.waitSince = some 997600 ∧
    997600 + 2400 * 1 ≤ s.env.cycle ∧ s.readVa x.acc 0x13000 8 8 = .ok 8 :=
  let x := { queue with state := 1, waitSince := some 997600 }
  ⟨queued x (cmd 4 1 0x13000 9) [(physKey 0x13000, 8, 8)], x, by decide +kernel, by decide +kernel, by decide +kernel, by decide +kernel,
    fun k h => by cases h; decide +kernel, yes (by haveI := @exDec; infer_instance) (by decide +kernel)⟩
/-- Sixteen queues of a slice wait in their slots, queue 3 for the longest, and queue 20 has work and no slot. -/
def crowd : State := { (spaced 0 [(physKey 0x11000, 32, cmd 4 0 0x13000 9), (physKey 0x13000, 8, 8)]) with
  disp := { State.reset.disp with whole := false }
  ctrl := { State.reset.ctrl with queues := (List.range 16).map (fun i =>
      (i, { queue with slot := some i, state := 1, gang := i / 2, waitSince := some (if i = 3 then 5 else 9) })) ++ [(20, { queue with slot := none })] } }
/-- The Turret of that queue waits for a permit. -/
theorem wit_QueueCommandsRun_permit : crowd.turretWaits (3 % 48) = false ∧
    ({ crowd with ctrl := { crowd.ctrl with up := List.replicate 9 (3, queue.event 6 0 0) } } : State).turretWaits (3 % 48) = true := by decide +kernel
theorem wit_QueueCommandsRun_gang : ∃ (x : Queue), Store.wf crowd.ctrl.queues = true ∧ crowd.slotsBlocked 0 = true ∧ (3, x) ∈ crowd.eligible 0 ∧
    x.slot.isSome = true ∧ x.gang ≠ 0 ∧
    ∀ e ∈ crowd.eligible 0, e.2.slot.isSome = true → e.1 ≠ 3 → x.waitSince.getD crowd.env.cycle < e.2.waitSince.getD crowd.env.cycle :=
  ⟨{ queue with slot := some 3, state := 1, gang := 1, waitSince := some 5 }, by decide +kernel⟩
/-- A world whose next command is this entry, with the launch record at 0x10080, whose address stands at 0x12080 too. -/
def launches (e : Nat) : State := queued queue e ((physKey 0x12080, 8, 0x10080) :: launchMem)
theorem wit_QueuesLaunchGrids : ∀ e ∈ [cmd 1 0 0x10080 0, cmd 2 1 0x12080 0],
    let s := launches e
    let r := recordOf 0x10080 record
    let begun (reads : List (Nat × Nat)) := ((((((s.sawEntry queue).sawAll queue.acc reads).useFree 1).lateWrite queue.acc r.cw 8 0).lateWrite queue.acc
      (0x10080 + 0x70) 8 (s.self * 2 ^ 52 + s.disp.seq % 2 ^ 52)).lateWords queue.acc r.fa (List.replicate 8 0))
    s.Commands 5 (e % 256) queue e ∧ (s.sawEntry queue).readVa queue.acc 0x10080 128 128 = .ok record ∧ s.writable queue.acc r.cw 8 8 = true ∧
    s.writable queue.acc r.fa 2112 64 = true ∧ r.pod = false ∧ r.holdp = 0 ∧ r.coRes = false ∧ s.self * 2 ^ 52 + s.disp.seq % 2 ^ 52 ≠ 0 ∧
    (∃ x, (begun [(0x10080, 128)]).launchCheck queue.acc record r true = .ok x) ∧
    (∃ x, (begun [(0x12080, 8), (0x10080, 128)]).launchCheck queue.acc record r true = .ok x) ∧
    (s.sawEntry queue).readVa queue.acc 0x12080 8 8 = .ok 0x10080 ∧ s.grids = [] := by
  intro e h
  simp only [List.mem_cons, List.not_mem_nil, or_false] at h
  rcases h with rfl | rfl <;>
  refine ⟨commands_of (by decide +kernel), yes (by haveI := @exDec; infer_instance) (by decide +kernel), ?_, ?_, ?_, ?_, ?_, ?_,
      some_ok (by decide +kernel), some_ok (by decide +kernel), yes (by haveI := @exDec; infer_instance) (by decide +kernel), rfl⟩ <;> decide +kernel

/-! ## Drawing -/

/-- A draw descriptor at 0x13000: vertices at 0x14000, indices at 0x15000, one triangle of id 7, a buffer of 2 by 1 pixels at 0x16000, the list
at 0x17000 with room for one; and the threshold. -/
def drawWord (thresh : Nat) : Nat := 0x14000 + 0x15000 * 2 ^ 64 + 1 * 2 ^ 128 + 7 * 2 ^ 160 + 0x16000 * 2 ^ 192 + 2 * 2 ^ 256 + 1 * 2 ^ 272 +
  thresh * 2 ^ 288 + 0x17000 * 2 ^ 320 + 1 * 2 ^ 384
/-- The triangle (0, 0), (2, 0), (0, y) at depth 0. -/
def drawing (y thresh : Nat) : State := queued queue (cmd 5 0 0x13000 0) [(physKey 0x13000, 64, drawWord thresh), (physKey 0x14000, 16, 0), (physKey 0x14010, 16, 0x40000000),
  (physKey 0x14020, 16, y * 2 ^ 32), (physKey 0x15000, 12, 1 * 2 ^ 32 + 2 * 2 ^ 64)]
/-- The descriptor has been read. -/
def drawn (s : State) : State := ((s.sawEntry queue).sawAll queue.acc [(0x13000, 64)]).useFree 1
/-- Where a held page lies does not depend on what memory holds. -/
theorem storeLoc_held {z : State} {a : Acc} {va n k : Nat} (hl : (z.heldLeaf a va).isSome = true) (h : z.storeLoc a va n = .ok (.here k)) (m : Memory) :
    ({ z with mem := m } : State).storeLoc a va n = .ok (.here k) := by
  obtain ⟨l, hl⟩ := Option.isSome_iff_exists.1 hl
  have hm : ({ z with mem := m } : State).heldLeaf a va = some l := hl
  simp only [State.storeLoc, State.translate, hl, hm] at h ⊢
  exact h
/-- No area; small, at the threshold 3; large, at the threshold 2. -/
theorem wit_TrianglesAreDrawn : ∀ c ∈ [(0, 0x40000000), (0x40000000, 0x40800000), (0x40000000, 0x40000000)],
    let s := drawing c.1 c.2
    let d := drawOf (drawWord c.2)
    let t : List Vert := [{ x := 0, y := 0, z := 0 }, { x := 0x40000000, y := 0, z := 0 }, { x := 0, y := BitVec.ofNat 32 c.1, z := 0 }]
    s.Commands 5 5 queue (cmd 5 0 0x13000 0) ∧ s.accepted 5 = true ∧ (s.sawEntry queue).readVa queue.acc 0x13000 64 64 = .ok (drawWord c.2) ∧ d.count = 1 ∧ d.soft = 0 ∧
    (drawn s).triangle queue.acc d 0 = .ok t ∧ (∀ v ∈ t, finite v.x = true ∧ finite v.y = true ∧ isNan v.z = false) ∧ finite d.thresh = true ∧
    (∀ m, ∀ o, o = 0 ∨ o = 16 → ({ ((drawn s).triSaw queue.acc d 0).useFree 1 with mem := m } : State).storeLoc queue.acc ((d.list + o) % 2 ^ 64) (16 - 3 * o / 4) =
      .ok (.here (physKey 0x17000 + 4 * o))) ∧
    (∀ m, ∀ p < d.w * d.h, ({ ((drawn s).triSaw queue.acc d 0).useFree 1 with mem := m } : State).storeLoc queue.acc ((d.vis + 8 * p) % 2 ^ 64) 8 = .ok (.here (physKey 0x16000 + 32 * p))) ∧
    (∀ j, ¬ (within (physKey 0x17000) 20 j ∧ within (physKey 0x16000) (8 * (d.w * d.h)) j)) ∧ (physKey 0x17000 % 4 = 0 ∧ physKey 0x16000 % 4 = 0 ∧ s.pinned (physKey 0x17000) 20 = false ∧ s.pinned (physKey 0x16000) (8 * (d.w * d.h)) = false ∧ s.msys.late = []) ∧ d.list < 2 ^ 64 - 16 ∧ d.vis < 2 ^ 64 ∧
    (area2 t = 0 ↔ c.1 = 0) ∧ (((area2 t).natAbs : Int) < 2 * fx d.thresh * 2 ^ 149 ↔ c ≠ (0x40000000, 0x40000000)) := by
  intro c h
  simp only [List.mem_cons, List.not_mem_nil, or_false] at h
  rcases h with rfl | rfl | rfl <;>
  refine ⟨commands_of (by decide +kernel), by decide +kernel, yes (by haveI := @exDec; infer_instance) (by decide +kernel), by decide +kernel,
    by decide +kernel, yes (by haveI := @exDec; infer_instance) (by decide +kernel), by decide +kernel, by decide +kernel, ?_, ?_, ?_,
    ?_, ?_, ?_, ?_, ?_⟩
  all_goals first
    | decide +kernel
    | (intro m o ho; rcases ho with rfl | rfl <;>
       exact storeLoc_held (by decide +kernel) (yes (by haveI := @exDec; infer_instance) (by decide +kernel)) m)
    | (intro m p hp; have : p = 0 ∨ p = 1 := by (have : p < 2 := hp); omega
       rcases this with rfl | rfl <;>
         exact storeLoc_held (by decide +kernel) (yes (by haveI := @exDec; infer_instance) (by decide +kernel)) m)
    | (intro j hj; have h1 : j / 4 < physKey 0x16000 / 4 + 16 := hj.2.2.2
       simp only [physKey] at hj h1; omega)
/-- The third of those triangles covers the centre of the first pixel, at depth 0. -/
theorem wit_TrianglesAreDrawn_fragment : fragment [{ x := 0, y := 0, z := 0 }, { x := 0x40000000, y := 0, z := 0 }, { x := 0, y := 0x40000000, z := 0 }] 0 0 = some 0 := by
  decide +kernel
/-- A classify descriptor at 0x13000: a buffer of 2 by 1 pixels at 0x16800, materials of 8 triangles at 0x14000, 4 materials, their entries at
0x15000, the template at 0x10080. -/
def classifyWord : Nat := 0x16800 + (2 + 1 * 2 ^ 16) * 2 ^ 64 + 0x14000 * 2 ^ 128 + (8 + 4 * 2 ^ 32) * 2 ^ 192 + 0x15000 * 2 ^ 256 + 0x10080 * 2 ^ 320
/-- The first pixel shows triangle 5, of material 3, whose entry is 0x40; the second shows none. -/
def binning : State := queued queue (cmd 6 0 0x13000 0) ([(physKey 0x13000, 64, classifyWord), (physKey 0x16800, 16, 5 + 9 * 2 ^ 32),
  (physKey 0x14000, 16, 3 * 2 ^ 80), (physKey 0x15000, 16, 0x40 * 2 ^ 96)] ++ launchMem)
/-- That classification up to its launch. -/
def binned : Shaded := [(0, 0)].foldl (Shaded.tile queue.acc (classifyOf classifyWord) ((binning.sawEntry queue).visDie queue.part))
  { s := (binning.sawEntry queue).sawOne queue.acc 0x13000 64, shades := [], bad := none }
theorem wit_PixelsAreBinned : let s := binning
    let c := classifyOf classifyWord
    let r := (recordOf 0x10080 record).shading binned.shades.length
    let s1 := (((binned.s.sawOne queue.acc c.template 128).lateWrite queue.acc r.cw 8 0).lateWrite queue.acc (c.template + 0x70) 8
      (s.self * 2 ^ 52 + s.disp.seq % 2 ^ 52)).lateWords queue.acc r.fa (List.replicate 8 0)
    s.Commands 5 6 queue (cmd 6 0 0x13000 0) ∧ s.accepted 5 = true ∧ (s.sawEntry queue).readVa queue.acc 0x13000 64 64 = .ok classifyWord ∧
    c.template = 0x10080 ∧ ((List.range ((c.h + 63) / 64)).flatMap (fun ty => (List.range ((c.w + 63) / 64)).map (fun tx => (tx, ty)))) = [(0, 0)] ∧
    binned.bad = none ∧ binned.shades.length = 1 ∧ binned.s.readVa queue.acc c.template 128 128 = .ok record ∧ s.writable queue.acc r.cw 8 8 = true ∧
    s.writable queue.acc r.fa 2112 64 = true ∧ r.pod = false ∧ r.holdp = 0 ∧ r.coRes = false ∧ s.self * 2 ^ 52 + s.disp.seq % 2 ^ 52 ≠ 0 ∧
    ∃ x, s1.launchCheck queue.acc record (r.shading (max 1 binned.shades.length)) true = .ok x :=
  ⟨commands_of (by decide +kernel), by decide +kernel, yes (by haveI := @exDec; infer_instance) (by decide +kernel), by decide +kernel,
    by decide +kernel, by decide +kernel, by decide +kernel, yes (by haveI := @exDec; infer_instance) (by decide +kernel), by decide +kernel,
    by decide +kernel, by decide +kernel, by decide +kernel, by decide +kernel, by decide +kernel, some_ok (by decide +kernel)⟩
/-- A pixel that is kept and one that is skipped; a bin; the tile. -/
theorem wit_PixelsAreBinned_parts : let c := classifyOf classifyWord
    let x : Binned := { s := binning, px := [], bad := none }
    x.s.readVa queue.acc 0x16800 8 8 = .ok (5 + 9 * 2 ^ 32) ∧ (x.s.sawOne queue.acc 0x16800 8).readVa queue.acc ((c.table + 2 * 5) % 2 ^ 64) 2 1 = .ok 3 ∧
    5 < c.entries ∧ x.s.readVa queue.acc 0x16808 8 8 = .ok 0 ∧ binning.readVa queue.acc ((c.shaders + 4 * 3) % 2 ^ 64) 4 1 = .ok 0x40 ∧
    (Shaded.tile queue.acc c 0 { s := binning, shades := [], bad := none } (0, 0)).bad = none :=
  yes (by haveI := @exDec; infer_instance) (by decide +kernel)

/-! ## System requests, events, control registers -/

/-- One request at the head of the ring: number 0, its code, its operands. -/
def asked (code : Nat) (ws : List Nat) (m : List (Nat × Nat × Nat)) : State := spaced 0
  ([(physKey 0x040000007FF0, 8, 1), (physKey 0x040000007FF8, 8, 0), (physKey 0x040000008000, 8, code)] ++
   ws.zipIdx.map (fun x => (physKey (0x040000008008 + 8 * x.2), 8, x.1)) ++ m)
/-- The world with no context, whose queues and grids are as given. -/
def withQs (s : State) (qs : Store Queue) (gs : Store Grid) (done : Bool) : State := { s with
  grids := gs
  ctrl := { s.ctrl with
    queues := qs
    accept := 0x1FF
    acceptDone := done } }
/-- A put count beside take: 256 ahead, and 257 ahead; a served request of each kind. -/
theorem wit_RequestsAreAnswered : ∃ (s : State), s.campanileWaits = false ∧ s.ctrl.skip = none ∧ Bytes.num s.byte (physKey 0x040000007FF8) 8 = 0 ∧ 256 ≤ 0 + 256 ∧ 0 + 256 < 257 ∧
    s.ctrl.events = [] ∧ Bytes.num s.byte (physKey 0x04000000C000) 8 % 2 ^ 32 = 2 ∧ Bytes.num s.byte (physKey 0x04000000C000 + 32) 8 = 1 ∧
    Bytes.num s.byte (physKey 0x04000000C000 + 64) 8 = 0 ∧ s.ringKey 1 16 = some (physKey 0x17010) ∧
    s.eng.ops = [] ∧ s.msys.late = [] :=
  ⟨asked 0x11 [] [(physKey 0x04000000C000, 8, 2), (physKey 0x04000000C008, 8, 1)], by decide +kernel⟩
/-- A further put beyond the ring. -/
theorem wit_RequestsAreAnswered_skips : ∃ (s : State), s.campanileWaits = false ∧ s.ctrl.skip = some (256, 300) ∧
    Bytes.num s.byte (physKey 0x040000007FF8) 8 + 256 < 400 :=
  ⟨{ (asked 0x11 [] []) with ctrl := { State.reset.ctrl with skip := some (256, 300) } }, by decide +kernel⟩
theorem wit_EventsAreWritten_full : ∃ (s : State), s.ctrl.events = [] ∧ Bytes.num s.byte (physKey 0x04000000C000) 8 % 2 ^ 32 = 1 ∧
    Bytes.num s.byte (physKey 0x04000000C000 + 32) 8 - Bytes.num s.byte (physKey 0x04000000C000 + 64) 8 = 1 :=
  ⟨asked 0x11 [] [(physKey 0x04000000C000, 8, 1), (physKey 0x04000000C008, 8, 1)], by decide +kernel⟩
/-- SET_MODE to partitions 0 to 7, and with a queue mapped. -/
theorem wit_QueueAndModeRequests_mode : ∃ (s t : State), s.campanileWaits = false ∧ s.headRequest = some (0, 1) ∧ s.reqWord 0 0 = 1 ∧ s.reqWord 0 1 = 255 ∧ s.accepted 0 = true ∧
    s.ctrl.queues = [] ∧ s.grids = [] ∧ t.campanileWaits = false ∧ t.headRequest = some (0, 1) ∧ t.reqWord 0 0 = 0 ∧ t.reqWord 0 1 = 255 ∧
    (5, queue) ∈ t.ctrl.queues ∧ queue.mapped = true :=
  ⟨withQs (asked 1 [1, 255] []) [] [] true, withQs (asked 1 [0, 255] []) [(5, queue)] [] true, by decide +kernel⟩
/-- MAP_QUEUE of queue 4,095 by its control block at 0x26000: before ACCEPT, without a context, and served. -/
theorem wit_QueueAndModeRequests_map : ∃ (s t u : State), ∀ x ∈ [s, t, u], x.campanileWaits = false ∧ x.headRequest = some (0, 2) ∧ x.reqWord 0 0 = 4095 ∧ x.reqWord 0 1 % 64 = 0 ∧
    inHbm (x.reqWord 0 1) 192 = true ∧ s.ctrl.acceptDone = false ∧ t.ctrl.acceptDone = true ∧ t.hasPart 0 = true ∧ t.disp.ctxs.get? 0 = none ∧
    u.ctrl.acceptDone = true ∧ u.hasPart 0 = true ∧ u.disp.ctxs.get? 0 ≠ none ∧
    Bytes.num u.byte (physKey (0x26000 + 0x40 + 0x40 * (Bytes.num u.byte (physKey 0x26000) 8 % 2)) + 4 * 0xF) 1 = 0 := by
  let m := [(physKey 0x26000, 8, 1), (physKey 0x26080, 64, 0x11000 + 16 * 2 ^ 64 + 0x1000 * 2 ^ 128 + 0x12000 * 2 ^ 192 + 0x12040 * 2 ^ 256),
    (physKey 0x12000, 8, 0), (physKey 0x12040, 16, 0)]
  let s := withQs (asked 2 [4095, 0x26000] m) [] [] false
  let u := withQs (asked 2 [4095, 0x26000] m) [] [] true
  exact ⟨s, { u with disp := { u.disp with ctxs := [] } }, u, by decide +kernel⟩
theorem wit_QueueAndModeRequests_queues : ∃ (unmap reset fine : State) (q : Queue), unmap.campanileWaits = false ∧ unmap.headRequest = some (0, 3) ∧ unmap.reqWord 0 0 = 4095 ∧
    Store.wf unmap.ctrl.queues = true ∧ (unmap.queue 4095).mapped = true ∧ reset.campanileWaits = false ∧ reset.headRequest = some (0, 4) ∧ reset.reqWord 0 0 = 4095 ∧
    reset.ctrl.queues.get? 4095 = some q ∧ q.state = 2 ∧ fine.campanileWaits = false ∧ fine.headRequest = some (0, 4) ∧ fine.reqWord 0 0 = 4095 ∧
    fine.ctrl.queues.get? 4095 = some queue ∧ queue.state ≠ 2 :=
  ⟨withQs (asked 3 [4095] []) [(4095, queue)] [] true, withQs (asked 4 [4095] []) [(4095, { queue with state := 2 })] [] true,
    withQs (asked 4 [4095] []) [(4095, queue)] [] true, { queue with state := 2 }, by decide +kernel⟩
/-- SET_POOLS of partition 7, context 1, in partitioned mode: fine, with overlapping regions, and with a grid. -/
def poolsWord (save : Nat) : Nat := 0x7010000000 + 0x7020000000 * 2 ^ 64 + 0x1000 * 2 ^ 128 + 0x7020001000 * 2 ^ 192 + 0x1000 * 2 ^ 256 + save * 2 ^ 320 +
  0x1000 * 2 ^ 384
def pools (save : Nat) (gs : Store Grid) : State :=
  let s := withQs (asked 0xF [7 + 256, 0x7000000000] [(physKey 0x7000000000, 64, poolsWord save)]) [] gs true
  { s with disp := { s.disp with whole := false } }
theorem wit_QueueAndModeRequests_pools : ∀ c ∈ [(0x7020002000, ([] : Store Grid)), (0x7020001000, []), (0x7020002000, [(1, { grid with part := 7, ctx := 1 })])],
    let s := pools c.1 c.2
    s.campanileWaits = false ∧ s.headRequest = some (0, 0xF) ∧ s.reqWord 0 0 = 7 + 256 ∧ s.hasPart 7 = true ∧ s.disp.whole = false ∧ s.reqWord 0 1 = 0x7000000000 ∧
    s.hbmOf 7 0x7000000000 64 = true ∧
    (let f (i : Nat) := Bytes.num s.byte (physKey 0x7000000000 + 32 * i) 8
     let rs := [(f 0, 4352 * 1024 * (s.coresOf 7).length), (f 1, f 2), (f 3, f 4), (f 5, f 6)]
     let apart (a b : Nat × Nat) : Prop := a.2 = 0 ∨ b.2 = 0 ∨ a.1 + a.2 ≤ b.1 ∨ b.1 + b.2 ≤ a.1
     ((∀ r ∈ rs, r.1 % 4096 = 0 ∧ r.2 % 4096 = 0 ∧ s.hbmOf 7 r.1 r.2 = true) ∧ rs.Pairwise apart ↔ c.1 = 0x7020002000) ∧
     s.disp.ctxs.get? 14 = none ∧ s.ctrl.queues = [] ∧ s.grids = c.2) := by decide +kernel
theorem wit_QueueAndModeRequests_accept : ∃ (s t u : State), s.campanileWaits = false ∧ s.headRequest = some (0, 0x10) ∧ s.reqWord 0 0 + s.reqWord 0 1 * 2 ^ 64 = 0x1FF ∧
    s.ctrl.acceptDone = false ∧ t.campanileWaits = false ∧ t.headRequest = some (0, 0x10) ∧ t.reqWord 0 0 + t.reqWord 0 1 * 2 ^ 64 = 0x200 ∧
    u.campanileWaits = false ∧ u.headRequest = some (0, 0x10) ∧ u.ctrl.acceptDone = true :=
  ⟨asked 0x10 [0x1FF, 0] [], asked 0x10 [0x200, 0] [], withQs (asked 0x10 [0, 0] []) [] [] true, by decide +kernel⟩
/-- A parked ray with a call-out, and grid 1. -/
def parkedRay (s : State) (gr : Grid) : State := { s with
  grids := [(1, gr)]
  spire := { s.spire with
    rays := [(9, { ray with st := .parked, cand := some { t := 0, u := 0, v := 0, inst := 0, prim := 0, back := false, proc := false, verdict := false, ver := 0 } })]
    parked := [9] } }
theorem wit_WorkRequests_preempt : ∃ (s full none_ : State) (big : Grid), s.campanileWaits = false ∧ s.headRequest = some (0, 5) ∧ s.reqWord 0 0 = 1 ∧ s.grids.get? 1 = some grid ∧
    grid.state ≠ .done ∧ grid.pre = .none ∧ s.saveRoom 1 grid = true ∧ s.still 1 = false ∧ full.campanileWaits = false ∧ full.headRequest = some (0, 5) ∧ full.reqWord 0 0 = 1 ∧
    full.grids.get? 1 = some big ∧ big.state ≠ .done ∧ big.pre = .none ∧ full.saveRoom 1 big = false ∧ none_.campanileWaits = false ∧ none_.headRequest = some (0, 5) ∧
    none_.reqWord 0 0 = 1 ∧ none_.grids.get? 1 = some grid ∧ none_.saveRoom 1 grid = true ∧ none_.still 1 = true :=
  let s := asked 5 [1] []
  let big : Grid := { grid with h := { grid.h with saveBytes := 0x8001 } }
  ⟨{ s with groups := [(1, group)], grids := [(1, grid)] }, { s with groups := [(1, group)], grids := [(1, big)] }, { s with grids := [(1, grid)] }, big,
    by decide +kernel⟩
theorem wit_WorkRequests_withdraw : ∃ (s t : State) (g : Grid) (r : Ray), s.campanileWaits = false ∧ s.headRequest = some (0, 6) ∧ s.reqWord 0 0 = 1 ∧ s.grids.get? 1 = some g ∧
    g.pre = .pending ∧ 9 ∈ s.spire.parked ∧ s.spire.rays.get? 9 = some r ∧ r.grid = 1 ∧ r.cand.isSome = true ∧ t.campanileWaits = false ∧ t.headRequest = some (0, 6) ∧
    t.reqWord 0 0 = 1 ∧ t.grids.get? 1 = some grid ∧ grid.pre ≠ .pending :=
  let g : Grid := { grid with pre := .pending }
  let s := parkedRay (asked 6 [1] []) g
  ⟨s, parkedRay (asked 6 [1] []) grid, g, _, by decide +kernel, by decide +kernel, by decide +kernel, by decide +kernel, rfl, by decide +kernel, rfl,
    by decide +kernel⟩
theorem wit_WorkRequests_resume : ∃ (s t : State) (g : Grid), s.campanileWaits = false ∧ s.headRequest = some (0, 7) ∧ s.reqWord 0 0 = 1 ∧ s.grids.get? 1 = some g ∧ g.state ≠ .done ∧
    g.pre ≠ .pending ∧ (∃ e ∈ s.groups, e.2.grid = 1 ∧ e.2.place = .taken) ∧ t.campanileWaits = false ∧ t.headRequest = some (0, 7) ∧ t.reqWord 0 0 = 1 ∧
    t.grids.get? 1 = some g ∧ t.groups = [] ∧ t.teams = [] :=
  let g : Grid := { grid with pre := .complete }
  ⟨{ (parkedRay (asked 7 [1] []) g) with groups := [(1, { group with place := .taken })] }, parkedRay (asked 7 [1] []) g, g, by decide +kernel⟩
theorem wit_WorkRequests_swap : ∃ (s t : State), s.campanileWaits = false ∧ s.headRequest = some (0, 0xB) ∧ s.reqWord 0 0 = 7 ∧ s.disp.whole = false ∧ s.hasPart 7 = true ∧
    Store.wf s.ctrl.queues = true ∧ s.disp.running.length = 8 ∧ s.eligible 7 ≠ [] ∧ s.raysStill 7 0 = true ∧ s.accessesStill 7 0 = true ∧ s.disp.running.getD 7 0 = 0 ∧ t.campanileWaits = false ∧ t.headRequest = some (0, 0xB) ∧ t.reqWord 0 0 = 7 ∧ t.disp.whole = true :=
  let s := withQs (asked 0xB [7] []) [(5, { queue with part := 7 })] [] true
  ⟨{ s with disp := { s.disp with whole := false } }, asked 0xB [7] [], by decide +kernel⟩
/-- A ray of the running context has not parked: SWAP goes on later. -/
theorem wit_WorkRequests_halting : ∃ (s : State), s.campanileWaits = false ∧ s.headRequest = some (0, 0xB) ∧ s.reqWord 0 0 = 7 ∧ s.disp.whole = false ∧
    s.hasPart 7 = true ∧ Store.wf s.ctrl.queues = true ∧ s.disp.running.length = 8 ∧ s.raysStill 7 (s.disp.running.getD 7 0) = false :=
  let s := withQs (asked 0xB [7] []) [] [(1, { grid with part := 7 })] true
  ⟨{ s with
      disp := { s.disp with whole := false }
      spire := { s.spire with rays := [(9, ray)] } }, by decide +kernel⟩
/-- A load of the running context is on its way: SWAP goes on later. -/
theorem wit_WorkRequests_loading : ∃ (s : State), s.campanileWaits = false ∧ s.headRequest = some (0, 0xB) ∧ s.reqWord 0 0 = 7 ∧ s.disp.whole = false ∧
    s.hasPart 7 = true ∧ Store.wf s.ctrl.queues = true ∧ s.disp.running.length = 8 ∧ s.accessesStill 7 (s.disp.running.getD 7 0) = false :=
  let s := withQs (asked 0xB [7] []) [] [(1, { grid with part := 7 })] true
  ⟨{ s with
      disp := { s.disp with whole := false }
      groups := [(1, loading)] }, by decide +kernel⟩
/-- The parked ray leaves each unit room. -/
theorem wit_WorkRequests_roomy : ∀ u, (parkedRay (asked 6 [1] []) grid).unitHolds u + (parkedRay (asked 6 [1] []) grid).spire.parked.length ≤ 16384 := by
  intro u
  simp [parkedRay, State.unitHolds]
/-- Two dropped translations, one kept; two held pages in the range. -/
theorem wit_WorkRequests_shootdown : ∃ (s t : State), (∀ x ∈ [s, t], x.campanileWaits = false ∧ x.headRequest = some (0, 8) ∧ x.reqWord 0 0 = 0 ∧ x.reqWord 0 1 = 0x11000 ∧
    x.reqWord 0 2 = 0x1001 ∧ x.mmu.tlb.length = 3 ∧ (x.mmu.tlb.filter (fun e => e.asid = 0 ∧ e.leaf.base < 0x12001 ∧ 0x11000 < e.leaf.base + e.leaf.size)).length = 2 ∧
    (x.mmu.held.filter (fun h => h.asid = 0 ∧ 4096 * h.page < 0x12001 ∧ 0x11000 < 4096 * h.page + 4096)).length = 2) ∧
    s.spaceBusy 0 = false ∧ t.spaceBusy 0 = true :=
  let e (p : Nat) : TlbEntry := { place := 0, part := 0, asid := 0, leaf := (page 0 p p).leaf }
  let s := asked 8 [0, 0x11000, 0x1001] []
  let s1 := { s with mmu := { s.mmu with tlb := [e 0x10, e 0x11, e 0x12] } }
  ⟨s1, { s1 with groups := [(1, { group with unacked := [(0, 0x10000, 3)] })], grids := [(1, grid)] }, by decide +kernel⟩
/-- The host's answer to presence request 3 of grid 1. -/
def presence (ok : Nat) : State := let s := asked 0xA [3, ok] []
  { s with
    grids := [(1, { grid with state := .presence })]
    mmu := { s.mmu with asked := [{ part := 0, seq := 3, level := 4, asid := 0, va := 0x50000, task := false, owner := 1, since := 0, granted := false }] } }
/-- A translation of the range that stands for a hold. -/
theorem wit_WorkRequests_shootdown_held : ∃ (e : TlbEntry), e.held = true ∧ e.asid = 0 ∧ e.leaf.base < 0x12001 ∧ 0x11000 < e.leaf.base + e.leaf.size :=
  ⟨{ place := 0, part := 0, asid := 0, leaf := (page 0 0x11 0x11).leaf, held := true }, by decide +kernel⟩
theorem wit_WorkRequests_presence : ∀ ok ∈ [0, 1], ∃ (q : Presence) (g : Grid), (presence ok).campanileWaits = false ∧ (presence ok).headRequest = some (0, 0xA) ∧ (presence ok).reqWord 0 0 = 3 ∧
    (presence ok).reqWord 0 1 = ok ∧ (presence ok).mmu.asked.find? (fun p => p.seq == 3 && !p.granted) = some q ∧ q.task = false ∧
    (presence ok).grids.get? q.owner = some g ∧ (presence ok).awaits g = true ∧ g.gang = false ∧ g.launcher = true ∧ g.r.pod = false ∧
    g.r.cancelOnFault = false ∧ g.state = .presence := by
  intro ok h
  simp only [List.mem_cons, List.not_mem_nil, or_false] at h
  rcases h with rfl | rfl <;>
  exact ⟨{ part := 0, seq := 3, level := 4, asid := 0, va := 0x50000, task := false, owner := 1, since := 0, granted := false }, { grid with state := .presence },
    by decide +kernel⟩
theorem wit_WorkRequests_release : ∃ (s : State) (g : Group), s.campanileWaits = false ∧ s.headRequest = some (0, 0xC) ∧ s.reqWord 0 0 = 1 ∧ s.reqWord 0 1 = 0 ∧ s.reqWord 0 2 = 0 ∧
    s.groups.find? (fun e => e.2.halted && e.2.grid == 1 && (s.teamOf e.2).index == 0 && e.2.index == 0) = some (1, g) :=
  let g := { group with halted := true }
  ⟨{ (asked 0xC [1, 0, 0] []) with groups := [(1, g)], teams := [(1, team)], grids := [(1, grid)] }, g, by decide +kernel⟩
/-- WRITE_REG of a unit of a register, with what the register holds. -/
def writes (r : CtlReg) (u w old : Nat) : State :=
  (withQs (asked 9 [r.ctorIdx, u, w] []) [] [] true).ctlSet r u (BitVec.ofNat 64 old)
/-- A request to write a unit of a register, and what that unit holds, as the statement reads them. -/
theorem wit_RegistersAreWritten : ∀ c ∈ [(CtlReg.mxIssues, 191, 5, 0), (.mxIssues, 192, 5, 0), (.memClassDeadline, 7, 5, 0), (.dbgCtl, 7, 1, 0),
      (.fabGrpCtl, 63, 5, 0), (.fabGrpCtl, 63, 5 + 2 ^ 63, 0), (.fabGrpCtl, 63, 5, 2 ^ 63), (.fabGrpCtl, 63, 5 + 2 ^ 63, 2 ^ 63),
      (.fabDomain, 0, 5, 0), (.fabDomain, 0, 0xFFF + 2 ^ 63, 0), (.fabDomain, 0, 5, 2 ^ 63), (.memRemapCtl, 7, 2 ^ 17, 0), (.memRemapCtl, 7, 2 ^ 17, 2 ^ 15),
      (.memRemapCtl, 7, 2 ^ 16 + 2 ^ 18 + 4 * 2 ^ 20, 0), (.memRemapCtl, 7, 2 ^ 16 + 2 ^ 18 + 5 * 2 ^ 20, 0), (.memRemapCtl, 7, 2 ^ 16, 2 ^ 15),
      (.pwrGrants, 3, 64, 48), (.memCupolaPin, 7, 32, 8), (.memCupolaPin, 7, 33, 8), (.memBlockFamily, 32767, 4, 1)],
    let s := writes c.1 c.2.1 c.2.2.1 c.2.2.2
    s.campanileWaits = false ∧ s.headRequest = some (0, 9) ∧ regAt (s.reqWord 0 0) = some c.1 ∧ s.reqWord 0 1 = c.2.1 ∧ s.reqWord 0 2 = c.2.2.1 ∧
    (s.ctlGet c.1 c.2.1).toNat = c.2.2.2 ∧ s.accepted 6 = true ∧ s.accepted 8 = true ∧ (c.1.units ≤ c.2.1 ↔ c.2.1 = 192) ∧
    (c.1.wmask = 0 ↔ c.1 = .mxIssues) := by decide +kernel
theorem wit_RegistersAreWritten_none : ∃ (s t : State), s.campanileWaits = false ∧ s.headRequest = some (0, 9) ∧ ctlTable.length + 2 ≤ s.reqWord 0 0 ∧
    t.campanileWaits = false ∧ t.headRequest = some (0, 9) ∧ regAt (t.reqWord 0 0) = some .fabGrpCtl ∧ t.reqWord 0 2 / 2 ^ 63 % 2 = 1 ∧ t.accepted 6 = false :=
  ⟨asked 9 [ctlTable.length + 2, 0, 0] [], asked 9 [CtlReg.fabGrpCtl.ctorIdx, 0, 2 ^ 63] [], by decide +kernel⟩
/-- A family with codes, which was not accepted. -/
theorem wit_RegistersAreWritten_family : ∃ (s : State), s.campanileWaits = false ∧ s.headRequest = some (0, 9) ∧ regAt (s.reqWord 0 0) = some .memBlockFamily ∧
    s.reqWord 0 1 = 7 ∧ s.reqWord 0 2 % 8 = 5 ∧ s.accepted 2 = false :=
  ⟨asked 9 [CtlReg.memBlockFamily.ctorIdx, 7, 5] [], by decide +kernel⟩

/-! ## Dexlink, the memory system, firmware, soft errors -/

/-- FAB_GRP_CTL of group 5 with two members, joined; FORMAT 2. -/
def grpCtl (kind : Nat) : Nat := 5 + 2 * 2 ^ 16 + 100 * 2 ^ 32 + 2 * 2 ^ 60 + kind * 2 ^ 62 + 2 ^ 63
/-- Entry 63 of that group at a round: window 0x10000, destination 0x12000, completion word 0x13000. -/
def reducing (kind : Nat) (r : GrpRound) : State :=
  ((({ (spaced 0 [(physKey 0x10000, 256, 0x3F800000)]) with fab := { State.reset.fab with
      groups := [(63, r)]
      joins := [(5, [(0, grpCtl kind), (3, grpCtl kind)])] } }.ctlSet .fabGrpCtl 63 (BitVec.ofNat 64 (grpCtl kind))).ctlSet .fabGrpWin 63 0x10000).ctlSet
      .fabGrpDst 63 0x12000).ctlSet .fabGrpDone 63 0x13000
/-- A round with a contribution. -/
def round : GrpRound := { asked := false, live := true, round := 4, busy := true, go := none, data := toLe 256 0x3F800000, since := 0, late := none }
theorem wit_ReductionGroups_join : ∃ (s t u w : State), s.fab.joins.getD 5 [] = [(3, grpCtl 0)] ∧ s.self = 0 ∧ 2 = (grpCtl 0) / 2 ^ 16 % 2 ^ 13 ∧
    (s.grpRound 63).asked = true ∧ (s.ctlGet .fabGrpCtl 63).toNat = grpCtl 0 % 2 ^ 63 ∧ (∀ d < 63, (s.grpRound d).asked = false) ∧
    t.fab.joins.getD 5 [] = [(3, grpCtl 1)] ∧ (t.grpRound 63).asked = true ∧ (t.ctlGet .fabGrpCtl 63).toNat = grpCtl 0 % 2 ^ 63 ∧ t.self = 0 ∧
    u.fab.joins.getD 5 [] = [] ∧ w.fab.joins.getD 5 [] = [(0, grpCtl 0)] ∧ (w.ctlGet .fabGrpCtl 63).toNat = grpCtl 0 :=
  let r := { round with asked := true, live := false, busy := false }
  let f (k : Nat) : State := { (reducing 0 r).ctlSet .fabGrpCtl 63 (BitVec.ofNat 64 (grpCtl 0 % 2 ^ 63)) with fab := { (reducing 0 r).fab with
    joins := [(5, [(3, grpCtl k)])] } }
  ⟨f 0, f 1, State.reset, { (reducing 0 { r with asked := false }) with fab := { (reducing 0 r).fab with joins := [(5, [(0, grpCtl 0)])] } }, by decide +kernel⟩
theorem wit_ReductionGroups_go : ∃ (s t : State) (r q : GrpRound), s.grpRound 63 = r ∧ r.go = some (1, 0) ∧ r.live = true ∧ r.late.getD 0 < r.round ∧
    t.grpRound 63 = q ∧ q.go = some (1, 0) ∧ q.live = true ∧ q.round ≤ q.late.getD 0 ∧ s.groups = [(1, group)] ∧ t.groups = [(1, group)] ∧
    group.unperformed (laneBit 0) true = false :=
  let r := { round with go := some (1, 0) }
  let q := { r with late := some 4 }
  ⟨{ (reducing 0 r) with groups := [(1, group)] }, { (reducing 0 q) with groups := [(1, group)] }, r, q, by decide +kernel⟩
theorem wit_ReductionGroups_rounds : ∀ kind ∈ [0, 1], let s := reducing kind round
    (s.ctlGet .fabGrpCtl 63).toNat / 2 ^ 63 = 1 ∧ (s.ctlGet .fabGrpCtl 63).toNat / 2 ^ 62 % 2 = kind ∧ (s.grpRound 63).live = true ∧
    (s.ctlGet .fabGrpDst 63).toNat / 2 ^ 8 % 2 ^ 44 * 2 ^ 8 = 0x12000 ∧ (s.ctlGet .fabGrpDone 63).toNat / 2 ^ 3 % 2 ^ 49 * 2 ^ 3 = 0x13000 ∧
    s.inMemory 0x12000 256 = true ∧ s.inMemory 0x13000 8 = true ∧ (s.grpRound 63).busy = true ∧ (s.grpRound 63).go = none ∧
    (s.ctlGet .fabDomain 0).toNat / 2 ^ 63 = 1 ∧ s.pinned (physKey 0x12000) 256 = false ∧ s.pinned (physKey 0x13000) 8 = false ∧ s.msys.late = [] ∧
    (s.grpRound 63).late = none ∧ (∀ j ∈ s.fab.joins.getD ((s.ctlGet .fabGrpCtl 63).toNat % 2 ^ 12) [], j.1 ∉ s.fab.unreachable) := by decide +kernel
/-- Before FAB_DOMAIN is set; and with the completion word pinned. -/
theorem wit_ReductionGroups_held : ∃ (s t : State), (s.ctlGet .fabDomain 0).toNat / 2 ^ 63 = 0 ∧ (s.grpRound 63).live = true ∧
    (s.ctlGet .fabGrpCtl 63).toNat / 2 ^ 63 = 1 ∧ (t.ctlGet .fabDomain 0).toNat / 2 ^ 63 = 1 ∧ (t.grpRound 63).live = true ∧
    (t.ctlGet .fabGrpCtl 63).toNat / 2 ^ 63 = 1 ∧ t.pinned (physKey 0x13000) 8 = true :=
  ⟨(reducing 0 round).ctlSet .fabDomain 0 0, { (reducing 0 round) with eng := { State.reset.eng with
    ops := [{ pinning with rows := [(true, [[{ key := physKey 0x13000, len := 64 }]])] }] } }, by decide +kernel⟩
theorem wit_ReductionGroups_apart : ∀ j, ¬ (within (physKey 0x12000) 256 j ∧ within (physKey 0x13000) 8 j) := by
  intro j h
  have h1 := h.2.2.1
  have h2 := h.1.2.2
  simp only [physKey] at h1 h2
  omega
/-- Loads from part 3 and part 4 are under way, and writes to both. -/
def away (part : Nat) : Pend := { result with id := part, src := .remote part 0x40 4 false, lanes := 1 }
/-- Rounds of a group that adds: given, and not given; a multicast's copy and its sender's turn are above. -/
theorem wit_ReductionGroups_timeout : ∀ r ∈ [round, { round with busy := false }, { round with go := some (1, 0) }], let s := reducing 0 r
    (s.ctlGet .fabGrpCtl 63).toNat / 2 ^ 63 = 1 ∧ (s.ctlGet .fabGrpCtl 63).toNat / 2 ^ 62 % 2 = 0 ∧ (s.grpRound 63).live = true ∧
    s.inMemory ((s.ctlGet .fabGrpDone 63).toNat / 2 ^ 3 % 2 ^ 49 * 2 ^ 3) 8 = true := by decide +kernel
/-- A multicast some of whose members cannot be reached. -/
theorem wit_ReductionGroups_lost : let s := reducing 1 round
    let t := { s with fab := { s.fab with unreachable := [3] } }
    ∃ j ∈ t.fab.joins.getD ((t.ctlGet .fabGrpCtl 63).toNat % 2 ^ 12) [], j.1 ≠ t.self ∧ j.1 ∈ t.fab.unreachable := ⟨(3, grpCtl 1), by decide +kernel⟩
theorem wit_LinksAndUnreachableParts : ∃ (s : State) (g : Group), (3 : Nat) ≠ s.self ∧ 3 ∉ s.fab.unreachable ∧
    (∀ e ∈ s.groups, e.2.place = .resident ∧ (∀ q ∈ s.copyPieces e.1, q.2.2 ≠ 3) ∧ ∀ q ∈ s.drainPieces e.1, q.2 ≠ 3) ∧
    (∀ e < 64, (s.ctlGet .fabGrpCtl e).toNat / 2 ^ 63 = 1 → (s.ctlGet .fabGrpCtl e).toNat / 2 ^ 62 % 2 = 0 →
      ∀ j ∈ s.fab.joins.getD ((s.ctlGet .fabGrpCtl e).toNat % 2 ^ 12) [], j.1 ≠ 3) ∧ s.groups.get? 1 = some g ∧ g.pend = [away 3, away 4] ∧
    g.unacked = [(0, 0x80, 3), (0, 0x88, 4)] :=
  let g : Group := { group with pend := [away 3, away 4], unacked := [(0, 0x80, 3), (0, 0x88, 4)] }
  ⟨world g [], g, by decide +kernel⟩
/-- Part 0 itself, and a part that is lost already. -/
theorem wit_LinksAndUnreachableParts_known : (0 : Nat) = State.reset.self ∧ ∃ s : State, 3 ∈ s.fab.unreachable :=
  ⟨by decide +kernel, { State.reset with fab := { State.reset.fab with unreachable := [3] } }, by decide +kernel⟩
/-- One event of each kind. -/
theorem wit_OutsideEventsComplete : ∀ i ∈ [Instr.linkResend 17, .linkTakenOutOfService 0, .linkUp 17, .homeUnreachable 3, .eccError 5 16 1],
    ∃ (port part place unit fatal : Nat), i ∈ [.linkResend port, .linkTakenOutOfService port, .linkUp port, .homeUnreachable part, .eccError place unit fatal] := by
  intro i h
  simp only [List.mem_cons, List.not_mem_nil, or_false] at h
  rcases h with rfl | rfl | rfl | rfl | rfl
  · exact ⟨17, 0, 0, 0, 0, by simp⟩
  · exact ⟨0, 0, 0, 0, 0, by simp⟩
  · exact ⟨17, 0, 0, 0, 0, by simp⟩
  · exact ⟨0, 3, 0, 0, 0, by simp⟩
  · exact ⟨0, 0, 5, 16, 1, by simp⟩
/-- Port 17, before and after FAB_DOMAIN is set; bytes at 0x10000, whose number is 7. -/
def ported : State := (spaced 0 [(physKey 0x10000, 8, 7)]).ctlSet .fabDomain 0 (BitVec.ofNat 64 (2 ^ 63 + 3))
theorem wit_RequestsFromPorts : State.reset.ctlGet .fabDomain 0 = 0 ∧ (ported.ctlGet .fabDomain 0).toNat / 2 ^ 63 = 1 ∧
    ported.inMemory 0x9000000000 8 = false ∧ ported.inMemory 0x10000 8 = true ∧ ported.pinned (physKey 0x10000) 8 = false ∧
    ported.inMemory 0x10000 4 = true ∧ ported.pinned (physKey 0x10000) 4 = false ∧ (2 + 32 * 8) % 32 = 2 ∧ (2 + 32 * 8) / 32 = 8 ∧
    (2 + 32 * 9) / 32 = 9 ∧ (3 + 32 * 0x3A) % 32 = 3 ∧ (3 + 32 * 0x3A) / 32 = 0x3A ∧ (3 + 32 * 0x38) / 32 = 0x38 := by decide +kernel
/-- A write to bytes that an issue has still to read. -/
theorem wit_RequestsFromPorts_pinned : ∃ s : State, (s.ctlGet .fabDomain 0).toNat / 2 ^ 63 = 1 ∧ s.inMemory 0x12200 8 = true ∧ s.pinned (physKey 0x12200) 8 = true :=
  ⟨{ ported with eng := { ported.eng with ops := [pinning] } }, by decide +kernel⟩
theorem wit_DueInputComes_held : ∃ (s : State) (i : Instr) (t : List (Nat × Instr)), s.settled.pendB = none ∧ s.settled.env.agenda = (0, i) :: t ∧
    ({ s.settled with cur := none } : State).inputHeld i = true :=
  ⟨{ ported with
      eng := { ported.eng with ops := [pinning] }
      env := { ported.env with agenda := [(0, .fabricIngressRequest 17 1 0x12200 8 5 0 0)] } }, .fabricIngressRequest 17 1 0x12200 8 5 0 0, [],
    by decide +kernel⟩
/-- A dirty line that an issue has still to read. -/
theorem wit_FencesAndCacheForms_dirty : ∃ (s : State) (q : Turn), Ok s q (.cflush 6 0) ∧ (q.g.core, physKey 0x10040 / 4 / 128) ∈ s.mmu.dirty ∧
    s.pinned (physKey (physKey 0x10040 / 4 / 128 * 128)) 128 = true ∧ s.checkAddr q.g 0 (q.w 6 0).toNat 1 1 .load = .ok (.here (physKey 0x10040)) :=
  ⟨{ memory with
      eng := { State.reset.eng with ops := [{ pinning with rows := [(true, [[{ key := physKey 0x10000, len := 64 }]])] }] }
      mmu := { memory.mmu with dirty := [(0, physKey 0x10040 / 4 / 128)] } }, turn addressed, ok_of (by decide +kernel),
    yes (by haveI := @exDec; infer_instance) (by decide +kernel)⟩
theorem wit_IdentityBlock : ∃ port o n : Nat, port < 18 ∧ o + n ≤ 0x40 ∧ o = 0x3F ∧ n = 1 := ⟨17, 0x3F, 1, by decide⟩
/-- Requests at pseudo-channel 511: of class 2 without a deadline, of class 1 with one that has passed, and of class 1. -/
def memReqs (arrived : Nat) : State :=
  let q (id cls : Nat) (d : Option Nat) : MemReq :=
    { id := id, pc := 511, addr := 64 * id, sector := 64 * id, cls := cls, deadline := d, arrived := arrived, requester := 3, write := false, family := 1,
      span := 0, fill := false, serves := none }
  { (spaced 0 []) with msys := { State.reset.msys with reqs := [q 1 2 none, q 2 1 (some 5), q 3 1 none] } }
theorem wit_MemoryRequestsAreScheduled : ∀ arrived ∈ [412666, 412667], let s := memReqs arrived
    let l := s.msys.reqs.filter (fun q => q.pc == 511)
    l.length = 3 ∧ (arrived = 412666 → ∀ q ∈ l, 4000 ≤ s.podTime - q.arrived) ∧ (arrived = 412667 → ∀ q ∈ l, ¬ 4000 ≤ s.podTime - q.arrived) ∧
    s.msys.cupola = [] ∧ (∃ q ∈ l, q.deadline = some 5 ∧ 5 < s.podTime ∧ q.serves = none ∧ q.judge = [] ∧ q.requester < 506) := by decide +kernel
/-- A request alone in its queue: a fetch, or an access to sector 1 of a line; and that line. -/
def alone (fill : Bool) : MemReq :=
  { id := 1, pc := 511, addr := 64, sector := 64, cls := 3, deadline := none, arrived := 5, requester := 3, write := false, family := 1, span := 0,
    fill := fill, serves := none }
def lined (fill : Bool) (held : Nat) : State := { (spaced 0 []) with msys := { State.reset.msys with
  reqs := [alone fill]
  cupola := [(511 * 2 ^ 19, { held := BitVec.ofNat 32 held, touched := 0, entry := 0 })] } }
/-- A fetch; an access whose sector the line holds, and one whose sector it does not hold; Cupola has lines. -/
theorem wit_MemoryRequestsAreScheduled_lines : ∀ c ∈ [(true, 0), (false, 2), (false, 1)],
    (lined c.1 c.2).msys.reqs.filter (fun q => q.pc == 511) = [alone c.1] ∧ (alone c.1).fill = c.1 ∧ (alone c.1).sec = 1 ∧
    (lined c.1 c.2).msys.cupola.get? (alone c.1).line = some { held := BitVec.ofNat 32 c.2, touched := 0, entry := 0 } ∧
    0 < (lined c.1 c.2).cupolaLines (511 / 64) := by decide +kernel
/-- A request of Cupola itself. -/
theorem wit_MemoryRequestsAreScheduled_cupola : let q := { (alone false) with pc := 520, deadline := some 5 }
    let s : State := { (spaced 0 []) with msys := { State.reset.msys with reqs := [q] } }
    s.msys.reqs.filter (fun q => q.pc == 520) = [q] ∧ 5 < s.podTime := by decide +kernel
theorem wit_MemoryRequestsAreScheduled_alert : ∃ s t : State, s.msys.postponed.getD (511 * 16 + 15) 0 = 8 ∧ t.msys.postponed.getD (511 * 16 + 15) 0 ≠ 8 :=
  ⟨{ (memReqs 0) with msys := { State.reset.msys with postponed := [(511 * 16 + 15, 8)] } }, memReqs 0, by decide +kernel⟩
/-- MEM_REMAP_CTL of span 7: sweeping family 4, the last block next, or more to come. -/
def sweeping (ptr : Nat) : State := { (spaced 0 []).ctlSet .memRemapCtl 7 (BitVec.ofNat 64 (ptr * 2 ^ 48 + 2 ^ 15 + 4 * 2 ^ 20 + 2 ^ 18)) with
  msys := { State.reset.msys with sweeps := [(7, (4, 1))] } }
theorem wit_SweepsAndHotness : ∀ ptr ∈ [32766, 32767], let c := ((sweeping ptr).ctlGet .memRemapCtl 7).toNat
    c / 2 ^ 15 % 2 = 1 ∧ (sweeping ptr).msys.sweeps.get? 7 = some (4, 1) ∧ c / 2 ^ 48 + 1 = ptr + 1 ∧ (sweeping ptr).disp.whole = true := by decide +kernel
/-- The threshold of span 7, 5, is passed by its family 6: while a sweep runs, with AUTO, and without. -/
theorem wit_SweepsAndHotness_threshold : ∀ c ∈ [2 ^ 15, 2 ^ 17, 0],
    let s := (((spaced 0 []).ctlSet .memRemapCtl 7 (BitVec.ofNat 64 c)).ctlSet .memRemapThresh 7 5).ctlSet .memFamRowconf 62 6
    (s.ctlGet .memRemapCtl 7).toNat = c ∧ (s.ctlGet .memRemapThresh 7).toNat < (s.ctlGet .memFamRowconf (7 * 8 + 6)).toNat ∧
    7 * 8 + 6 ∉ s.msys.passed := by decide +kernel
theorem wit_SweepsAndHotness_windows : ∃ s : State, 1000 * ((s.ctlGet .memRemapWindow 7).toNat % 2 ^ 32) + s.msys.window.getD 7 0 ≤ s.podTime ∧
    (s.ctlGet .memHotEpoch 1).toNat % 2 ^ 32 ≠ 0 ∧ 1000 * ((s.ctlGet .memHotEpoch 1).toNat % 2 ^ 32) + s.msys.epoch.getD 1 0 ≤ s.podTime ∧
    Store.wf s.msys.hot = true ∧ s.msys.hot.getD 524288 0 = 9 :=
  let s := ((spaced 0 []).ctlSet .memRemapWindow 7 416).ctlSet .memHotEpoch 1 416
  ⟨{ s with msys := { s.msys with hot := [(0, 5), (524288, 9)] } }, by decide +kernel⟩
/-- FW_INSTALL into slot 1 from 0x20000, and into the running slot; an image of 160 bytes, which does not verify. -/
theorem wit_FirmwareAndAttestation : ∃ (s t : State), s.campanileWaits = false ∧ t.campanileWaits = false ∧ s.headRequest = some (0, 0xD) ∧ s.reqWord 0 0 = 1 ∧ s.inMemory (s.reqWord 0 1) (s.reqWord 0 2) = true ∧
    s.reqWord 0 2 = 160 ∧ s.fw.running = 0 ∧ t.headRequest = some (0, 0xD) ∧ t.reqWord 0 0 = t.fw.running ∧
    t.inMemory (t.reqWord 0 1) (t.reqWord 0 2) = true ∧ (List.replicate 160 (0 : Byte)).length = 160 :=
  ⟨asked 0xD [1, 0x20000, 160] [], asked 0xD [0, 0x20000, 160] [], by decide +kernel⟩
theorem wit_FirmwareAndAttestation_trial : ∃ (s t : State), s.fw.trial = true ∧ s.fw.started + 2400 * 30000000 ≤ s.env.cycle ∧
    t.campanileWaits = false ∧ t.headRequest = some (0, 0xE) ∧ t.inMemory (t.reqWord 0 0) 48 = true ∧ t.inMemory (t.reqWord 0 1) 304 = true ∧
    t.msys.late = [] ∧ t.pinned (physKey (t.reqWord 0 1)) 304 = false ∧ s.fw.next = none ∧ ∃ r : State, r.fw.trial = true ∧ r.fw.next = some 1 :=
  let s := spaced 0 []
  ⟨{ s with fw := { s.fw with trial := true }, env := { s.env with cycle := 2400 * 30000000 } }, asked 0xE [0x20000, 0x21000] [], by decide +kernel, by decide +kernel, by decide +kernel, by decide +kernel,
    by decide +kernel, by decide +kernel, by decide +kernel, by decide +kernel, by decide +kernel, { s with fw := { s.fw with trial := true, next := some 1 } },
    rfl, rfl⟩
/-- Queue 5 alone is served by Turret 0; Turret 1 serves none. -/
theorem wit_FirmwareAndAttestation_watchdog : ∃ (s : State) (q : Queue), Store.wf s.ctrl.queues = true ∧ s.ctrl.queues.get? 5 = some q ∧
    (∀ e ∈ s.ctrl.queues, e.2.mapped = true → e.2.slot.any (fun k => k % 48 == 0) = true → e = (5, q)) ∧ (5, q) ∈ s.ctrl.queues ∧ q.mapped = true ∧
    q.slot.any (fun k => k % 48 == 0) = true ∧ q.slot.any (fun k => k % 48 == 1) = false ∧
    s.ownRead (s.rebuilt 5).acc (s.rebuilt 5).headBlk 8 = some 0 :=
  let q := { queue with block := 0x26000 }
  ⟨queued q 0 [(physKey 0x26000, 8, 1), (physKey 0x26080, 64, 0x11000 + 16 * 2 ^ 64 + 0x1000 * 2 ^ 128 + 0x12000 * 2 ^ 192 + 0x12040 * 2 ^ 256),
    (physKey 0x12000, 8, 0), (physKey 0x12040, 16, 0)], q,
    by decide +kernel⟩
/-- A sector's byte, registers of each kind, and a tile. -/
theorem wit_SoftErrorsPoison : ∃ (s : State) (g : Group) (t : Team), s.groups.get? 1 = some g ∧ s.teams.get? 1 = some t ∧ (1 : Nat) ≠ 0 ∧ (3 : Nat) ≤ 3 ∧
    (512 * 1 + 127 = 512 * 1 + 127 ∧ 127 < 128) ∧ (256 < 319 ∧ 319 < 320) ∧ (320 < 327 ∧ 327 < 328) ∧ (16 * 1 + 15 = 16 * 1 + 15 ∧ 15 < 16) ∧
    g.poison = [] ∧ t.poisonCols = [] ∧ (5 : Nat) < 6 := ⟨world group [], group, team, by decide +kernel⟩

end Sys2Proof.Tests
end

/-! PROOFS. The byte order of memory, the stores of a path, and SLD and SST (00 R2; 15 R269; 25 R373, R379, R380). -/
namespace Sys2Proof.Machine

/-! ## An access that is checked as its path issues (15 R281) -/

/-- An issue is no second try: each participating lane's access is checked now. -/
theorem Turn.checkedOnce_ctx (q : Turn) (i : Instr) (f : Nat → Except FaultInfo (Nat × Loc)) :
    (q.ctx i).checkedOnce f = perLane f (q.parts i) := by
  rw [← q.part_list i]; rfl

@[simp] theorem Turn.foundOnce_ctx (q : Turn) (i : Instr) (x : Except FaultInfo Loc) : (q.ctx i).foundOnce x = x := rfl
@[simp] theorem Turn.sget_ctx (q : Turn) (i : Instr) (n : Nat) : (q.ctx i).sget n = q.g.sget n := rfl
@[simp] theorem Turn.pinned_start (q : Turn) (s : State) (k n : Nat) : (q.start s).pinned k n = s.pinned k n := rfl
@[simp] theorem Turn.goEntry_start (q : Turn) (s : State) (l : Loc) (n : Nat) : (q.start s).goEntry l n = s.goEntry l n := by
  cases l <;> rfl
@[simp] theorem Turn.byte_start (q : Turn) (s : State) : (q.start s).byte = s.byte := rfl
@[simp] theorem Turn.mem_start (q : Turn) (s : State) : (q.start s).mem = s.mem := rfl

/-- What writes `m` after the path has left its waits, and then lets it go on, changes the path's group and memory alone. -/
theorem State.Wrote.advance {s t : State} {q : Turn} {m : Bytes} (h : (q.start s).Wrote t m) (i : Instr) :
    ((q.ctx i).advance t).groups.get? q.gid = some (q.gone i) ∧ ((q.ctx i).advance t).byte = m ∧
      s.SameBut ((q.ctx i).advance t) q.gid ∧ ((q.ctx i).advance t).fab = s.fab := by
  have hg : t.groups.get? q.gid = some (q.g.unwait q.lanes) := by rw [h.groups]; exact start_group s q
  exact ⟨advance_group q i hg, h.byte,
    ((s.sameBut_setGroup q.gid _).trans (h.rest q.gid)).trans (t.sameBut_modGroup q.gid _), h.fab⟩

/-! ## Stores (25 R379, R380) -/

/-- The store forms, one for each number of bytes. -/
theorem storeForm_cases {i : Instr} {d a o : BitVec 7} {n : Nat} (h : storeForm i = some (d, a, o, n)) :
    ∃ g, i = .st8 d a o g ∧ n = 1 ∨ i = .st16 d a o g ∧ n = 2 ∨ i = .st32 d a o g ∧ n = 4 ∨ i = .st64 d a o g ∧ n = 8 ∨
      i = .st128 d a o g ∧ n = 16 := by
  unfold storeForm at h
  split at h
  · cases h; exact ⟨_, .inl ⟨rfl, rfl⟩⟩
  · cases h; exact ⟨_, .inr (.inl ⟨rfl, rfl⟩)⟩
  · cases h; exact ⟨_, .inr (.inr (.inl ⟨rfl, rfl⟩))⟩
  · cases h; exact ⟨_, .inr (.inr (.inr (.inl ⟨rfl, rfl⟩)))⟩
  · cases h; exact ⟨_, .inr (.inr (.inr (.inr ⟨rfl, rfl⟩)))⟩
  · cases h

theorem storeForm_bytes {i : Instr} {d a o : BitVec 7} {n : Nat} (h : storeForm i = some (d, a, o, n)) : n ∈ [1, 2, 4, 8, 16] := by
  obtain ⟨g, ⟨-, rfl⟩ | ⟨-, rfl⟩ | ⟨-, rfl⟩ | ⟨-, rfl⟩ | ⟨-, rfl⟩⟩ := storeForm_cases h <;> decide

/-- Every store form is `storeOp` at its number of bytes. -/
theorem exec_storeForm {i : Instr} {d a o : BitVec 7} {n : Nat} (h : storeForm i = some (d, a, o, n)) (s : State) :
    exec i s = storeOp i d.toNat a.toNat o n s := by
  obtain ⟨g, ⟨rfl, rfl⟩ | ⟨rfl, rfl⟩ | ⟨rfl, rfl⟩ | ⟨rfl, rfl⟩ | ⟨rfl, rfl⟩⟩ := storeForm_cases h <;> rfl

/-- The stores of the participating lanes, in rising order: each with its lane, its address, its key and its data. -/
def Turn.stores (q : Turn) (i : Instr) (d a o : BitVec 7) (n : Nat) (key : Nat → Nat) : List (Nat × Nat × Nat × Nat) :=
  (q.parts i).map (fun l => (l, q.at a o n l, key l, q.data d n l))

/-- The lanes that write, with the locations of this part compared as numbers (25 R380). -/
theorem Turn.writers_eq (q : Turn) (i : Instr) (key : Nat → Nat) :
    q.writers i key = (q.parts i).filter (fun l => !(q.parts i).any (fun m => decide (l < m) && decide (key m = key l))) := rfl

/-- The stores that no higher lane's store to the same location overwrites are those of the lanes that write (25 R380). -/
theorem Turn.stores_not_overwritten (q : Turn) (i : Instr) (d a o : BitVec 7) (n : Nat) (key : Nat → Nat) :
    ((q.stores i d a o n key).filter (fun x => !overwritten ((q.stores i d a o n key).map storeHere) (storeHere x))).map
      (fun x => (x.2.2.1, x.2.2.2)) = (q.writers i key).map (fun l => (key l, q.data d n l)) := by
  have hpred : ∀ l, overwritten ((q.stores i d a o n key).map storeHere) (storeHere (l, q.at a o n l, key l, q.data d n l)) =
      (q.parts i).any (fun m => decide (l < m) && decide (key m = key l)) := by
    intro l
    have hkey : ∀ m, (Loc.here (key m) == Loc.here (key l)) = decide (key m = key l) := fun m => by rw [Bool.eq_iff_iff]; simp
    rw [overwritten, Turn.stores, List.any_map, List.any_map]
    show (q.parts i).any (fun m => decide (l < m) && Loc.here (key m) == Loc.here (key l)) = _
    simp only [hkey]
  simp only [Turn.writers_eq, ← hpred, Turn.stores, List.filter_map, List.map_map, Function.comp_def]

/-- The path's stores when every address is this part's, none is pinned and none is a GO word. -/
theorem storeOp_here {s : State} {q : Turn} {i : Instr} (h : s.Issues q i) (d a o : BitVec 7) (n : Nat) (key : Nat → Nat)
    (hn : n ∈ [1, 2, 4, 8, 16])
    (hpart : ∀ l ∈ q.parts i, s.checkAddr q.g l (q.at a o n l) n n .store = .ok (.here (key l)) ∧
      s.pinned (key l) n = false ∧ s.goEntry (.here (key l)) n = none) :
    ∃ t, storeOp i d.toNat a.toNat o n s = .next ((q.ctx i).advance t) ∧
      (q.start s).Wrote t (Bytes.storedAll s.byte n ((q.writers i key).map (fun l => (key l, q.data d n l)))) := by
  have haddr : ∀ l, (q.g.unwait q.lanes).flAddr a.toNat l o n = q.at a o n l := q.at_eq a o n
  have hdata : ∀ l, (q.g.unwait q.lanes).storeData d.toNat l n = q.data d n l := fun l => storeData_eq q d n l hn
  have hcheck := perLane_ok
    (fun l => ((q.start s).checkAddr (q.g.unwait q.lanes) l (q.at a o n l) n n .store).map (fun x => (q.at a o n l, x)))
    (fun l => (q.at a o n l, Loc.here (key l))) (q.parts i)
    (fun l hl => by simp only [checkAddr_start, (hpart l hl).1, Except.map])
  have hfree : ((q.parts i).map (fun l => (l, q.at a o n l, Loc.here (key l)))).any (fun x => (q.start s).pinnedAt x.2.2 n) = false := by
    simp only [List.any_map, List.any_eq_false, Function.comp_apply, State.pinnedAt, Turn.pinned_start]
    intro l hl
    simp [(hpart l hl).2.1]
  obtain ⟨t, ht, hw⟩ := (q.ctx i).storeLanes_spec n ((q.stores i d a o n key).map storeHere) (q.stores i d a o n key) (q.start s) 0 []
    (fun x hx => by
      obtain ⟨l, hl, rfl⟩ := List.mem_map.1 hx
      rw [Turn.goEntry_start]
      exact (hpart l hl).2.2)
  rw [Turn.stores_not_overwritten, Turn.byte_start] at hw
  refine ⟨t, ?_, hw⟩
  have hlist : ((q.parts i).map (fun l => (l, q.at a o n l, Loc.here (key l)))).map (fun x => (x.1, x.2.1, x.2.2, q.data d n x.1)) =
      (q.stores i d a o n key).map storeHere := by
    simp only [Turn.stores, List.map_map, Function.comp_def, storeHere]
  rw [storeOp, issue_eq h]
  simp only [Turn.ctx_g, haddr, hdata, Turn.checkedOnce_ctx, hcheck, hfree, Bool.false_eq_true, if_false, hlist, ICtx.storeLanes, ht,
    ICtx.stored, if_true]

/-! ## SLD and SST (25 R373) -/

/-- The address of an SLD or SST is sA plus 8 times the offset, modulo 2^64 (15 R269). -/
theorem Turn.scalarAddr_ctx (q : Turn) (i : Instr) (a : BitVec 6) (o : BitVec 9) :
    (q.ctx i).scalarAddr a.toNat o = ((q.su a + 8 * o.toInt) % 2 ^ 64).toNat := by
  have hext : ((sext64 9 o.toNat : Nat) : Int) = o.toInt ∨ ((sext64 9 o.toNat : Nat) : Int) = o.toInt + 2 ^ 64 := by
    have hlt : o.toNat < 512 := o.isLt
    simp only [sext64, bit, BitVec.toInt_eq_toNat_cond, beq_iff_eq, Nat.reduceSub, Nat.reducePow]
    rcases Nat.lt_or_ge o.toNat 256 with hpos | hneg
    · rw [if_neg (by omega), if_pos (by omega)]; omega
    · rw [if_pos (by omega), if_neg (by omega)]; omega
  simp only [ICtx.scalarAddr, Turn.sget_ctx, add64, Turn.su]
  omega

/-- The model's lowest lane of a path is the lowest lane. -/
theorem lowLane_eq_lowest {m : Mask} (h : m ≠ 0) : lowLane m = lowest (fun l => m.getLsbD l) := by
  obtain ⟨l, hl, hb⟩ := (mask_ne_zero m).1 h
  obtain ⟨k, hk⟩ : ∃ k, (List.range 32).find? (fun l => m.getLsbD l) = some k :=
    Option.isSome_iff_exists.1 (List.find?_isSome.2 ⟨l, List.mem_range.2 hl, hb⟩)
  rw [lowLane, lowest, lanesOf, List.headD_eq_head?_getD, List.head?_filter, hk]
  rfl

/-- A scalar load of this part's memory: one result, for all lanes, is pending, and the path goes on. -/
theorem ICtx.loadScalar_here (c : ICtx) (s : State) (lane d va k : Nat) {g : Group} (h : s.groups.get? c.gid = some g) :
    ∃ p : Pend, (c.loadScalar s lane d va (.ok (.here k))).groups.get? c.gid =
        some { g.setPc c.lanes c.next with pend := g.pend ++ [p] } ∧
      p.lanes = BitVec.allOnes 32 ∧ p.sreg = (if d = 0 then none else some d) ∧ p.swrite = BitVec.ofNat 64 (Bytes.num s.byte k 8) ∧
      p.src = .ready ∧ p.bad = ((s.badLoad va 8 (.ok (.here k))).map (fun f => (f, lane))).toList ∧
      s.SameBut (c.loadScalar s lane d va (.ok (.here k))) c.gid ∧ s.sameBytes (c.loadScalar s lane d va (.ok (.here k))) := by
  have hq := ((s.quiet_useIds 1).trans (State.quiet_accessBy _ (s.accOf c.g) c.g va 8 (.here k) false (some s.freshId))).trans
    (State.quiet_combine _ k 8)
  simp only [ICtx.loadScalar, State.askRemote]
  refine ⟨_, Store.get?_modify_self _ _ _ (by rw [hq.groups]; exact h), rfl, rfl, ?_, rfl, rfl,
    (hq.sameBut _).trans (State.sameBut_modGroup _ _ _), fun j => hq.byte j⟩
  rw [State.loadValue_eq]
  rfl

/-- A path that goes on with results pending, and no register changed. -/
theorem Turn.pending_setPc (q : Turn) (i : Instr) (items : List Pend) :
    q.Pending i { (q.g.unwait q.lanes).setPc q.lanes (q.pc + i.size) with pend := (q.g.unwait q.lanes).pend ++ items } items :=
  ⟨rfl, rfl, q.goesOn_setPc i (q.g.unwait q.lanes) rfl, fun _ _ => rfl, fun _ => rfl, fun _ _ => rfl, rfl⟩

/-- SLD of a word of this part's memory that is not poisoned. -/
theorem execSld_here {s : State} {q : Turn} {d a : BitVec 6} {o : BitVec 9} {k : Nat} (h : s.Issues q (.sld d a o))
    (hload : s.checkLoad q.g (lowest fun l => q.lanes.getLsbD l) ((q.su a + 8 * o.toInt) % 2 ^ 64).toNat 8 = .ok (.ok (.here k)))
    (hclean : s.mem.poisonAt k 8 = none) :
    ∃ t h p, exec (.sld d a o) s = .next t ∧ t.groups.get? q.gid = some h ∧ q.Pending (.sld d a o) h [p] ∧
      p.lanes = BitVec.allOnes 32 ∧ p.sreg = (if d = 0 then none else some d.toNat) ∧
      p.swrite = BitVec.ofNat 64 (Bytes.num s.byte k 8) ∧ p.src = .ready ∧ p.bad = [] ∧ s.SameBut t q.gid ∧ s.sameBytes t := by
  obtain ⟨p, hg, hl, hr, hv, hs, hb, hsame, hbytes⟩ := (q.ctx (.sld d a o)).loadScalar_here (q.start s)
    (lowest fun l => q.lanes.getLsbD l) d.toNat ((q.su a + 8 * o.toInt) % 2 ^ 64).toNat k (start_group s q)
  refine ⟨_, _, p, ?_, hg, q.pending_setPc _ [p], hl, ?_, hv, hs, ?_, (s.sameBut_setGroup q.gid _).trans hsame, hbytes⟩
  · show execSld d a o s = _
    rw [execSld, issue_eq h]
    simp only [Turn.ctx_lanes, Turn.ctx_g, Turn.scalarAddr_ctx, lowLane_eq_lowest h.some_lane, checkLoad_start, hload]
  · simp [hr, BitVec.toNat_eq]
  · simp [hb, State.badLoad, hclean]

/-- SST to a word of this part's memory that is neither pinned nor a GO word. -/
theorem execSst_here {s : State} {q : Turn} {d a : BitVec 6} {o : BitVec 9} {k : Nat} (h : s.Issues q (.sst d a o))
    (haddr : s.checkAddr q.g (lowest fun l => q.lanes.getLsbD l) ((q.su a + 8 * o.toInt) % 2 ^ 64).toNat 8 8 .store = .ok (.here k))
    (hpin : s.pinned k 8 = false) (hgo : s.goEntry (.here k) 8 = none) :
    ∃ t, exec (.sst d a o) s = .next ((q.ctx (.sst d a o)).advance t) ∧
      (q.start s).Wrote t (Bytes.stored s.byte k 8 (q.g.sget d.toNat).toNat) := by
  have hw := (q.ctx (.sst d a o)).storeLane_here 8 (q.start s) (lowest fun l => q.lanes.getLsbD l)
    ((q.su a + 8 * o.toInt) % 2 ^ 64).toNat k (q.g.sget d.toNat).toNat
  refine ⟨_, ?_, hw⟩
  have hgo' := State.goEntry_congr (hw.rest q.gid) (.here k) 8
  rw [Turn.goEntry_start, hgo] at hgo'
  show execSst d a o s = _
  rw [execSst, issue_eq h]
  simp only [Turn.ctx_lanes, Turn.ctx_g, Turn.scalarAddr_ctx, lowLane_eq_lowest h.some_lane, Turn.foundOnce_ctx, checkAddr_start, haddr,
    State.pinnedAt, Turn.pinned_start, hpin, Bool.false_eq_true, if_false, State.goBusy, Turn.goEntry_start, hgo, Option.filter,
    Turn.sget_ctx, State.goStored, hgo']

/-! ## The statement -/

/-- Settles O21: memory through its bytes, the stores lane by lane, SLD as one pending result and SST as one lane's store. -/
theorem storesWriteTheirBytes : Obligations.StoresWriteTheirBytes := by
  refine ⟨fun s k n x => ⟨s.readMem_eq k n, s.byte_writeMem_stored k n x, s.readMem_writeMem k n x⟩, ?_, ?_⟩
  · intro s q i d a o n key hform h hk
    obtain ⟨t, he, hw⟩ := storeOp_here h d a o n key (storeForm_bytes hform) fun l hl =>
      have ⟨hl32, htakes⟩ := Turn.mem_parts.1 hl
      hk l hl32 htakes
    exact ⟨_, (exec_storeForm hform s).trans he, hw.advance i⟩
  · intro s q d a o k
    refine ⟨fun h hload hclean => execSld_here h hload hclean, fun h haddr hpin hgo => ?_⟩
    obtain ⟨t, he, hw⟩ := execSst_here h haddr hpin hgo
    exact ⟨_, he, hw.advance _⟩

end Sys2Proof.Machine
